-- ==== Sys2Proof/Word.lean ====
section
/-! DEFINITION. The word types of the module: scalar words, vector registers, predicates, accumulator entries. -/

namespace Sys2Proof

/-- A scalar register, a CSR, a register-window word (06 R150). -/
abbrev Word := BitVec 64
/-- A byte of memory. -/
abbrev Byte := BitVec 8
/-- A vector register (08 R212). -/
abbrev VWord := BitVec 2048
/-- A predicate register: one bit for each byte of a vector (08 R212). -/
abbrev PWord := BitVec 256
/-- An accumulator entry (07 R189). -/
abbrev AccWord := BitVec 80
/-- A handle register: QW1 above QW0 (09 R246). -/
abbrev HWord := BitVec 128
/-- The number of a scalar register. -/
abbrev SReg := BitVec 6
/-- The number of a vector register. -/
abbrev VRegN := BitVec 5
/-- The number of a predicate register, or the size code of a scalar access (09 R262). -/
abbrev PReg := BitVec 3
/-- The number of a handle or counting barrier. -/
abbrev Reg16 := BitVec 4
/-- The number of a matrix-parameter register. -/
abbrev MpReg := BitVec 3

end Sys2Proof
end

