-- ==== Sys2Proof/Syntax.lean ====
section
/-! DEFINITION. The steps of the module: every row of the opcode table is one constructor of Instr. -/

namespace Sys2Proof

/-- The non-trust dies, with die codes 0 to 3 (01 R30). -/
inductive DieId where
  | cd0 | cd1 | md0 | md1
  deriving DecidableEq, Repr

/-- A physical core: its die and its number on the die (01 R21). -/
structure CoreId where
  die : DieId
  num : Nat
  deriving DecidableEq, Repr

/-- A task: the queue that accepted it, the count `gen` of the queue's starts, and its sequence number; `adopted` marks a
queue of die `die` that its twin took over at failover (14 R405). -/
structure TaskId where
  die : DieId
  queue : Nat
  adopted : Bool
  gen : Nat
  seq : Nat
  deriving DecidableEq, Repr

/-- An application core, the master of a register write (01 R37, R44). -/
structure AppCore where
  die : DieId
  num : Nat
  deriving DecidableEq, Repr

/-- Element types, codes 0 to 14 (05 R108). -/
inductive ElemType where
  | f32 | f16 | bf16 | e4m3 | e5m2 | i8 | n8 | i16 | n16 | i32 | n32 | i64 | n64 | i4 | n4
  deriving DecidableEq, Repr

/-- The W field of the scalar floating-point instructions (06 R156). -/
inductive Width where
  | f32 | f64
  deriving DecidableEq, Repr

/-- FCVT formats (06 R158). -/
inductive CvtFmt where
  | f32 | f64 | f16 | bf16 | i32 | n32 | i64 | n64
  deriving DecidableEq, Repr

/-- Compare relations (06 R157, 08 R220). -/
inductive Rel where
  | eq | ne | lt | le | gt | ge | un
  deriving DecidableEq, Repr

/-- Block size of VSCALE (08 R228). -/
inductive Blk where
  | b128 | b32 | all
  deriving DecidableEq, Repr

/-- Orders of atomics (05 R110). -/
inductive Ord where
  | rlx | acq | rel | ar | sc
  deriving DecidableEq, Repr

/-- Scopes (05 R110). -/
inductive Scope where
  | strand | gang | die | package | system
  deriving DecidableEq, Repr

/-- Rounding modes (07 R192). -/
inductive Rnd where
  | rne | rtz | rdn | rup | rna
  deriving DecidableEq, Repr

/-- Saturation of the prefix (05 R112, 07 R195). -/
inductive Sat where
  | none | sat | satnz
  deriving DecidableEq, Repr

/-- The token fields of the engine slots (05 R111). -/
structure Tok where
  pt : BitVec 6
  cb : BitVec 6
  cm : BitVec 3
  deriving DecidableEq, Repr

/-- Traps (13 Table 13-1). -/
inductive TrapName where
  | fetchRange | illegalEncoding | illegalGroup | illegalCsr | hazard | loopCount | loopOverflow
  | loopEmpty | badEret | misaligned | handleRange | pageRights | badHandle | vaCanon | scratchRange
  | accRange | badVdie | arbourFull | regionBudget | badEfmt | noRoutine | detFull | soft | brk | arith
  | grant | badPa | homeDown | seal | copyStatus | matrixStatus | reservedCode | trapqFull | handlerFault
  deriving DecidableEq, Repr

/-- One packet of a peer put as it reaches its target die (10 R283): the sender's chip, gang and core,
the target strand's context, gang and core, and whether it is the last packet of a command that raises
a receiver flag (10 R284); `bad` names the bytes of its data that left their chip with a failed seal, each run by its start and
its end (14 R416). -/
structure PeerPut where
  die : DieId
  ctx : Nat
  chip : Nat
  sgang : Nat
  score : Nat
  tgang : Nat
  tcore : Nat
  off : Nat
  data : List Byte
  bad : List (Nat × Nat)
  flag : Option Nat
  sender : Option (CoreId × Nat)
  deriving DecidableEq, Repr

/-- The two paths to Rhoath's SPDM responder (14 R419). -/
inductive SpdmPort where
  | mailbox | doe (die : DieId)
  deriving DecidableEq, Repr

/-- A change that Rhoath requests for a link (14 R421): of its width, or of the frequency of the die at one end. -/
inductive LinkChange where
  | width (lanes : Nat) | freq (die : DieId) (step : Nat)
  deriving DecidableEq, Repr

/-- Why Rhoath changes a die's clock step (14 R422), with the package power that it has measured, in watts. -/
inductive HeatCause where
  | hot (watts : Nat) | hotter (watts : Nat) | overCap (watts : Nat) | cool (watts : Nat)
  deriving DecidableEq, Repr

/-- The slots of a bundle in encoding order (05 Table 05-1). -/
inductive Slot where
  | sa | sb | va | vb | vc | sf | ma | mb | xm | ce | ct
  deriving DecidableEq, Repr

/-- One step of the module for each row of the opcode table: the operations of the slots, the matrix
routines, and the events. -/
inductive Instr where
  -- Scalar slots SA and SB (06)
  /-- ADD (R151). -/
  | add (d a b : SReg)
  /-- SUB (R151). -/
  | sub (d a b : SReg)
  /-- AND (R151). -/
  | and (d a b : SReg)
  /-- OR (R151). -/
  | or (d a b : SReg)
  /-- XOR (R151). -/
  | xor (d a b : SReg)
  /-- ANDN (R151). -/
  | andn (d a b : SReg)
  /-- SHL (R151). -/
  | shl (d a b : SReg)
  /-- SHR (R151). -/
  | shr (d a b : SReg)
  /-- SAR (R151). -/
  | sar (d a b : SReg)
  /-- ROL (R151). -/
  | rol (d a b : SReg)
  /-- MIN (R151). -/
  | min (d a b : SReg)
  /-- MAX (R151). -/
  | max (d a b : SReg)
  /-- MINN (R151). -/
  | minn (d a b : SReg)
  /-- MAXN (R151). -/
  | maxn (d a b : SReg)
  /-- MUL (R151). -/
  | mul (d a b : SReg)
  /-- MULH (R151). -/
  | mulh (d a b : SReg)
  /-- MULHN (R151). -/
  | mulhn (d a b : SReg)
  /-- DIV (R152). -/
  | div (d a b : SReg)
  /-- DIVN (R152). -/
  | divn (d a b : SReg)
  /-- REM (R152). -/
  | rem (d a b : SReg)
  /-- REMN (R152). -/
  | remn (d a b : SReg)
  /-- CMPEQ (R151). -/
  | cmpeq (d a b : SReg)
  /-- CMPNE (R151). -/
  | cmpne (d a b : SReg)
  /-- CMPLT (R151). -/
  | cmplt (d a b : SReg)
  /-- CMPLE (R151). -/
  | cmple (d a b : SReg)
  /-- CMPLTN (R151). -/
  | cmpltn (d a b : SReg)
  /-- CMPLEN (R151). -/
  | cmplen (d a b : SReg)
  /-- SEL (R151). -/
  | sel (d a b c : SReg)
  /-- CLZ (R151). -/
  | clz (d a : SReg)
  /-- CTZ (R151). -/
  | ctz (d a : SReg)
  /-- POPC (R151). -/
  | popc (d a : SReg)
  /-- BREV (R151). -/
  | brev (d a : SReg)
  /-- BSWAP (R151). -/
  | bswap (d a : SReg)
  /-- EXTB (R153). -/
  | extb (d a b : SReg) (sx : Bool)
  /-- INSB (R153). -/
  | insb (d a b : SReg)
  /-- ADDSH (R151). -/
  | addsh (d a b : SReg) (sh : BitVec 6)
  /-- ADDI (R154). -/
  | addi (d a : SReg) (imm : BitVec 13)
  /-- ANDI (R154). -/
  | andi (d a : SReg) (imm : BitVec 13)
  /-- ORI (R154). -/
  | ori (d a : SReg) (imm : BitVec 13)
  /-- XORI (R154). -/
  | xori (d a : SReg) (imm : BitVec 13)
  /-- SHLI (R154). -/
  | shli (d a : SReg) (n : BitVec 6)
  /-- SHRI (R154). -/
  | shri (d a : SReg) (n : BitVec 6)
  /-- SARI (R154). -/
  | sari (d a : SReg) (n : BitVec 6)
  /-- CMPEQI (R154). -/
  | cmpeqi (d a : SReg) (imm : BitVec 13)
  /-- CMPLTI (R154). -/
  | cmplti (d a : SReg) (imm : BitVec 13)
  /-- MOVW (R155). -/
  | movw (d : SReg) (imm : BitVec 19)
  /-- MOVK (R155). -/
  | movk (d : SReg) (pos : BitVec 2) (imm : BitVec 16)
  /-- FADD (R156). -/
  | fadd (w : Width) (d a b : SReg)
  /-- FSUB (R156). -/
  | fsub (w : Width) (d a b : SReg)
  /-- FMUL (R156). -/
  | fmul (w : Width) (d a b : SReg)
  /-- FFMA (R156). -/
  | ffma (w : Width) (d a b : SReg)
  /-- FMIN (R156). -/
  | fmin (w : Width) (d a b : SReg)
  /-- FMAX (R156). -/
  | fmax (w : Width) (d a b : SReg)
  /-- FCMP (R157). -/
  | fcmp (w : Width) (cc : Rel) (d a b : SReg)
  /-- FCVT (R158). -/
  | fcvt (dst src : CvtFmt) (d a : SReg)
  /-- FCLASS (R159). -/
  | fclass (w : Width) (d a : SReg)
  /-- PTOS (R160). -/
  | ptos (d : SReg) (a : PReg) (c : BitVec 2)
  /-- MPSET (R160). -/
  | mpset (d : MpReg) (a : SReg)
  /-- MPGET (R160). -/
  | mpget (d : SReg) (a : MpReg)
  /-- CNTSET (R161). -/
  | cntset (d : Reg16) (a : SReg)
  /-- CNTADD (R161). -/
  | cntadd (d : Reg16) (a : SReg)
  /-- CNTRD (R161). -/
  | cntrd (d : SReg) (a : Reg16)
  /-- CSRRD (R145). -/
  | csrrd (d : SReg) (csr : BitVec 13)
  /-- CSRWR (R145). -/
  | csrwr (csr : BitVec 13) (a : SReg)
  /-- VDQRY (R164). -/
  | vdqry (d a b : SReg)
  /-- LIX (R163). -/
  | lix (d : SReg) (n : BitVec 13)
  /-- FRAMEQ (R165). -/
  | frameq (d : SReg)
  -- Control slot CT (06, 13)
  /-- NOP (R172). -/
  | nop
  /-- BR (R167). -/
  | br (off : BitVec 20)
  /-- BRZ (R167). -/
  | brz (a : SReg) (off : BitVec 20)
  /-- BRNZ (R167). -/
  | brnz (a : SReg) (off : BitVec 20)
  /-- JMP (R167). -/
  | jmp (a : SReg) (imm : BitVec 14)
  /-- CALL (R167). -/
  | call (off : BitVec 20)
  /-- CALLR (R167). -/
  | callr (a : SReg) (imm : BitVec 14)
  /-- RET (R167). -/
  | ret
  /-- LOOP (R169). -/
  | loop (a : SReg) (last : BitVec 20)
  /-- LOOPI (R169). -/
  | loopi (cnt : BitVec 12) (last : BitVec 14)
  /-- LBREAK (R171). -/
  | lbreak (a : SReg) (z : Bool)
  /-- DISARM (R172). -/
  | disarm (mask : BitVec 8)
  /-- COMMIT (R384). -/
  | commit
  /-- WAITLT (R173). -/
  | waitlt (k : Reg16) (b : SReg) (imm : BitVec 14)
  /-- WAITTK (R174). -/
  | waittk (tk : BitVec 6) (mask : BitVec 8)
  /-- BAR (R177). -/
  | bar
  /-- SSTEP (R178). -/
  | sstep
  /-- YIELD (R179). -/
  | yield
  /-- EXIT (R180). -/
  | exit
  /-- SIGNAL (R181). -/
  | signal (h : Reg16) (b : SReg) (dec : BitVec 14)
  /-- LAUNCH (R182). -/
  | launch (h : Reg16) (b : SReg) (q : BitVec 6) (vd : BitVec 2)
  /-- TRAP (R183). -/
  | trap (a : SReg) (code : BitVec 14)
  /-- EBREAK (R183). -/
  | ebreak
  /-- ERET (R377). -/
  | eret
  /-- FLAGWT (R175). -/
  | flagwt (mask : BitVec 8)
  /-- WFE (R176). -/
  | wfe
  /-- HINVALL (R184). -/
  | hinvall
  -- Vector slots (08)
  /-- VADD (R218). -/
  | vadd (t : ElemType) (vd va vb : VRegN) (p : PReg) (s : Bool)
  /-- VSUB (R218). -/
  | vsub (t : ElemType) (vd va vb : VRegN) (p : PReg) (s : Bool)
  /-- VMUL (R218). -/
  | vmul (t : ElemType) (vd va vb : VRegN) (p : PReg) (s : Bool)
  /-- VFMA (R218). -/
  | vfma (t : ElemType) (vd va vb vc : VRegN) (p : PReg) (s : Bool)
  /-- VFMS (R218). -/
  | vfms (t : ElemType) (vd va vb vc : VRegN) (p : PReg) (s : Bool)
  /-- VFNMA (R218). -/
  | vfnma (t : ElemType) (vd va vb vc : VRegN) (p : PReg) (s : Bool)
  /-- VMIN (R218). -/
  | vmin (t : ElemType) (vd va vb : VRegN) (p : PReg) (s : Bool)
  /-- VMAX (R218). -/
  | vmax (t : ElemType) (vd va vb : VRegN) (p : PReg) (s : Bool)
  /-- VABS (R218). -/
  | vabs (t : ElemType) (vd va : VRegN) (p : PReg) (s : Bool)
  /-- VNEG (R218). -/
  | vneg (t : ElemType) (vd va : VRegN) (p : PReg) (s : Bool)
  /-- VAND (R219). -/
  | vand (t : ElemType) (vd va vb : VRegN) (p : PReg) (s : Bool)
  /-- VOR (R219). -/
  | vor (t : ElemType) (vd va vb : VRegN) (p : PReg) (s : Bool)
  /-- VXOR (R219). -/
  | vxor (t : ElemType) (vd va vb : VRegN) (p : PReg) (s : Bool)
  /-- VANDN (R219). -/
  | vandn (t : ElemType) (vd va vb : VRegN) (p : PReg) (s : Bool)
  /-- VSHL (R219). -/
  | vshl (t : ElemType) (vd va vb : VRegN) (p : PReg) (s : Bool)
  /-- VSHR (R219). -/
  | vshr (t : ElemType) (vd va vb : VRegN) (p : PReg) (s : Bool)
  /-- VSAR (R219). -/
  | vsar (t : ElemType) (vd va vb : VRegN) (p : PReg) (s : Bool)
  /-- VMULH (R219). -/
  | vmulh (t : ElemType) (vd va vb : VRegN) (p : PReg) (s : Bool)
  /-- VAVG (R218). -/
  | vavg (t : ElemType) (vd va vb : VRegN) (p : PReg) (s : Bool)
  /-- VCLZ (R219). -/
  | vclz (t : ElemType) (vd va : VRegN) (p : PReg) (s : Bool)
  /-- VPOPC (R219). -/
  | vpopc (t : ElemType) (vd va : VRegN) (p : PReg) (s : Bool)
  /-- VCMP (R220). -/
  | vcmp (t : ElemType) (cc : Rel) (pd : PReg) (va vb : VRegN) (p : PReg) (s : Bool)
  /-- VSEL (R221). -/
  | vsel (t : ElemType) (vd va vb : VRegN) (p : PReg) (s : Bool)
  /-- VMOV (R221). -/
  | vmov (t : ElemType) (vd va : VRegN) (p : PReg) (s : Bool)
  /-- VBCAST (R221). -/
  | vbcast (t : ElemType) (vd : VRegN) (n : SReg) (p : PReg) (s : Bool)
  /-- VEXT (R222). -/
  | vext (t : ElemType) (d : SReg) (va : VRegN) (idx : BitVec 10) (s : Bool)
  /-- VINS (R222). -/
  | vins (t : ElemType) (vd : VRegN) (n : SReg) (idx : BitVec 10) (s : Bool)
  /-- VIOTA (R221). -/
  | viota (t : ElemType) (vd : VRegN) (p : PReg) (s : Bool)
  /-- VPERM (R223). -/
  | vperm (t : ElemType) (vd va vb : VRegN) (p : PReg) (s : Bool)
  /-- VROT (R223). -/
  | vrot (t : ElemType) (vd va : VRegN) (n : SReg) (p : PReg) (s : Bool)
  /-- VSLIDE (R223). -/
  | vslide (t : ElemType) (vd va vb : VRegN) (n : SReg) (up : Bool) (p : PReg) (s : Bool)
  /-- VZIP (R223). -/
  | vzip (t : ElemType) (vd va vb : VRegN) (hi : Bool) (p : PReg) (s : Bool)
  /-- VUNZIP (R223). -/
  | vunzip (t : ElemType) (vd va vb : VRegN) (hi : Bool) (p : PReg) (s : Bool)
  /-- VREDADD (R224). -/
  | vredadd (t : ElemType) (vd va : VRegN) (p : PReg) (s : Bool)
  /-- VREDMAX (R224). -/
  | vredmax (t : ElemType) (vd va : VRegN) (p : PReg) (s : Bool)
  /-- VREDMIN (R224). -/
  | vredmin (t : ElemType) (vd va : VRegN) (p : PReg) (s : Bool)
  /-- VSCAN (R225). -/
  | vscan (t : ElemType) (vd va : VRegN) (p : PReg) (s : Bool)
  /-- VDOT4 (R226). -/
  | vdot4 (t : ElemType) (vd va vb vc : VRegN) (p : PReg) (s : Bool)
  /-- VCVT (R229). -/
  | vcvt (t src : ElemType) (vd va : VRegN) (part : BitVec 4) (p : PReg) (s : Bool)
  /-- VPACK (R230). -/
  | vpack (t src : ElemType) (vd va vb : VRegN) (p : PReg) (s : Bool)
  /-- VUNPACK (R231). -/
  | vunpack (t src : ElemType) (vd va : VRegN) (hi : Bool) (p : PReg) (s : Bool)
  /-- VSCALE (R232). -/
  | vscale (t src : ElemType) (vd va vb : VRegN) (part : BitVec 4) (blk : Blk) (p : PReg) (s : Bool)
  /-- VABSMAX (R227). -/
  | vabsmax (t : ElemType) (vd va vc : VRegN) (p : PReg) (s : Bool)
  /-- PAND (R233). -/
  | pand (pd pa pb : PReg) (s : Bool)
  /-- POR (R233). -/
  | por (pd pa pb : PReg) (s : Bool)
  /-- PXOR (R233). -/
  | pxor (pd pa pb : PReg) (s : Bool)
  /-- PNOT (R233). -/
  | pnot (pd pa : PReg) (s : Bool)
  /-- PSET (R233). -/
  | pset (t : ElemType) (pd : PReg) (cnt : BitVec 10) (s : Bool)
  /-- PCOUNT (R233). -/
  | pcount (t : ElemType) (d : SReg) (pa : PReg) (s : Bool)
  /-- PFIRST (R233). -/
  | pfirst (t : ElemType) (d : SReg) (pa : PReg) (s : Bool)
  -- Special-function slot (08)
  /-- FRCP (R236). -/
  | frcp (t : ElemType) (vd va : VRegN) (p : PReg) (s : Bool)
  /-- FRSQ (R236). -/
  | frsq (t : ElemType) (vd va : VRegN) (p : PReg) (s : Bool)
  /-- FRCPS (R239). -/
  | frcps (t : ElemType) (vd va vb : VRegN) (p : PReg) (s : Bool)
  /-- FRSQS (R239). -/
  | frsqs (t : ElemType) (vd va vb : VRegN) (p : PReg) (s : Bool)
  /-- FSQRT (R235). -/
  | fsqrt (t : ElemType) (vd va : VRegN) (p : PReg) (s : Bool)
  /-- FDIV (R235). -/
  | fdiv (t : ElemType) (vd va vb : VRegN) (p : PReg) (s : Bool)
  /-- FEXP2 (R236). -/
  | fexp2 (t : ElemType) (vd va : VRegN) (p : PReg) (s : Bool)
  /-- FLOG2 (R236). -/
  | flog2 (t : ElemType) (vd va : VRegN) (p : PReg) (s : Bool)
  /-- FSIN (R236). -/
  | fsin (t : ElemType) (vd va : VRegN) (p : PReg) (s : Bool)
  /-- FCOS (R236). -/
  | fcos (t : ElemType) (vd va : VRegN) (p : PReg) (s : Bool)
  /-- FTANH (R236). -/
  | ftanh (t : ElemType) (vd va : VRegN) (p : PReg) (s : Bool)
  /-- FSIGM (R236). -/
  | fsigm (t : ElemType) (vd va : VRegN) (p : PReg) (s : Bool)
  /-- FGELU (R236). -/
  | fgelu (t : ElemType) (vd va : VRegN) (p : PReg) (s : Bool)
  /-- FCLASSV (R240). -/
  | fclassv (t : ElemType) (vd va : VRegN) (p : PReg) (s : Bool)
  -- Memory slots (09, 12)
  /-- LD (R262). -/
  | ld (sz : PReg) (t a : SReg) (imm : BitVec 18) (s : Bool) (st : BitVec 7)
  /-- ST (R262). -/
  | st (sz : PReg) (t a : SReg) (imm : BitVec 18) (s : Bool) (st : BitVec 7)
  /-- VLD (R262). -/
  | vld (t : VRegN) (a : SReg) (p : PReg) (imm : BitVec 18) (s : Bool) (st : BitVec 7)
  /-- VST (R262). -/
  | vst (t : VRegN) (a : SReg) (p : PReg) (imm : BitVec 18) (s : Bool) (st : BitVec 7)
  /-- VLDW (R262). -/
  | vldw (t : VRegN) (a : SReg) (p : PReg) (imm : BitVec 18) (s : Bool) (st : BitVec 7)
  /-- VSTW (R262). -/
  | vstw (t : VRegN) (a : SReg) (p : PReg) (imm : BitVec 18) (s : Bool) (st : BitVec 7)
  /-- XLT (R248). -/
  | xlt (h : Reg16) (a : SReg)
  /-- HINV (R248). -/
  | hinv (h : Reg16)
  /-- HQRY (R248). -/
  | hqry (d : SReg) (h : Reg16)
  /-- LDL (R263). -/
  | ldl (sz : PReg) (t : SReg) (h : Reg16) (a : SReg) (off : BitVec 4) (land : BitVec 12) (s : Bool) (st : BitVec 5)
  /-- VLDL (R263). -/
  | vldl (t : VRegN) (h : Reg16) (a : SReg) (p : PReg) (off : BitVec 4) (land : BitVec 12) (s : Bool) (st : BitVec 5)
  /-- VLDLX (R263). -/
  | vldlx (e : BitVec 2) (t : VRegN) (h : Reg16) (a : SReg) (p : PReg) (land : BitVec 12) (s : Bool) (st : BitVec 5)
  /-- VGATH (R263). -/
  | vgath (t : VRegN) (h : Reg16) (va : VRegN) (p : PReg) (off : BitVec 4) (land : BitVec 12) (s : Bool) (st : BitVec 5)
  /-- STH (R263). -/
  | sth (sz : PReg) (t : SReg) (h : Reg16) (a : SReg) (off : BitVec 4) (s : Bool) (st : BitVec 5)
  /-- VSTH (R263). -/
  | vsth (t : VRegN) (h : Reg16) (a : SReg) (p : PReg) (off : BitVec 4) (s : Bool) (st : BitVec 5)
  /-- VSTHX (R263). -/
  | vsthx (e : BitVec 2) (t : VRegN) (h : Reg16) (a : SReg) (p : PReg) (s : Bool) (st : BitVec 5)
  /-- VSCAT (R263). -/
  | vscat (t : VRegN) (h : Reg16) (va : VRegN) (p : PReg) (off : BitVec 4) (s : Bool) (st : BitVec 5)
  /-- VLDA (R264). -/
  | vlda (int : Bool) (t : VRegN) (a : SReg) (p : PReg) (off : BitVec 4) (land : BitVec 12) (s : Bool) (st : BitVec 5)
  /-- VSTA (R264). -/
  | vsta (int : Bool) (t : VRegN) (a : SReg) (p : PReg) (off : BitVec 4) (land : BitVec 12) (s : Bool) (st : BitVec 5)
  /-- PLD (R263). -/
  | pld (h : Reg16) (a : SReg) (off : BitVec 4)
  /-- DRAIN (R266). -/
  | drain
  /-- FENCE (R266). -/
  | fence (scope : Scope) (pr pw sr sw : Bool)
  /-- AMOADD (R340). -/
  | amoadd (w v : Bool) (o : Ord) (sc : Scope) (t : BitVec 6) (h : Reg16) (a b : BitVec 6) (land : BitVec 12)
  /-- AMOMIN (R340). -/
  | amomin (w v : Bool) (o : Ord) (sc : Scope) (t : BitVec 6) (h : Reg16) (a b : BitVec 6) (land : BitVec 12)
  /-- AMOMAX (R340). -/
  | amomax (w v : Bool) (o : Ord) (sc : Scope) (t : BitVec 6) (h : Reg16) (a b : BitVec 6) (land : BitVec 12)
  /-- AMOAND (R340). -/
  | amoand (w v : Bool) (o : Ord) (sc : Scope) (t : BitVec 6) (h : Reg16) (a b : BitVec 6) (land : BitVec 12)
  /-- AMOOR (R340). -/
  | amoor (w v : Bool) (o : Ord) (sc : Scope) (t : BitVec 6) (h : Reg16) (a b : BitVec 6) (land : BitVec 12)
  /-- AMOXOR (R340). -/
  | amoxor (w v : Bool) (o : Ord) (sc : Scope) (t : BitVec 6) (h : Reg16) (a b : BitVec 6) (land : BitVec 12)
  /-- AMOSWP (R340). -/
  | amoswp (w v : Bool) (o : Ord) (sc : Scope) (t : BitVec 6) (h : Reg16) (a b : BitVec 6) (land : BitVec 12)
  /-- AMOCAS (R340). -/
  | amocas (w v : Bool) (o : Ord) (sc : Scope) (t : BitVec 6) (h : Reg16) (a b : BitVec 6) (land : BitVec 12)
  /-- AMOFADD (R340). -/
  | amofadd (w v : Bool) (o : Ord) (sc : Scope) (t : BitVec 6) (h : Reg16) (a b : BitVec 6) (land : BitVec 12)
  /-- REDADD (R340). -/
  | redadd (w v : Bool) (o : Ord) (sc : Scope) (h : Reg16) (a b : BitVec 6)
  /-- REDMIN (R340). -/
  | redmin (w v : Bool) (o : Ord) (sc : Scope) (h : Reg16) (a b : BitVec 6)
  /-- REDMAX (R340). -/
  | redmax (w v : Bool) (o : Ord) (sc : Scope) (h : Reg16) (a b : BitVec 6)
  /-- REDFADD (R340). -/
  | redfadd (w v : Bool) (o : Ord) (sc : Scope) (h : Reg16) (a b : BitVec 6)
  -- Matrix slot XM (11)
  /-- MCALL (R333). -/
  | mcall (r : BitVec 6) (tk : Tok) (s : Bool) (st : BitVec 6)
  /-- MFMT (R334). -/
  | mfmt (f : SReg) (tk : Tok)
  /-- MCHK (R335). -/
  | mchk (f : SReg) (tk : Tok)
  /-- MCLR (R335). -/
  | mclr (f : SReg) (tk : Tok)
  /-- MLDSTORE (R336). -/
  | mldstore (f : SReg) (tk : Tok)
  -- Copy slot CE (10)
  /-- CPY (R279). -/
  | cpy (tk : Tok) (v : VRegN) (a b : SReg) (k : Reg16) (s : Bool) (st : BitVec 21)
  /-- CPYSIG (R281). -/
  | cpysig (tk : Tok) (v : VRegN) (a b : SReg) (k : Reg16) (s : Bool) (st : BitVec 21)
  /-- CPEER (R283). -/
  | cpeer (tk : Tok) (v : VRegN) (a b : SReg) (k : Reg16) (s : Bool) (st : BitVec 21)
  /-- BANKCFG (R286). -/
  | bankcfg (tk : Tok) (a b : SReg)
  /-- STRMBIND (R297). -/
  | strmbind (tk : Tok) (a : SReg) (k : Reg16)
  /-- STRMREL (R297). -/
  | strmrel (tk : Tok) (a b : SReg)
  /-- PGLOAD (R302). -/
  | pgload (tk : Tok) (a b : SReg)
  /-- PGRUN (R302). -/
  | pgrun (tk : Tok) (b : SReg)
  /-- PGSTOP (R302). -/
  | pgstop (tk : Tok) (b : SReg)
  /-- PSEND (R288). -/
  | psend (tk : Tok) (v : VRegN) (a : SReg) (k : Reg16)
  /-- PGRANT (R289). -/
  | pgrant (tk : Tok) (a : SReg)
  /-- CFLUSH (R303). -/
  | cflush (tk : Tok) (a b : SReg)
  /-- CINV (R303). -/
  | cinv (tk : Tok) (a b : SReg)
  -- Matrix routines (11)
  /-- MM_FP8 (R323). -/
  | mmFp8 (c : CoreId)
  /-- MM_INT8 (R323). -/
  | mmInt8 (c : CoreId)
  /-- MM_INT4 (R323). -/
  | mmInt4 (c : CoreId)
  /-- MM_BF16X3 (R325). -/
  | mmBf16x3 (c : CoreId)
  /-- MM_FP8_ACCSKIP (R324). -/
  | mmFp8Accskip (c : CoreId)
  /-- ACC_ZERO (R326). -/
  | accZero (c : CoreId)
  /-- ACC_DRAIN_F32 (R326). -/
  | accDrainF32 (c : CoreId)
  /-- ACC_DRAIN_BF16 (R326). -/
  | accDrainBf16 (c : CoreId)
  /-- ACC_DRAIN_I32 (R326). -/
  | accDrainI32 (c : CoreId)
  /-- ACC_DRAIN_FP8 (R327). -/
  | accDrainFp8 (c : CoreId)
  /-- ACC_TOA (R327). -/
  | accToa (c : CoreId)
  /-- ACC_SCALEROW (R326). -/
  | accScalerow (c : CoreId)
  /-- WB_LOAD (R328). -/
  | wbLoad (c : CoreId)
  /-- CORR_LOAD (R329). -/
  | corrLoad (c : CoreId)
  /-- CHK_READ (R329). -/
  | chkRead (c : CoreId)
  /-- NOP_ROUTINE (R330). -/
  | nopRoutine (c : CoreId)
  -- Events of engines, cores, dies, the host and Rhoath (95)
  /-- UNCORE_RESET_REQUEST (R40). -/
  | uncoreResetRequest (die : DieId)
  /-- DETECTOR_EVENT (R387). -/
  | detectorEvent (c : CoreId) (num blocks : Nat)
  /-- XM_ENTRY_START (R124). -/
  | xmEntryStart (c : CoreId)
  /-- ROUTINE_COMPLETE (R198). -/
  | routineComplete (c : CoreId)
  /-- TILE_COMPLETION_CHECK (R309). -/
  | tileCompletionCheck (c : CoreId)
  /-- ROUTINE_INSTALL (R336). -/
  | routineInstall (id : Nat)
  /-- BUNDLE_ISSUE (R116). -/
  | bundleIssue (c : CoreId)
  /-- LANDING_ARRIVAL (R250). -/
  | landingArrival (id : Nat)
  /-- WALK_COMPLETE (R248). -/
  | walkComplete (id : Nat)
  /-- WAIT_CONDITION_MET (R143). -/
  | waitConditionMet (c : CoreId)
  /-- WFE_TIMEOUT (R176). -/
  | wfeTimeout (c : CoreId)
  /-- QUEUE_ROOM (R124). -/
  | queueRoom (c : CoreId)
  /-- SYNC_RELEASE (R125). -/
  | syncRelease (c : CoreId)
  /-- COMMIT_RELEASE (R384). -/
  | commitRelease (c : CoreId)
  /-- STRAND_EXIT_COMPLETE (R180). -/
  | strandExitComplete (c : CoreId)
  /-- ASYNC_TRAP_ARRIVAL (R374). -/
  | asyncTrapArrival (c : CoreId) (tr : TrapName) (detail val : Word)
  /-- TRAP_ENTRY (R375). -/
  | trapEntry (c : CoreId)
  /-- FATAL_TRAP (R371). -/
  | fatalTrap (c : CoreId)
  /-- STOP_REQUEST (R390). -/
  | stopRequest (task : TaskId) (gang : Nat)
  /-- STOP_DEADLINE (R390). -/
  | stopDeadline (c : CoreId)
  /-- SAVE_AREA_WRITE (R392). -/
  | saveAreaWrite (c : CoreId)
  /-- STRAND_RESUME (R395). -/
  | strandResume (c : CoreId) (task : TaskId) (gang lcore : Nat)
  /-- STRAND_LOAD (R140). -/
  | strandLoad (c : CoreId) (task : TaskId) (gang lcore : Nat)
  /-- TRELLIS_REPLAY (R254). -/
  | trellisReplay (c : CoreId)
  /-- HOME_SLICE_ACCESS (R99). -/
  | homeSliceAccess (id : Nat)
  /-- LOCAL_CAUSAL_RELEASE (R349). -/
  | localCausalRelease (id : Nat)
  /-- ATOMIC_PERFORM (R340). -/
  | atomicPerform (id : Nat)
  /-- REPLAY_ORDER_RELEASE (R359). -/
  | replayOrderRelease (id : Nat)
  /-- DIVERGE (R359). -/
  | diverge (id : Nat)
  /-- EPOCH_CLOSE (R363). -/
  | epochClose (task : TaskId) (gang : Nat)
  /-- COUNTER_DECREMENT (R76). -/
  | counterDecrement (id : Nat)
  /-- CACHE_UE (R412). -/
  | cacheUe (die : DieId) (pa slice way : Nat)
  /-- DRAM_WRITEBACK (R410). -/
  | dramWriteback (die : DieId) (pa : Nat)
  /-- BANK_SWITCH_COMPLETE (R95). -/
  | bankSwitchComplete (die : DieId) (cluster bank : Nat)
  /-- FLIT_RECEIVE (R349). -/
  | flitReceive (id : Nat)
  /-- FLIT_DELIVER (R349). -/
  | flitDeliver (id : Nat)
  /-- CREDIT_SEND (R351). -/
  | creditSend (die : DieId)
  /-- CREDIT_RECEIVE (R351). -/
  | creditReceive (die src : DieId)
  /-- CE_COMMAND_START (R271). -/
  | ceCommandStart (c : CoreId)
  /-- PACKET_LAND (R272). -/
  | packetLand (c : CoreId) (cmd pkt : Nat)
  /-- CE_COMMAND_COMPLETE (R271). -/
  | ceCommandComplete (c : CoreId) (cmd : Nat)
  /-- CPYSIG_SIGNAL (R281). -/
  | cpysigSignal (id : Nat)
  /-- PEER_PUT_RECEIVE (R283). -/
  | peerPutReceive (put : PeerPut)
  /-- PSEND_DELIVERY (R288). -/
  | psendDelivery (id : Nat)
  /-- PERMIT_ARRIVE (R289). -/
  | permitArrive (die : DieId) (ch : Nat)
  /-- LINE_FRAME (R292). -/
  | lineFrame (die : DieId) (port : Nat) (frame : List Byte)
  /-- CONTROL_FRAME (R293). -/
  | controlFrame (die : DieId) (port : Nat)
  /-- PLATE_SWITCH (R302). -/
  | plateSwitch (die : DieId) (port : Nat)
  /-- PCIE_DMA_WRITE (R415). -/
  | pcieDmaWrite (die : DieId) (pa : Nat) (data : List Byte)
  /-- PCIE_DMA_READ (R416). -/
  | pcieDmaRead (die : DieId) (pa len : Nat)
  /-- QTAIL_WRITE (R66). -/
  | qtailWrite (die : DieId) (q : Nat) (v : Word)
  /-- RING_SLOT_READ (R67). -/
  | ringSlotRead (die : DieId) (q : Nat)
  /-- LAUNCH_PACKET_ARRIVE (R68). -/
  | launchPacketArrive (id : Nat)
  /-- WAITING_PACKET_ACCEPT (R68). -/
  | waitingPacketAccept (die : DieId) (q : Nat)
  /-- QCFG_WRITE (R63). -/
  | qcfgWrite (die : DieId) (q : Nat) (v : Word) (app : AppCore)
  /-- QTT_WRITE (R78). -/
  | qttWrite (die : DieId) (q : Nat) (v : Word) (app : AppCore)
  /-- TIMETABLE_UNBIND (R78). -/
  | timetableUnbind (die : DieId) (q : Nat)
  /-- FRAME_START (R61). -/
  | frameStart (die : DieId) (q : Nat)
  /-- DEGRADED_SWITCH (R408). -/
  | degradedSwitch (die : DieId) (q : Nat)
  /-- TASK_RELEASE (R70). -/
  | taskRelease (task : TaskId)
  /-- COUNTER_WATCH (R70). -/
  | counterWatch (die : DieId)
  /-- COUNTER_POLL (R70). -/
  | counterPoll (die : DieId)
  /-- ADMISSION_PASS (R72). -/
  | admissionPass (die : DieId)
  /-- SIGNATURE_CHECK (R55). -/
  | signatureCheck (task : TaskId)
  /-- SUPERSTEP_BIND_REQUEST (R79). -/
  | superstepBindRequest (die : DieId) (task : TaskId)
  /-- AGING_RESERVATION (R72). -/
  | agingReservation (die : DieId) (task : TaskId) (gang : Nat)
  /-- RESERVATION_PREEMPT (R73). -/
  | reservationPreempt (die : DieId) (attention : Bool)
  /-- STARVATION_YIELD (R80). -/
  | starvationYield (task : TaskId) (gang : Nat)
  /-- DEADLINE_MISS (R78). -/
  | deadlineMiss (task : TaskId)
  /-- TASK_RETIRE (R75). -/
  | taskRetire (task : TaskId)
  /-- CTXCFG_WRITE (R90). -/
  | ctxcfgWrite (ctx : BitVec 4) (qw : Bool) (v : Word) (app : AppCore)
  /-- CTXMMU_WRITE (R245). -/
  | ctxmmuWrite (die : DieId) (ctx : BitVec 4) (v : Word)
  /-- REVOKE (R249). -/
  | revoke (ctx : BitVec 4)
  /-- REVOKE_COMPLETE (R249). -/
  | revokeComplete (ctx : BitVec 4)
  /-- PFDONE (R257). -/
  | pfdone (v : Word)
  /-- ACCESS_TABLE_WRITE (R99). -/
  | accessTableWrite (die : DieId) (table entry qw : Nat) (v : Word) (app : AppCore)
  /-- PPCFG_WRITE (R287). -/
  | ppcfgWrite (die : DieId) (n : Nat) (v : Word) (app : AppCore)
  /-- PORTCFG_WRITE (R296). -/
  | portcfgWrite (die : DieId) (n : Nat) (v : Word) (app : AppCore)
  /-- QTRACE_WRITE (R63). -/
  | qtraceWrite (die : DieId) (q : Nat) (v : Word) (app : AppCore)
  /-- CTXORD_WRITE (R361). -/
  | ctxordWrite (die : DieId) (ctx : BitVec 4) (reg : Nat) (v : Word) (app : AppCore)
  /-- DETQUOTA_WRITE (R358). -/
  | detquotaWrite (die : DieId) (ctx : BitVec 4) (v : Word) (app : AppCore)
  /-- MIRRORCFG_WRITE (R409). -/
  | mirrorcfgWrite (die : DieId) (n qw : Nat) (v : Word) (app : AppCore)
  /-- SAVEPOOL_WRITE (R393). -/
  | savepoolWrite (die : DieId) (v : Word) (app : AppCore)
  /-- REGISTER_WRITE (R9); no die: the mailbox window (R418). -/
  | registerWrite (die : Option DieId) (off : Nat) (v : Word) (app : AppCore)
  /-- QFAULT_READ (R63). -/
  | qfaultRead (die : DieId) (q : Nat)
  /-- ACCVIOL_READ (R44). -/
  | accviolRead (die : DieId)
  /-- VIOLOG1_READ (R100). -/
  | violog1Read (die : DieId)
  /-- DETCNT_READ (R362). -/
  | detcntRead (die : DieId)
  /-- PORTCNT_READ (R296). -/
  | portcntRead (die : DieId) (port : Nat) (reg1 : Bool)
  /-- FABCNT_READ (R353). -/
  | fabcntRead (die : DieId)
  /-- CTX_KEY (R420). -/
  | ctxKey (arg : Word)
  /-- CLEAR_RETIRED (R400). -/
  | clearRetired (arg : Word)
  /-- RECOVER (R417). -/
  | recover (arg pa len : Word)
  /-- SPDM (R419). -/
  | spdm (pa len resp : Word)
  /-- POWER_CAP (R418). -/
  | powerCap (arg : Word)
  /-- MBUE_READ (R418). -/
  | mbueRead
  /-- GET_VERSION (R419). -/
  | getVersion (ch : SpdmPort)
  /-- GET_CAPABILITIES (R419). -/
  | getCapabilities (ch : SpdmPort)
  /-- NEGOTIATE_ALGORITHMS (R419). -/
  | negotiateAlgorithms (ch : SpdmPort)
  /-- GET_DIGESTS (R419). -/
  | getDigests (ch : SpdmPort)
  /-- GET_CERTIFICATE (R419). -/
  | getCertificate (ch : SpdmPort) (slot : Nat)
  /-- CHALLENGE (R419). -/
  | challenge (ch : SpdmPort) (slot : Nat)
  /-- GET_MEASUREMENTS (R419). -/
  | getMeasurements (ch : SpdmPort) (index : Nat)
  /-- KEY_EXCHANGE (R419): the channel and the certificate slot. -/
  | keyExchange (req : SpdmPort × Nat)
  /-- FINISH (R419). -/
  | finish (ch : SpdmPort)
  /-- END_SESSION (R419). -/
  | endSession (ch : SpdmPort)
  /-- UNSUPPORTED_REQUEST (R419). -/
  | unsupportedRequest (ch : SpdmPort) (code : Byte)
  /-- POWER_GOOD_BOOT (R417), with the die images that the board has put into its flash meanwhile. -/
  | powerGoodBoot (flash : List (DieId × List Byte))
  /-- UNCORE_LEAVE_RESET (R41). -/
  | uncoreLeaveReset (die : DieId)
  /-- CORE_DOMAIN_LEAVE_RESET (R41). -/
  | coreDomainLeaveReset (die : DieId)
  /-- RHOATH_UE (R34). -/
  | rhoathUe
  /-- DIE_FAILOVER (R404). -/
  | dieFailover (die : DieId)
  /-- LINK_RETRAIN (R421), with the requests for the link that Rhoath has made since the last. -/
  | linkRetrain (link : Nat) (reqs : List LinkChange) (failed : Bool)
  /-- THERMAL (R422). -/
  | thermal (die : DieId) (cause : HeatCause)
  /-- THERMAL_SHUTDOWN (R422). -/
  | thermalShutdown
  /-- PEER_ACK (R344). -/
  | peerAck (id : Nat)
  deriving DecidableEq, Repr

end Sys2Proof
end

