-- ==== Sys2Proof/Config.lean ====
section
/-! DEFINITION. What a part fixes and the free values: constants without a body stand for what the spec
leaves open. -/

namespace Sys2Proof

/-! Die codes, twins (01 Table 01-1, R34). -/

def DieId.code : DieId → Nat | .cd0 => 0 | .cd1 => 1 | .md0 => 2 | .md1 => 3
def DieId.isMem : DieId → Bool | .md0 | .md1 => true | _ => false
def DieId.twin : DieId → DieId | .cd0 => .cd1 | .cd1 => .cd0 | .md0 => .md1 | .md1 => .md0
def DieId.all : List DieId := [.cd0, .cd1, .md0, .md1]
def DieId.ofCode (n : Nat) : Option DieId := [DieId.cd0, .cd1, .md0, .md1][n]?

def CoreId.isAttn (c : CoreId) : Bool := c.die.isMem

end Sys2Proof

namespace Sys2Proof.Config

/-- Which of several possible events comes next (log 2): the index is taken modulo their number. -/
opaque choose : Nat → Nat
/-- The wall ticks of a freeze (06 R148; log 5). -/
opaque frozenTicks : Nat → Nat
/-- The frame ticks that have passed since the frame counter was last read (00 R4; log 5). -/
opaque frameStep : Nat → Nat
/-- A word that the spec leaves open, by the count of free values drawn. -/
opaque freeWord : Nat → Word
/-- Results of cryptography (log 8): the SM3 digest of bytes, whether a signature holds, whether a key id
is a Gwynnos key. -/
opaque sm3 : List Byte → Nat
opaque signatureHolds : List Byte → Bool
opaque gwynnosKey : Nat → Bool
/-- The images of Rhoath's firmware (none) and of the dies in the board flash, and whether an image's security version is not
below the fused minimum (14 R417; log 8). -/
opaque flashImage : Option DieId → List Byte
opaque versionOk : List Byte → Bool
/-- The bytes of an SPDM response (log 8), by the count of free values drawn. -/
opaque spdmBytes : Nat → List Byte
/-- DIEKEY of each die, which Rhoath sets at boot (04 R98; log 10). -/
opaque dieKey : DieId → BitVec 32
/-- The SM3 digest of a shipped routine by slot (log 12). -/
opaque routineDigest : Nat → Nat

/-- CORE_EN of each die: the full complement of 01 R23 (log 11). -/
def coreEn : DieId → Nat
  | .cd0 | .cd1 => 0xFFFFFF
  | .md0 | .md1 => 0xFF

end Sys2Proof.Config
end

