-- ==== Sys2Proof/WellFormed.lean ====
section
/-! DEFINITION. Which instructions an encoding can hold: the reserved values that each instruction's
description excludes (05 R113, Table 05-8 order 6 and 7). -/

namespace Sys2Proof

/-- Width of an element type in bits (08 R212). -/
def ElemType.width : ElemType → Nat
  | .i4 | .n4 => 4
  | .e4m3 | .e5m2 | .i8 | .n8 => 8
  | .f16 | .bf16 | .i16 | .n16 => 16
  | .f32 | .i32 | .n32 => 32
  | .i64 | .n64 => 64

/-- Elements of a register (08 R212). -/
def ElemType.lanes (t : ElemType) : Nat := 2048 / t.width

/-- The type sets of 08 Table 08-1. -/
def ElemType.isFlt : ElemType → Bool
  | .f32 | .f16 | .bf16 => true
  | _ => false
def ElemType.isF8 : ElemType → Bool
  | .e4m3 | .e5m2 => true
  | _ => false
def ElemType.isSgn : ElemType → Bool
  | .i8 | .i16 | .i32 | .i64 => true
  | _ => false
def ElemType.isW4 : ElemType → Bool
  | .i4 | .n4 => true
  | _ => false
def ElemType.isFloat (t : ElemType) : Bool := t.isFlt || t.isF8
def ElemType.isInt (t : ElemType) : Bool := !t.isFloat && !t.isW4
/-- Signed integer types, I4 included. -/
def ElemType.signed : ElemType → Bool
  | .i4 | .i8 | .i16 | .i32 | .i64 => true
  | _ => false

/-- FLT and INT of 08 Table 08-2. -/
def ElemType.isArith (t : ElemType) : Bool := t.isFlt || t.isInt

/-- The factor between two widths (08 R228). -/
def widthFactor (a b : ElemType) : Nat := max a.width b.width / min a.width b.width

/-- The pairs of VUNPACK (08 R231): twice the width, and no floating source with an integer destination. -/
def unpackPair (d s : ElemType) : Bool := d.width == 2 * s.width && (d.isFloat || !s.isFloat)

/-- Load sizes 0 to 6 and store sizes (09 Table 09-11). -/
def loadSize (p : PReg) : Bool := p != 7
def storeSize (p : PReg) : Bool := p == 0 || p == 1 || p == 3 || p == 5

/-- Orders of the posted reductions (12 Table 12-1). -/
def postedOrder : Ord → Bool
  | .rlx | .rel => true
  | _ => false

/-- The reserved M4 encodings of 12 Table 12-1, but for t. -/
def m4Fields (w v : Bool) (a b : BitVec 6) : Bool := !(v && w) && (!v || (a.toNat < 32 && b.toNat < 32))
def amoWf (w v : Bool) (t a b : BitVec 6) (land : BitVec 12) : Bool :=
  m4Fields w v a b && land != 0 && (!v || t.toNat < 32)
def redWf (w v : Bool) (o : Ord) (a b : BitVec 6) : Bool := m4Fields w v a b && postedOrder o

/-- An instruction that an encoding can hold. The rows that are routines and events have no encoding. -/
def Instr.wf : Instr → Bool
  | .lix _ n => n.toNat < 6
  | .loop _ l => l != 0
  | .loopi _ l => l != 0
  | .disarm m => m != 0
  | .signal _ _ d => d != 0
  | .flagwt m => m != 0
  | .vadd t .. | .vsub t .. | .vmul t .. | .vfma t .. | .vfms t .. | .vfnma t .. | .vmin t .. | .vmax t ..
  | .vavg t .. | .vredadd t .. | .vredmax t .. | .vredmin t .. | .vscan t .. => t.isArith
  | .vabs t .. | .vneg t .. => t.isFlt || t.isSgn
  | .vshl t .. | .vshr t .. | .vsar t .. | .vmulh t .. | .vclz t .. | .vpopc t .. | .viota t .. => t.isInt
  | .vcmp t cc .. => t.isArith && (cc != .un || t.isFlt)
  | .vext t _ _ idx _ | .vins t _ _ idx _ => !t.isW4 && idx.toNat < t.lanes
  | .vperm t .. | .vrot t .. | .vslide t .. | .vzip t .. | .vunzip t .. => !t.isW4
  | .vdot4 t .. => t == .i8 || t == .n8 || t.isF8
  | .vcvt t u _ _ part _ _ => part.toNat < widthFactor t u
  | .vpack t u _ _ _ _ _ => u.width == 2 * t.width
  | .vunpack t u _ _ _ _ _ => unpackPair t u
  | .vscale t u _ _ _ part _ _ _ => t.isFloat && u.isFloat && part.toNat < widthFactor t u
  | .vabsmax t .. => t.isFloat
  | .pset t _ cnt _ => cnt.toNat ≤ t.lanes
  | .frcp t .. | .frsq t .. | .frcps t .. | .frsqs t .. | .fsqrt t .. | .fdiv t .. | .fexp2 t .. | .flog2 t ..
  | .fsin t .. | .fcos t .. | .ftanh t .. | .fsigm t .. | .fgelu t .. | .fclassv t .. => t.isFlt
  | .ld sz .. => loadSize sz
  | .st sz .. => storeSize sz
  | .ldl sz _ _ _ _ l _ _ => loadSize sz && l != 0
  | .sth sz .. => storeSize sz
  | .vldl _ _ _ _ _ l _ _ | .vgath _ _ _ _ _ l _ _ | .vlda _ _ _ _ _ l _ _ | .vsta _ _ _ _ _ l _ _ => l != 0
  | .vldlx _ _ _ a _ l _ _ => l != 0 && !a.getLsbD 0
  | .vsthx _ _ _ a _ _ _ => !a.getLsbD 0
  | .fence _ pr pw sr sw => (pr || pw) && (sr || sw)
  | .amoadd w v _ _ t _ a b l | .amomin w v _ _ t _ a b l | .amomax w v _ _ t _ a b l
  | .amoand w v _ _ t _ a b l | .amoor w v _ _ t _ a b l | .amoxor w v _ _ t _ a b l
  | .amoswp w v _ _ t _ a b l | .amocas w v _ _ t _ a b l | .amofadd w v _ _ t _ a b l => amoWf w v t a b l
  | .redadd w v o _ _ a b | .redmin w v o _ _ a b | .redmax w v o _ _ a b | .redfadd w v o _ _ a b =>
    redWf w v o a b
  | _ => true

end Sys2Proof
end

