-- ==== Sys2Proof/Decode.lean ====
section
/-! DEFINITION. Bits to operations: the slot fields of 05 R106 to R112, the header and prefix of a bundle,
the checks of 05 Table 05-8 that need no state, and the encoder. -/

namespace Sys2Proof

/-- Why an encoding is no instruction: orders 2 to 12 of 05 Table 05-8, by cause. -/
inductive Reject where
  /-- 0x01: the header's parity is wrong. -/
  | parity
  /-- 0x02: a header bit of [30:28] is set. -/
  | headerReserved
  /-- 0x03: LENGTH differs from the computed length. -/
  | length
  /-- 0x04: unassigned opcode. -/
  | opcode
  /-- 0x05: a reserved bit or value. -/
  | reserved
  /-- 0x06: a vector register field with bit 5 set. -/
  | vectorBit
  /-- 0x07: MLDSTORE in an image without PRIV. -/
  | unprivileged
  /-- 0x08: prefix misuse (05 R133). -/
  | prefixMisuse
  /-- 0x09: an arming bit in a bundle with COMMIT or EXIT. -/
  | armedAtCommit
  /-- 0x0A: DISARM names a slot that carries an operation. -/
  | disarmOccupied
  /-- 0x0B: REP with a CT operation other than NOP. -/
  | repControl
  deriving DecidableEq, Repr

def Reject.cause : Reject → Nat
  | .parity => 1 | .headerReserved => 2 | .length => 3 | .opcode => 4 | .reserved => 5 | .vectorBit => 6
  | .unprivileged => 7 | .prefixMisuse => 8 | .armedAtCommit => 9 | .disarmOccupied => 10 | .repControl => 11

/-- Bits [lo + n - 1 : lo] of a word. -/
def bitsAt (w lo n : Nat) : Nat := w / 2 ^ lo % 2 ^ n
def bitAt (w i : Nat) : Bool := w / 2 ^ i % 2 == 1

/-! ## Codes of the enumerated fields -/

/-- Type codes (05 R108). -/
def ElemType.all : List ElemType :=
  [.f32, .f16, .bf16, .e4m3, .e5m2, .i8, .n8, .i16, .n16, .i32, .n32, .i64, .n64, .i4, .n4]
def ElemType.code : ElemType → Nat
  | .f32 => 0 | .f16 => 1 | .bf16 => 2 | .e4m3 => 3 | .e5m2 => 4 | .i8 => 5 | .n8 => 6 | .i16 => 7
  | .n16 => 8 | .i32 => 9 | .n32 => 10 | .i64 => 11 | .n64 => 12 | .i4 => 13 | .n4 => 14
def ElemType.ofCode : Nat → Option ElemType
  | 0 => some .f32 | 1 => some .f16 | 2 => some .bf16 | 3 => some .e4m3 | 4 => some .e5m2 | 5 => some .i8
  | 6 => some .n8 | 7 => some .i16 | 8 => some .n16 | 9 => some .i32 | 10 => some .n32 | 11 => some .i64
  | 12 => some .n64 | 13 => some .i4 | 14 => some .n4 | _ => none
def Rel.code : Rel → Nat
  | .eq => 0 | .ne => 1 | .lt => 2 | .le => 3 | .gt => 4 | .ge => 5 | .un => 6
def Rel.ofCode : Nat → Option Rel
  | 0 => some .eq | 1 => some .ne | 2 => some .lt | 3 => some .le | 4 => some .gt | 5 => some .ge
  | 6 => some .un | _ => none
def Width.code : Width → Nat | .f32 => 0 | .f64 => 1
def Width.ofCode (n : Nat) : Width := if n % 2 = 0 then .f32 else .f64
def CvtFmt.code : CvtFmt → Nat
  | .f32 => 0 | .f64 => 1 | .f16 => 2 | .bf16 => 3 | .i32 => 4 | .n32 => 5 | .i64 => 6 | .n64 => 7
def CvtFmt.ofCode (n : Nat) : CvtFmt :=
  match n % 8 with
  | 0 => .f32 | 1 => .f64 | 2 => .f16 | 3 => .bf16 | 4 => .i32 | 5 => .n32 | 6 => .i64 | _ => .n64
def Blk.code : Blk → Nat | .b128 => 0 | .b32 => 1 | .all => 2
def Blk.ofCode : Nat → Option Blk | 0 => some .b128 | 1 => some .b32 | 2 => some .all | _ => none
def Ord.code : Ord → Nat | .rlx => 0 | .acq => 1 | .rel => 2 | .ar => 3 | .sc => 4
def Ord.ofCode : Nat → Option Ord
  | 0 => some .rlx | 1 => some .acq | 2 => some .rel | 3 => some .ar | 4 => some .sc | _ => none
def Scope.code : Scope → Nat | .strand => 0 | .gang => 1 | .die => 2 | .package => 3 | .system => 4
def Scope.ofCode : Nat → Option Scope
  | 0 => some .strand | 1 => some .gang | 2 => some .die | 3 => some .package | 4 => some .system
  | _ => none
def Rnd.ofCode : Nat → Option Rnd
  | 0 => some .rne | 1 => some .rtz | 2 => some .rdn | 3 => some .rup | 4 => some .rna | _ => none
def Rnd.code : Rnd → Nat | .rne => 0 | .rtz => 1 | .rdn => 2 | .rup => 3 | .rna => 4
def Sat.ofCode : Nat → Option Sat
  | 0 => some .none | 1 => some .sat | 2 => some .satnz | _ => none
def Sat.code : Sat → Nat | .none => 0 | .sat => 1 | .satnz => 2

/-! ## Slots -/

/-- The five field formats by slot (05 Table 05-1): scalar, control, vector, special function, memory,
matrix, copy. -/
inductive SlotKind where
  | scalar | control | vector | special | memory | matrix | copy
  deriving DecidableEq, Repr

def Slot.kind : Slot → SlotKind
  | .sa | .sb => .scalar
  | .va | .vb | .vc => .vector
  | .sf => .special
  | .ma | .mb => .memory
  | .xm => .matrix
  | .ce => .copy
  | .ct => .control
def Slot.all : List Slot := [.sa, .sb, .va, .vb, .vc, .sf, .ma, .mb, .xm, .ce, .ct]
/-- The slot index of 05 Table 05-1. -/
def Slot.index : Slot → Nat
  | .sa => 0 | .sb => 1 | .va => 2 | .vb => 3 | .vc => 4 | .sf => 5 | .ma => 6 | .mb => 7 | .xm => 8
  | .ce => 9 | .ct => 10
/-- Halfwords of a slot field (05 Table 05-1). -/
def SlotKind.halfwords : SlotKind → Nat
  | .scalar | .control | .special | .matrix => 2
  | .vector | .memory => 3
  | .copy => 4
def Slot.halfwords (s : Slot) : Nat := s.kind.halfwords

abbrev Dec := Except Reject Instr

/-- The operation `i` where its unused bits `z` are all zero and its values are not reserved. -/
def chk (z : Bool) (i : Option Instr) : Dec :=
  match i with
  | some i => if z && i.wf then .ok i else .error .reserved
  | none => .error .reserved

/-- As `chk`, then the vector register field (order 7). -/
def chkV (z : Bool) (i : Option Instr) (bit5 : Bool) : Dec :=
  match chk z i with
  | .ok i => if bit5 then .error .vectorBit else .ok i
  | .error e => .error e

/-- The operation with opcode `op` in the scalar slots (05 Table 05-3, Table 05-10). -/
def decodeScalarAt (op w : Nat) : Dec :=
  let d : SReg := .ofNat 6 (w / 2 ^ 19)
  let a : SReg := .ofNat 6 (w / 2 ^ 13)
  let b : SReg := .ofNat 6 (w / 2 ^ 7)
  let fn := w % 2 ^ 7
  let imm : BitVec 13 := .ofNat 13 w
  let bz := bitsAt w 7 6 == 0
  let az := bitsAt w 13 6 == 0
  let dz := bitsAt w 19 6 == 0
  let s3 (f : SReg → SReg → SReg → Instr) : Dec := chk (fn == 0) (some (f d a b))
  let s2 (f : SReg → SReg → Instr) : Dec := chk (bz && fn == 0) (some (f d a))
  let si (f : SReg → SReg → BitVec 13 → Instr) : Dec := .ok (f d a imm)
  let sh (f : SReg → SReg → BitVec 6 → Instr) : Dec := chk (bitsAt w 6 7 == 0) (some (f d a (.ofNat 6 w)))
  let fp (f : Width → SReg → SReg → SReg → Instr) : Dec :=
    chk (fn / 2 == 0) (some (f (Width.ofCode fn) d a b))
  match op with
  | 0x00 => s3 .add
  | 0x01 => s3 .sub
  | 0x02 => s3 .and
  | 0x03 => s3 .or
  | 0x04 => s3 .xor
  | 0x05 => s3 .andn
  | 0x06 => s3 .shl
  | 0x07 => s3 .shr
  | 0x08 => s3 .sar
  | 0x09 => s3 .rol
  | 0x0A => s3 .min
  | 0x0B => s3 .max
  | 0x0C => s3 .minn
  | 0x0D => s3 .maxn
  | 0x0E => s3 .mul
  | 0x0F => s3 .mulh
  | 0x10 => s3 .mulhn
  | 0x11 => s3 .div
  | 0x12 => s3 .divn
  | 0x13 => s3 .rem
  | 0x14 => s3 .remn
  | 0x15 => s3 .cmpeq
  | 0x16 => s3 .cmpne
  | 0x17 => s3 .cmplt
  | 0x18 => s3 .cmple
  | 0x19 => s3 .cmpltn
  | 0x1A => s3 .cmplen
  | 0x1B => chk (fn / 2 ^ 6 == 0) (some (.sel d a b (.ofNat 6 fn)))
  | 0x1C => s2 .clz
  | 0x1D => s2 .ctz
  | 0x1E => s2 .popc
  | 0x1F => s2 .brev
  | 0x20 => s2 .bswap
  | 0x21 => chk (fn / 2 == 0) (some (.extb d a b (fn % 2 == 1)))
  | 0x22 => s3 .insb
  | 0x23 => chk (fn / 2 ^ 6 == 0) (some (.addsh d a b (.ofNat 6 fn)))
  | 0x28 => si .addi
  | 0x29 => si .andi
  | 0x2A => si .ori
  | 0x2B => si .xori
  | 0x2C => sh .shli
  | 0x2D => sh .shri
  | 0x2E => sh .sari
  | 0x2F => si .cmpeqi
  | 0x30 => si .cmplti
  | 0x31 => .ok (.movw d (.ofNat 19 w))
  | 0x33 => chk (bitsAt w 16 1 == 0) (some (.movk d (.ofNat 2 (w / 2 ^ 17)) (.ofNat 16 w)))
  | 0x38 => fp .fadd
  | 0x39 => fp .fsub
  | 0x3A => fp .fmul
  | 0x3B => fp .ffma
  | 0x3C => fp .fmin
  | 0x3D => fp .fmax
  | 0x3E => chk (fn / 2 ^ 4 == 0) ((Rel.ofCode (fn / 2 % 8)).map (.fcmp (Width.ofCode fn) · d a b))
  | 0x3F => chk (bz && fn / 2 ^ 6 == 0) (some (.fcvt (CvtFmt.ofCode (fn / 8)) (CvtFmt.ofCode fn) d a))
  | 0x40 => chk (bz && fn / 2 == 0) (some (.fclass (Width.ofCode fn) d a))
  | 0x44 => chk (bitsAt w 16 3 == 0 && bz && fn / 2 ^ 2 == 0)
      (some (.ptos d (.ofNat 3 (w / 2 ^ 13)) (.ofNat 2 fn)))
  | 0x48 => chk (bitsAt w 22 3 == 0 && bz && fn == 0) (some (.mpset (.ofNat 3 (w / 2 ^ 19)) a))
  | 0x49 => chk (bitsAt w 16 3 == 0 && bz && fn == 0) (some (.mpget d (.ofNat 3 (w / 2 ^ 13))))
  | 0x4C => chk (bitsAt w 23 2 == 0 && bz && fn == 0) (some (.cntset (.ofNat 4 (w / 2 ^ 19)) a))
  | 0x4D => chk (bitsAt w 23 2 == 0 && bz && fn == 0) (some (.cntadd (.ofNat 4 (w / 2 ^ 19)) a))
  | 0x4E => chk (bitsAt w 17 2 == 0 && bz && fn == 0) (some (.cntrd d (.ofNat 4 (w / 2 ^ 13))))
  | 0x50 => chk az (some (.csrrd d imm))
  | 0x51 => chk dz (some (.csrwr imm a))
  | 0x52 => s3 .vdqry
  | 0x53 => chk az (some (.lix d imm))
  | 0x54 => chk (az && bz && fn == 0) (some (.frameq d))
  | _ => .error .opcode
/-- The scalar slots (05 Table 05-3, Table 05-10). -/
def decodeScalar (w : Nat) : Dec := decodeScalarAt (bitsAt w 25 7) w

/-- The operation with opcode `op` in the control slot (05 Table 05-4, 06 Table 06-12). -/
def decodeControlAt (op w : Nat) : Dec :=
  let a : SReg := .ofNat 6 (w / 2 ^ 20)
  let b : SReg := .ofNat 6 (w / 2 ^ 14)
  let off : BitVec 20 := .ofNat 20 w
  let imm : BitVec 14 := .ofNat 14 w
  let az := bitsAt w 20 6 == 0
  let bz := bitsAt w 14 6 == 0
  let hz := bitsAt w 24 2 == 0
  let h : Reg16 := .ofNat 4 (w / 2 ^ 20)
  let c0 (i : Instr) : Dec := chk (w % 2 ^ 26 == 0) (some i)
  match op with
  | 0x00 => c0 .nop
  | 0x01 => chk az (some (.br off))
  | 0x02 => .ok (.brz a off)
  | 0x03 => .ok (.brnz a off)
  | 0x04 => chk bz (some (.jmp a imm))
  | 0x05 => chk az (some (.call off))
  | 0x06 => chk bz (some (.callr a imm))
  | 0x07 => c0 .ret
  | 0x08 => chk true (some (.loop a off))
  | 0x09 => chk true (some (.loopi (.ofNat 12 (w / 2 ^ 14)) imm))
  | 0x0A => chk (bz && bitsAt w 1 13 == 0) (some (.lbreak a (bitAt w 0)))
  | 0x0B => chk (bitsAt w 0 18 == 0) (some (.disarm (.ofNat 8 (w / 2 ^ 18))))
  | 0x0C => c0 .commit
  | 0x0D => chk hz (some (.waitlt h b imm))
  | 0x0E => chk (bitsAt w 0 12 == 0) (some (.waittk (.ofNat 6 (w / 2 ^ 12)) (.ofNat 8 (w / 2 ^ 18))))
  | 0x0F => c0 .bar
  | 0x10 => c0 .sstep
  | 0x11 => c0 .yield
  | 0x12 => c0 .exit
  | 0x13 => chk hz (some (.signal h b imm))
  | 0x14 => chk (hz && bitsAt w 8 6 == 0) (some (.launch h b (.ofNat 6 w) (.ofNat 2 (w / 2 ^ 6))))
  | 0x15 => chk bz (some (.trap a imm))
  | 0x16 => c0 .ebreak
  | 0x17 => c0 .eret
  | 0x18 => chk (az && bz && bitsAt w 8 6 == 0) (some (.flagwt (.ofNat 8 w)))
  | 0x19 => c0 .wfe
  | 0x1A => c0 .hinvall
  | _ => .error .opcode
/-- The control slot (05 Table 05-4, 06 Table 06-12). -/
def decodeControl (w : Nat) : Dec := decodeControlAt (bitsAt w 26 6) w

/-- The operation with opcode `op` in the vector slots (05 R108, Table 05-12, 08 Table 08-2). -/
def decodeVectorAt (op w : Nat) : Dec :=
  let vd : VRegN := .ofNat 5 (w / 2 ^ 35)
  let va : VRegN := .ofNat 5 (w / 2 ^ 30)
  let vb : VRegN := .ofNat 5 (w / 2 ^ 25)
  let vc : VRegN := .ofNat 5 (w / 2 ^ 20)
  let p : PReg := .ofNat 3 (w / 2 ^ 17)
  let ty := ElemType.ofCode (bitsAt w 12 5)
  let s := bitAt w 0
  let n : SReg := .ofNat 6 (w / 2 ^ 6)
  let idx : BitVec 10 := .ofNat 10 (bitsAt w 20 5 * 2 ^ 5 + bitsAt w 25 5)
  let zd := bitsAt w 35 5 == 0
  let za := bitsAt w 30 5 == 0
  let zb := bitsAt w 25 5 == 0
  let zc := bitsAt w 20 5 == 0
  let zp := bitsAt w 17 3 == 0
  let zt := bitsAt w 12 5 == 0
  let f1 := bitsAt w 1 11 == 0
  let f5 := bitsAt w 1 5 == 0
  let src := ElemType.ofCode (bitsAt w 1 5)
  let ts (f : ElemType → ElemType → Option Instr) : Option Instr := ty.bind fun t => src.bind (f t)
  let v3 (f : ElemType → VRegN → VRegN → VRegN → PReg → Bool → Instr) : Dec :=
    chk (zc && f1) (ty.map (f · vd va vb p s))
  let v4 (f : ElemType → VRegN → VRegN → VRegN → VRegN → PReg → Bool → Instr) : Dec :=
    chk f1 (ty.map (f · vd va vb vc p s))
  let v2 (f : ElemType → VRegN → VRegN → PReg → Bool → Instr) : Dec :=
    chk (zb && zc && f1) (ty.map (f · vd va p s))
  let half (f : ElemType → VRegN → VRegN → VRegN → Bool → PReg → Bool → Instr) : Dec :=
    chk (zc && bitsAt w 2 10 == 0) (ty.map (f · vd va vb (bitAt w 1) p s))
  let pd : PReg := .ofNat 3 (w / 2 ^ 35)
  let pa : PReg := .ofNat 3 (w / 2 ^ 30)
  let pb : PReg := .ofNat 3 (w / 2 ^ 25)
  let pzd := bitsAt w 38 2 == 0
  let pza := bitsAt w 33 2 == 0
  let pzb := bitsAt w 28 2 == 0
  let p3 (f : PReg → PReg → PReg → Bool → Instr) : Dec :=
    chk (pzd && pza && pzb && zc && zp && zt && f1) (some (f pd pa pb s))
  match op with
  | 0x00 => v3 .vadd
  | 0x01 => v3 .vsub
  | 0x02 => v3 .vmul
  | 0x03 => v4 .vfma
  | 0x04 => v4 .vfms
  | 0x05 => v4 .vfnma
  | 0x06 => v3 .vmin
  | 0x07 => v3 .vmax
  | 0x08 => v2 .vabs
  | 0x09 => v2 .vneg
  | 0x0A => v3 .vand
  | 0x0B => v3 .vor
  | 0x0C => v3 .vxor
  | 0x0D => v3 .vandn
  | 0x0E => v3 .vshl
  | 0x0F => v3 .vshr
  | 0x10 => v3 .vsar
  | 0x11 => v3 .vmulh
  | 0x12 => v3 .vavg
  | 0x13 => v2 .vclz
  | 0x14 => v2 .vpopc
  | 0x18 => chk (pzd && zc && bitsAt w 4 8 == 0)
      (ty.bind fun t => (Rel.ofCode (bitsAt w 1 3)).map (.vcmp t · pd va vb p s))
  | 0x19 => v3 .vsel
  | 0x1A => v2 .vmov
  | 0x1B => chk (za && zb && zc && f5) (ty.map (.vbcast · vd n p s))
  | 0x1C => chk (zd && zp && f5) (ty.map (.vext · n va idx s))
  | 0x1D => chk (za && zp && f5) (ty.map (.vins · vd n idx s))
  | 0x1E => chk (za && zb && zc && f1) (ty.map (.viota · vd p s))
  | 0x20 => v3 .vperm
  | 0x21 => chk (zb && zc && f5) (ty.map (.vrot · vd va n p s))
  | 0x22 => chk (zc && bitsAt w 2 4 == 0) (ty.map (.vslide · vd va vb n (bitAt w 1) p s))
  | 0x23 => half .vzip
  | 0x24 => half .vunzip
  | 0x25 => v2 .vredadd
  | 0x26 => v2 .vredmax
  | 0x27 => v2 .vredmin
  | 0x28 => v2 .vscan
  | 0x29 => v4 .vdot4
  | 0x2C => chk (zb && zc && bitsAt w 10 2 == 0)
      (ts fun t u => some (.vcvt t u vd va (.ofNat 4 (w / 2 ^ 6)) p s))
  | 0x2D => chk (zc && bitsAt w 6 6 == 0) (ts fun t u => some (.vpack t u vd va vb p s))
  | 0x2E => chk (zb && zc && bitsAt w 7 5 == 0) (ts fun t u => some (.vunpack t u vd va (bitAt w 6) p s))
  | 0x2F => chk zc (ts fun t u =>
      (Blk.ofCode (bitsAt w 10 2)).map (.vscale t u vd va vb (.ofNat 4 (w / 2 ^ 6)) · p s))
  | 0x30 => chk (zb && f1) (ty.map (.vabsmax · vd va vc p s))
  | 0x34 => p3 .pand
  | 0x35 => p3 .por
  | 0x36 => p3 .pxor
  | 0x37 => chk (pzd && pza && zb && zc && zp && zt && f1) (some (.pnot pd pa s))
  | 0x38 => chk (pzd && za && zp && f1) (ty.map (.pset · pd idx s))
  | 0x39 => chk (zd && pza && zb && zc && zp && f5) (ty.map (.pcount · n pa s))
  | 0x3A => chk (zd && pza && zb && zc && zp && f5) (ty.map (.pfirst · n pa s))
  | _ => .error .opcode
/-- The vector slots (05 R108, Table 05-12, 08 Table 08-2). -/
def decodeVector (w : Nat) : Dec := decodeVectorAt (bitsAt w 40 8) w

/-- The operation with opcode `op` in the special-function slot (05 R109, Table 05-13, 08 R234). -/
def decodeSpecialAt (op w : Nat) : Dec :=
  let s := bitAt w 26
  let vd : VRegN := .ofNat 5 (w / 2 ^ 21)
  let va : VRegN := .ofNat 5 (w / 2 ^ 16)
  let vb : VRegN := .ofNat 5 (w / 2 ^ 11)
  let p : PReg := .ofNat 3 (w / 2 ^ 8)
  let ty := ElemType.ofCode (bitsAt w 3 5)
  let z := bitsAt w 0 3 == 0
  let zb := bitsAt w 11 5 == 0
  let u (f : ElemType → VRegN → VRegN → PReg → Bool → Instr) : Dec := chk (z && zb) (ty.map (f · vd va p s))
  let b (f : ElemType → VRegN → VRegN → VRegN → PReg → Bool → Instr) : Dec :=
    chk z (ty.map (f · vd va vb p s))
  match op with
  | 0x00 => u .frcp
  | 0x01 => u .frsq
  | 0x02 => b .frcps
  | 0x03 => b .frsqs
  | 0x04 => u .fsqrt
  | 0x05 => b .fdiv
  | 0x06 => u .fexp2
  | 0x07 => u .flog2
  | 0x08 => u .fsin
  | 0x09 => u .fcos
  | 0x0A => u .ftanh
  | 0x0B => u .fsigm
  | 0x0C => u .fgelu
  | 0x0D => u .fclassv
  | _ => .error .opcode
/-- The special-function slot (05 R109, Table 05-13, 08 R234). -/
def decodeSpecial (w : Nat) : Dec := decodeSpecialAt (bitsAt w 27 5) w

/-- The operation with opcode `op` in the memory slots (05 Table 05-5, Table 05-14, 09 R248, R262 to R266, 12 Table 12-1). -/
def decodeMemoryAt (op w : Nat) : Dec :=
  let t : BitVec 6 := .ofNat 6 (w / 2 ^ 35)
  let vt : VRegN := .ofNat 5 (w / 2 ^ 35)
  let t5 := bitAt w 40
  let zt := bitsAt w 35 6 == 0
  -- M1
  let a1 : SReg := .ofNat 6 (w / 2 ^ 29)
  let p1 : PReg := .ofNat 3 (w / 2 ^ 26)
  let s1 := bitAt w 25
  let st1 : BitVec 7 := .ofNat 7 (w / 2 ^ 18)
  let imm : BitVec 18 := .ofNat 18 w
  -- M2 to M4
  let h : Reg16 := .ofNat 4 (w / 2 ^ 31)
  let zh := bitsAt w 31 4 == 0
  let a : SReg := .ofNat 6 (w / 2 ^ 25)
  let av : VRegN := .ofNat 5 (w / 2 ^ 25)
  let za := bitsAt w 25 6 == 0
  let p : PReg := .ofNat 3 (w / 2 ^ 22)
  let s := bitAt w 21
  let st : BitVec 5 := .ofNat 5 (w / 2 ^ 16)
  let land : BitVec 12 := .ofNat 12 (w / 2 ^ 4)
  let zl := bitsAt w 4 12 == 0
  let off : BitVec 4 := .ofNat 4 w
  let e : BitVec 2 := .ofNat 2 (w / 2 ^ 2)
  let ze := bitsAt w 0 2 == 0
  let zf := bitsAt w 0 25 == 0
  let b : SReg := .ofNat 6 (w / 2 ^ 19)
  let os := bitsAt w 14 5
  let v := bitAt w 13
  let wd := bitAt w 12
  let l4 : BitVec 12 := .ofNat 12 w
  let amo (f : Bool → Bool → Ord → Scope → BitVec 6 → Reg16 → BitVec 6 → BitVec 6 → BitVec 12 → Instr) : Dec :=
    match Ord.ofCode (os / 5), Scope.ofCode (os % 5) with
    | some o, some sc =>
      if m4Fields wd v a b && l4 != 0 then
        (if v && t5 then .error .vectorBit else chk true (some (f wd v o sc t h a b l4)))
      else .error .reserved
    | _, _ => .error .reserved
  let red (f : Bool → Bool → Ord → Scope → Reg16 → BitVec 6 → BitVec 6 → Instr) : Dec :=
    match Ord.ofCode (os / 5), Scope.ofCode (os % 5) with
    | some o, some sc => chk (zt && bitsAt w 0 12 == 0) (some (f wd v o sc h a b))
    | _, _ => .error .reserved
  match op with
  | 0x00 => chk true (some (.ld p1 t a1 imm s1 st1))
  | 0x01 => chk true (some (.st p1 t a1 imm s1 st1))
  | 0x02 => chkV true (some (.vld vt a1 p1 imm s1 st1)) t5
  | 0x03 => chkV true (some (.vst vt a1 p1 imm s1 st1)) t5
  | 0x04 => chkV true (some (.vldw vt a1 p1 imm s1 st1)) t5
  | 0x05 => chkV true (some (.vstw vt a1 p1 imm s1 st1)) t5
  | 0x08 => chk (zt && zf) (some (.xlt h a))
  | 0x09 => chk (zt && za && zf) (some (.hinv h))
  | 0x0A => chk (za && zf) (some (.hqry t h))
  | 0x10 => chk true (some (.ldl p t h a off land s st))
  | 0x11 => chkV true (some (.vldl vt h a p off land s st)) t5
  | 0x12 => chkV ze (some (.vldlx e vt h a p land s st)) t5
  | 0x13 => chkV (bitsAt w 30 1 == 0) (some (.vgath vt h av p off land s st)) t5
  | 0x14 => chk zl (some (.sth p t h a off s st))
  | 0x15 => chkV zl (some (.vsth vt h a p off s st)) t5
  | 0x16 => chkV (zl && ze) (some (.vsthx e vt h a p s st)) t5
  | 0x17 => chkV (zl && bitsAt w 30 1 == 0) (some (.vscat vt h av p off s st)) t5
  | 0x18 => chkV (bitsAt w 32 3 == 0) (some (.vlda (bitAt w 31) vt a p off land s st)) t5
  | 0x19 => chkV (bitsAt w 32 3 == 0) (some (.vsta (bitAt w 31) vt a p off land s st)) t5
  | 0x1C => chk (zt && bitsAt w 4 21 == 0) (some (.pld h a off))
  | 0x1D => chk (zt && zh && za && zf) (some .drain)
  | 0x1E => chk (zt && zh && za && bitsAt w 7 18 == 0)
      ((Scope.ofCode (bitsAt w 4 3)).map (.fence · (bitAt w 3) (bitAt w 2) (bitAt w 1) (bitAt w 0)))
  | 0x20 => amo .amoadd
  | 0x21 => amo .amomin
  | 0x22 => amo .amomax
  | 0x23 => amo .amoand
  | 0x24 => amo .amoor
  | 0x25 => amo .amoxor
  | 0x26 => amo .amoswp
  | 0x27 => amo .amocas
  | 0x28 => amo .amofadd
  | 0x2C => red .redadd
  | 0x2D => red .redmin
  | 0x2E => red .redmax
  | 0x2F => red .redfadd
  | _ => .error .opcode
/-- The memory slots (05 Table 05-5, Table 05-14, 09 R248, R262 to R266, 12 Table 12-1). -/
def decodeMemory (w : Nat) : Dec := decodeMemoryAt (bitsAt w 41 7) w

/-- The operation with opcode `op` in the matrix slot (05 Table 05-6, 11 Table 11-10). -/
def decodeMatrixAt (op w : Nat) : Dec :=
  let f : BitVec 6 := .ofNat 6 (w / 2 ^ 21)
  let tk : Tok := { pt := .ofNat 6 (w / 2 ^ 15), cb := .ofNat 6 (w / 2 ^ 9), cm := .ofNat 3 (w / 2 ^ 6) }
  let z := bitsAt w 27 1 == 0 && bitsAt w 0 6 == 0
  match op with
  | 0 => .ok (.mcall f tk (bitAt w 27) (.ofNat 6 w))
  | 1 => chk z (some (.mfmt f tk))
  | 2 => chk z (some (.mchk f tk))
  | 3 => chk z (some (.mclr f tk))
  | 4 => chk z (some (.mldstore f tk))
  | _ => .error .opcode
/-- The matrix slot (05 Table 05-6, 11 Table 11-10). -/
def decodeMatrix (w : Nat) : Dec := decodeMatrixAt (bitsAt w 28 4) w

/-- The operation with opcode `op` in the copy slot (05 Table 05-6, 10 Table 10-1). -/
def decodeCopyAt (op w : Nat) : Dec :=
  let tk : Tok := { pt := .ofNat 6 (w / 2 ^ 51), cb := .ofNat 6 (w / 2 ^ 45), cm := .ofNat 3 (w / 2 ^ 42) }
  let s := bitAt w 57
  let zs := bitsAt w 57 1 == 0
  let v : VRegN := .ofNat 5 (w / 2 ^ 37)
  let zv := bitsAt w 37 5 == 0
  let a : SReg := .ofNat 6 (w / 2 ^ 31)
  let za := bitsAt w 31 6 == 0
  let b : SReg := .ofNat 6 (w / 2 ^ 25)
  let zb := bitsAt w 25 6 == 0
  let k : Reg16 := .ofNat 4 (w / 2 ^ 21)
  let zk := bitsAt w 21 4 == 0
  let st : BitVec 21 := .ofNat 21 w
  let z := zs && bitsAt w 0 21 == 0
  match op with
  | 0 => .ok (.cpy tk v a b k s st)
  | 1 => .ok (.cpysig tk v a b k s st)
  | 2 => .ok (.cpeer tk v a b k s st)
  | 3 => chk (z && zv && zk) (some (.bankcfg tk a b))
  | 4 => chk (z && zv && zb) (some (.strmbind tk a k))
  | 5 => chk (z && zv && zk) (some (.strmrel tk a b))
  | 6 => chk (z && zv && zk) (some (.pgload tk a b))
  | 7 => chk (z && zv && za && zk) (some (.pgrun tk b))
  | 8 => chk (z && zv && za && zk) (some (.pgstop tk b))
  | 9 => chk (z && zb) (some (.psend tk v a k))
  | 10 => chk (z && zv && zb && zk) (some (.pgrant tk a))
  | 11 => chk (z && zv && zk) (some (.cflush tk a b))
  | 12 => chk (z && zv && zk) (some (.cinv tk a b))
  | _ => .error .opcode

/-- The copy slot (05 Table 05-6, 10 Table 10-1). -/
def decodeCopy (w : Nat) : Dec := decodeCopyAt (bitsAt w 58 6) w

def decodeSlot (k : SlotKind) (w : Nat) : Dec :=
  match k with
  | .scalar => decodeScalar w
  | .control => decodeControl w
  | .vector => decodeVector w
  | .special => decodeSpecial w
  | .memory => decodeMemory w
  | .matrix => decodeMatrix w
  | .copy => decodeCopy w

/-! ## Bundles -/

/-- The arming bit of an operation (05 R127). -/
def Instr.armed : Instr → Bool
  | .vadd _ _ _ _ _ s | .vsub _ _ _ _ _ s | .vmul _ _ _ _ _ s | .vfma _ _ _ _ _ _ s | .vfms _ _ _ _ _ _ s
  | .vfnma _ _ _ _ _ _ s | .vmin _ _ _ _ _ s | .vmax _ _ _ _ _ s | .vabs _ _ _ _ s | .vneg _ _ _ _ s
  | .vand _ _ _ _ _ s | .vor _ _ _ _ _ s | .vxor _ _ _ _ _ s | .vandn _ _ _ _ _ s | .vshl _ _ _ _ _ s
  | .vshr _ _ _ _ _ s | .vsar _ _ _ _ _ s | .vmulh _ _ _ _ _ s | .vavg _ _ _ _ _ s | .vclz _ _ _ _ s
  | .vpopc _ _ _ _ s | .vcmp _ _ _ _ _ _ s | .vsel _ _ _ _ _ s | .vmov _ _ _ _ s | .vbcast _ _ _ _ s
  | .vext _ _ _ _ s | .vins _ _ _ _ s | .viota _ _ _ s | .vperm _ _ _ _ _ s | .vrot _ _ _ _ _ s
  | .vslide _ _ _ _ _ _ _ s | .vzip _ _ _ _ _ _ s | .vunzip _ _ _ _ _ _ s | .vredadd _ _ _ _ s
  | .vredmax _ _ _ _ s | .vredmin _ _ _ _ s | .vscan _ _ _ _ s | .vdot4 _ _ _ _ _ _ s
  | .vcvt _ _ _ _ _ _ s | .vpack _ _ _ _ _ _ s | .vunpack _ _ _ _ _ _ s | .vscale _ _ _ _ _ _ _ _ s
  | .vabsmax _ _ _ _ _ s | .pand _ _ _ s | .por _ _ _ s | .pxor _ _ _ s | .pnot _ _ s | .pset _ _ _ s
  | .pcount _ _ _ s | .pfirst _ _ _ s
  | .frcp _ _ _ _ s | .frsq _ _ _ _ s | .frcps _ _ _ _ _ s | .frsqs _ _ _ _ _ s | .fsqrt _ _ _ _ s
  | .fdiv _ _ _ _ _ s | .fexp2 _ _ _ _ s | .flog2 _ _ _ _ s | .fsin _ _ _ _ s | .fcos _ _ _ _ s
  | .ftanh _ _ _ _ s | .fsigm _ _ _ _ s | .fgelu _ _ _ _ s | .fclassv _ _ _ _ s
  | .ld _ _ _ _ s _ | .st _ _ _ _ s _ | .vld _ _ _ _ s _ | .vst _ _ _ _ s _ | .vldw _ _ _ _ s _
  | .vstw _ _ _ _ s _ | .ldl _ _ _ _ _ _ s _ | .vldl _ _ _ _ _ _ s _ | .vldlx _ _ _ _ _ _ s _
  | .vgath _ _ _ _ _ _ s _ | .sth _ _ _ _ _ s _ | .vsth _ _ _ _ _ s _ | .vsthx _ _ _ _ _ s _
  | .vscat _ _ _ _ _ s _ | .vlda _ _ _ _ _ _ s _ | .vsta _ _ _ _ _ _ s _
  | .mcall _ _ s _ | .cpy _ _ _ _ _ s _ | .cpysig _ _ _ _ _ s _ | .cpeer _ _ _ _ _ s _ => s
  | _ => false

/-- The converting operations of 05 Table 05-9d. -/
def Instr.converting : Instr → Bool
  | .fadd .. | .fsub .. | .fmul .. | .ffma .. | .fcvt .. => true
  | .vadd t .. | .vsub t .. | .vmul t .. | .vfma t .. | .vfms t .. | .vfnma t .. | .vavg t .. | .vdot4 t ..
  | .vredadd t .. | .vscan t .. => t.isFloat
  | .vcvt .. | .vpack .. | .vscale .. => true
  | .frcp .. | .frsq .. | .frcps .. | .frsqs .. | .fsqrt .. | .fdiv .. | .fexp2 .. | .flog2 .. | .fsin ..
  | .fcos .. | .ftanh .. | .fsigm .. | .fgelu .. => true
  | .vlda .. | .vsta .. => true
  | _ => false

/-- A decoded bundle (05 R101, R102): length in halfwords, REP, flags, operations in slot order, and the
rounding and saturation of its prefix (05 R132). -/
structure Bundle where
  len : Nat
  rep : Nat
  sync : Bool
  stop : Bool
  join : Bool
  ops : List (Slot × Instr)
  rnd : Rnd
  sm : Sat
  deriving DecidableEq, Repr

def Bundle.op (b : Bundle) (s : Slot) : Option Instr := (b.ops.find? (·.1 == s)).map (·.2)

/-- The number of ones among the low `k` bits of `w`. -/
def onesBelow : Nat → Nat → Nat
  | 0, _ => 0
  | k + 1, w => w % 2 + onesBelow k (w / 2)

/-- LENGTH as 05 R103 computes it. -/
def headerLength (hdr : Nat) : Nat :=
  2 + bitsAt hdr 20 1 + (Slot.all.map fun s => if bitAt hdr (9 + s.index) then s.halfwords else 0).sum

/-- The slot fields of a bundle, slot by slot in slot order: the fields lie in `body` from halfword `pos`. -/
def decodeOps (priv : Bool) (hdr body : Nat) : List Slot → Nat → Except (Reject × Nat) (List (Slot × Instr) × Nat)
  | [], pos => .ok ([], pos)
  | s :: rest, pos =>
    if bitAt hdr (9 + s.index) then
      match decodeSlot s.kind (bitsAt body (16 * pos) (16 * s.halfwords)) with
      | .error e => .error (e, s.index)
      | .ok i =>
        if !priv && (match i with | .mldstore .. => true | _ => false) then .error (.unprivileged, s.index)
        else
          match decodeOps priv hdr body rest (pos + s.halfwords) with
          | .ok (l, q) => .ok ((s, i) :: l, q)
          | .error e => .error e
    else decodeOps priv hdr body rest pos

/-- A prefix item (05 R112): nothing, a rounding mode or a saturation. -/
inductive PfxItem where
  | empty | round (m : Rnd) | sat (m : Sat)
  deriving DecidableEq, Repr
def PfxItem.ofByte (x : Nat) : Option PfxItem :=
  match bitsAt x 5 3 with
  | 0 => if bitsAt x 0 5 = 0 then some .empty else none
  | 1 => (Rnd.ofCode (bitsAt x 0 5)).map .round
  | 2 => (Sat.ofCode (bitsAt x 0 5)).map .sat
  | _ => none

/-- The rounding and saturation of a prefix field, none where R133 calls it misuse of its own bits. -/
def decodePrefix (x : Nat) : Option (Rnd × Sat) :=
  match PfxItem.ofByte (bitsAt x 0 8), PfxItem.ofByte (bitsAt x 8 8) with
  | some (.round m), some (.sat q) => some (m, q)
  | some (.sat q), some (.round m) => some (m, q)
  | some (.round m), some .empty => some (m, .none)
  | some .empty, some (.round m) => some (m, .none)
  | some (.sat q), some .empty => some (.rne, q)
  | some .empty, some (.sat q) => some (.rne, q)
  | _, _ => none

/-- The slots that a DISARM mask names (05 R107). -/
def armSlots : List Slot := [.va, .vb, .vc, .sf, .ma, .mb, .xm, .ce]
def disarmSlots (mask : BitVec 8) : List Slot :=
  (armSlots.zip (List.range 8)).filterMap fun (s, i) => if mask.getLsbD i then some s else none

/-- Orders 10 to 12 of 05 Table 05-8. -/
def bundleChecks (rep : Nat) (ops : List (Slot × Instr)) : Option (Reject × Nat) :=
  match ops.find? (·.1 == .ct) with
  | none => none
  | some (_, ct) =>
    match ct with
    | .commit | .exit =>
      match ops.find? (·.2.armed) with
      | some x => some (.armedAtCommit, x.1.index)
      | none => if rep ≠ 0 then some (.repControl, 15) else none
    | .disarm m =>
      match ops.find? fun x => (disarmSlots m).contains x.1 with
      | some x => some (.disarmOccupied, x.1.index)
      | none => if rep ≠ 0 then some (.repControl, 15) else none
    | .nop => none
    | _ => if rep ≠ 0 then some (.repControl, 15) else none

/-- Orders 2 to 12 of 05 Table 05-8 on a header and the fields that follow it. -/
def decodeBundle (priv : Bool) (hdr body : Nat) : Except (Reject × Nat) Bundle :=
  if onesBelow 32 hdr % 2 ≠ 0 then .error (.parity, 15)
  else if bitsAt hdr 28 3 ≠ 0 then .error (.headerReserved, 15)
  else if bitsAt hdr 0 9 ≠ headerLength hdr then .error (.length, 15)
  else
    match decodeOps priv hdr body Slot.all 0 with
    | .error e => .error e
    | .ok (ops, pos) =>
      let pfx : Option (Rnd × Sat) :=
        if bitAt hdr 20 then
          (if ops.any (·.2.converting) then decodePrefix (bitsAt body (16 * pos) 16) else none)
        else some (.rne, .none)
      match pfx with
      | none => .error (.prefixMisuse, 11)
      | some (m, q) =>
        match bundleChecks (bitsAt hdr 23 4) ops with
        | some e => .error e
        | none =>
          .ok { len := bitsAt hdr 0 9, rep := bitsAt hdr 23 4, sync := bitAt hdr 22, stop := bitAt hdr 21,
                join := bitAt hdr 27, ops := ops, rnd := m, sm := q }

/-! ## Encoding -/

def b2n (b : Bool) : Nat := if b then 1 else 0

/-- S3, SI, SW and SK (05 Table 05-3). -/
def encS3 (op d a b fn : Nat) : Nat := op * 2 ^ 25 + d * 2 ^ 19 + a * 2 ^ 13 + b * 2 ^ 7 + fn
def encSI (op d a imm : Nat) : Nat := op * 2 ^ 25 + d * 2 ^ 19 + a * 2 ^ 13 + imm
/-- The scalar slots. -/
def encodeScalar (i : Instr) : Option Nat :=
  let r3 (op : Nat) (d a b : SReg) : Option Nat := some (encS3 op d.toNat a.toNat b.toNat 0)
  let r2 (op : Nat) (d a : SReg) : Option Nat := some (encS3 op d.toNat a.toNat 0 0)
  let ri (op : Nat) (d a : SReg) (imm : Nat) : Option Nat := some (encSI op d.toNat a.toNat imm)
  let fp (op : Nat) (w : Width) (d a b : SReg) : Option Nat := some (encS3 op d.toNat a.toNat b.toNat w.code)
  match i with
  | .add d a b => r3 0x00 d a b
  | .sub d a b => r3 0x01 d a b
  | .and d a b => r3 0x02 d a b
  | .or d a b => r3 0x03 d a b
  | .xor d a b => r3 0x04 d a b
  | .andn d a b => r3 0x05 d a b
  | .shl d a b => r3 0x06 d a b
  | .shr d a b => r3 0x07 d a b
  | .sar d a b => r3 0x08 d a b
  | .rol d a b => r3 0x09 d a b
  | .min d a b => r3 0x0A d a b
  | .max d a b => r3 0x0B d a b
  | .minn d a b => r3 0x0C d a b
  | .maxn d a b => r3 0x0D d a b
  | .mul d a b => r3 0x0E d a b
  | .mulh d a b => r3 0x0F d a b
  | .mulhn d a b => r3 0x10 d a b
  | .div d a b => r3 0x11 d a b
  | .divn d a b => r3 0x12 d a b
  | .rem d a b => r3 0x13 d a b
  | .remn d a b => r3 0x14 d a b
  | .cmpeq d a b => r3 0x15 d a b
  | .cmpne d a b => r3 0x16 d a b
  | .cmplt d a b => r3 0x17 d a b
  | .cmple d a b => r3 0x18 d a b
  | .cmpltn d a b => r3 0x19 d a b
  | .cmplen d a b => r3 0x1A d a b
  | .sel d a b c => some (encS3 0x1B d.toNat a.toNat b.toNat c.toNat)
  | .clz d a => r2 0x1C d a
  | .ctz d a => r2 0x1D d a
  | .popc d a => r2 0x1E d a
  | .brev d a => r2 0x1F d a
  | .bswap d a => r2 0x20 d a
  | .extb d a b sx => some (encS3 0x21 d.toNat a.toNat b.toNat (b2n sx))
  | .insb d a b => r3 0x22 d a b
  | .addsh d a b sh => some (encS3 0x23 d.toNat a.toNat b.toNat sh.toNat)
  | .addi d a imm => ri 0x28 d a imm.toNat
  | .andi d a imm => ri 0x29 d a imm.toNat
  | .ori d a imm => ri 0x2A d a imm.toNat
  | .xori d a imm => ri 0x2B d a imm.toNat
  | .shli d a n => ri 0x2C d a n.toNat
  | .shri d a n => ri 0x2D d a n.toNat
  | .sari d a n => ri 0x2E d a n.toNat
  | .cmpeqi d a imm => ri 0x2F d a imm.toNat
  | .cmplti d a imm => ri 0x30 d a imm.toNat
  | .movw d imm => some (0x31 * 2 ^ 25 + d.toNat * 2 ^ 19 + imm.toNat)
  | .movk d pos imm => some (0x33 * 2 ^ 25 + d.toNat * 2 ^ 19 + pos.toNat * 2 ^ 17 + imm.toNat)
  | .fadd w d a b => fp 0x38 w d a b
  | .fsub w d a b => fp 0x39 w d a b
  | .fmul w d a b => fp 0x3A w d a b
  | .ffma w d a b => fp 0x3B w d a b
  | .fmin w d a b => fp 0x3C w d a b
  | .fmax w d a b => fp 0x3D w d a b
  | .fcmp w cc d a b => some (encS3 0x3E d.toNat a.toNat b.toNat (cc.code * 2 + w.code))
  | .fcvt t u d a => some (encS3 0x3F d.toNat a.toNat 0 (t.code * 8 + u.code))
  | .fclass w d a => some (encS3 0x40 d.toNat a.toNat 0 w.code)
  | .ptos d a c => some (encS3 0x44 d.toNat a.toNat 0 c.toNat)
  | .mpset d a => some (encS3 0x48 d.toNat a.toNat 0 0)
  | .mpget d a => some (encS3 0x49 d.toNat a.toNat 0 0)
  | .cntset d a => some (encS3 0x4C d.toNat a.toNat 0 0)
  | .cntadd d a => some (encS3 0x4D d.toNat a.toNat 0 0)
  | .cntrd d a => some (encS3 0x4E d.toNat a.toNat 0 0)
  | .csrrd d c => some (encSI 0x50 d.toNat 0 c.toNat)
  | .csrwr c a => some (encSI 0x51 0 a.toNat c.toNat)
  | .vdqry d a b => r3 0x52 d a b
  | .lix d n => some (encSI 0x53 d.toNat 0 n.toNat)
  | .frameq d => some (encS3 0x54 d.toNat 0 0 0)
  | _ => none

/-- The control slot (05 Table 05-4). -/
def encodeControl (i : Instr) : Option Nat :=
  let c (op a b imm : Nat) : Option Nat := some (op * 2 ^ 26 + a * 2 ^ 20 + b * 2 ^ 14 + imm)
  match i with
  | .nop => c 0x00 0 0 0
  | .br off => c 0x01 0 0 off.toNat
  | .brz a off => c 0x02 a.toNat 0 off.toNat
  | .brnz a off => c 0x03 a.toNat 0 off.toNat
  | .jmp a imm => c 0x04 a.toNat 0 imm.toNat
  | .call off => c 0x05 0 0 off.toNat
  | .callr a imm => c 0x06 a.toNat 0 imm.toNat
  | .ret => c 0x07 0 0 0
  | .loop a l => c 0x08 a.toNat 0 l.toNat
  | .loopi n l => some (0x09 * 2 ^ 26 + n.toNat * 2 ^ 14 + l.toNat)
  | .lbreak a z => c 0x0A a.toNat 0 (b2n z)
  | .disarm m => some (0x0B * 2 ^ 26 + m.toNat * 2 ^ 18)
  | .commit => c 0x0C 0 0 0
  | .waitlt k b imm => c 0x0D k.toNat b.toNat imm.toNat
  | .waittk t m => some (0x0E * 2 ^ 26 + m.toNat * 2 ^ 18 + t.toNat * 2 ^ 12)
  | .bar => c 0x0F 0 0 0
  | .sstep => c 0x10 0 0 0
  | .yield => c 0x11 0 0 0
  | .exit => c 0x12 0 0 0
  | .signal h b d => c 0x13 h.toNat b.toNat d.toNat
  | .launch h b q vd => c 0x14 h.toNat b.toNat (vd.toNat * 2 ^ 6 + q.toNat)
  | .trap a n => c 0x15 a.toNat 0 n.toNat
  | .ebreak => c 0x16 0 0 0
  | .eret => c 0x17 0 0 0
  | .flagwt m => c 0x18 0 0 m.toNat
  | .wfe => c 0x19 0 0 0
  | .hinvall => c 0x1A 0 0 0
  | _ => none

/-- V3 and VS (05 R108). -/
def encV3 (op vd va vb vc p t fn : Nat) : Nat :=
  op * 2 ^ 40 + vd * 2 ^ 35 + va * 2 ^ 30 + vb * 2 ^ 25 + vc * 2 ^ 20 + p * 2 ^ 17 + t * 2 ^ 12 + fn
/-- The vector slots. -/
def encodeVector (i : Instr) : Option Nat :=
  let v4 (op : Nat) (t : ElemType) (vd va vb vc : VRegN) (p : PReg) (fn : Nat) (s : Bool) : Option Nat :=
    some (encV3 op vd.toNat va.toNat vb.toNat vc.toNat p.toNat t.code (fn * 2 + b2n s))
  let v3 (op : Nat) (t : ElemType) (vd va vb : VRegN) (p : PReg) (s : Bool) : Option Nat :=
    v4 op t vd va vb 0 p 0 s
  let v2 (op : Nat) (t : ElemType) (vd va : VRegN) (p : PReg) (s : Bool) : Option Nat :=
    v4 op t vd va 0 0 p 0 s
  let pp (op : Nat) (d a b : PReg) (s : Bool) : Option Nat :=
    some (encV3 op d.toNat a.toNat b.toNat 0 0 0 (b2n s))
  match i with
  | .vadd t d a b p s => v3 0x00 t d a b p s
  | .vsub t d a b p s => v3 0x01 t d a b p s
  | .vmul t d a b p s => v3 0x02 t d a b p s
  | .vfma t d a b c p s => v4 0x03 t d a b c p 0 s
  | .vfms t d a b c p s => v4 0x04 t d a b c p 0 s
  | .vfnma t d a b c p s => v4 0x05 t d a b c p 0 s
  | .vmin t d a b p s => v3 0x06 t d a b p s
  | .vmax t d a b p s => v3 0x07 t d a b p s
  | .vabs t d a p s => v2 0x08 t d a p s
  | .vneg t d a p s => v2 0x09 t d a p s
  | .vand t d a b p s => v3 0x0A t d a b p s
  | .vor t d a b p s => v3 0x0B t d a b p s
  | .vxor t d a b p s => v3 0x0C t d a b p s
  | .vandn t d a b p s => v3 0x0D t d a b p s
  | .vshl t d a b p s => v3 0x0E t d a b p s
  | .vshr t d a b p s => v3 0x0F t d a b p s
  | .vsar t d a b p s => v3 0x10 t d a b p s
  | .vmulh t d a b p s => v3 0x11 t d a b p s
  | .vavg t d a b p s => v3 0x12 t d a b p s
  | .vclz t d a p s => v2 0x13 t d a p s
  | .vpopc t d a p s => v2 0x14 t d a p s
  | .vcmp t cc d a b p s =>
    some (encV3 0x18 d.toNat a.toNat b.toNat 0 p.toNat t.code (cc.code * 2 + b2n s))
  | .vsel t d a b p s => v3 0x19 t d a b p s
  | .vmov t d a p s => v2 0x1A t d a p s
  | .vbcast t d n p s => some (encV3 0x1B d.toNat 0 0 0 p.toNat t.code (n.toNat * 64 + b2n s))
  | .vext t n a idx s =>
    some (encV3 0x1C 0 a.toNat (idx.toNat % 32) (idx.toNat / 32) 0 t.code (n.toNat * 64 + b2n s))
  | .vins t d n idx s =>
    some (encV3 0x1D d.toNat 0 (idx.toNat % 32) (idx.toNat / 32) 0 t.code (n.toNat * 64 + b2n s))
  | .viota t d p s => v2 0x1E t d 0 p s
  | .vperm t d a b p s => v3 0x20 t d a b p s
  | .vrot t d a n p s => some (encV3 0x21 d.toNat a.toNat 0 0 p.toNat t.code (n.toNat * 64 + b2n s))
  | .vslide t d a b n up p s =>
    some (encV3 0x22 d.toNat a.toNat b.toNat 0 p.toNat t.code (n.toNat * 64 + b2n up * 2 + b2n s))
  | .vzip t d a b hi p s => v4 0x23 t d a b 0 p (b2n hi) s
  | .vunzip t d a b hi p s => v4 0x24 t d a b 0 p (b2n hi) s
  | .vredadd t d a p s => v2 0x25 t d a p s
  | .vredmax t d a p s => v2 0x26 t d a p s
  | .vredmin t d a p s => v2 0x27 t d a p s
  | .vscan t d a p s => v2 0x28 t d a p s
  | .vdot4 t d a b c p s => v4 0x29 t d a b c p 0 s
  | .vcvt t u d a part p s => v4 0x2C t d a 0 0 p (part.toNat * 32 + u.code) s
  | .vpack t u d a b p s => v4 0x2D t d a b 0 p u.code s
  | .vunpack t u d a hi p s => v4 0x2E t d a 0 0 p (b2n hi * 32 + u.code) s
  | .vscale t u d a b part blk p s => v4 0x2F t d a b 0 p (blk.code * 512 + part.toNat * 32 + u.code) s
  | .vabsmax t d a c p s => v4 0x30 t d a 0 c p 0 s
  | .pand d a b s => pp 0x34 d a b s
  | .por d a b s => pp 0x35 d a b s
  | .pxor d a b s => pp 0x36 d a b s
  | .pnot d a s => pp 0x37 d a 0 s
  | .pset t d cnt s => some (encV3 0x38 d.toNat 0 (cnt.toNat % 32) (cnt.toNat / 32) 0 t.code (b2n s))
  | .pcount t n a s => some (encV3 0x39 0 a.toNat 0 0 0 t.code (n.toNat * 64 + b2n s))
  | .pfirst t n a s => some (encV3 0x3A 0 a.toNat 0 0 0 t.code (n.toNat * 64 + b2n s))
  | _ => none

/-- The special-function slot (05 R109). -/
def encodeSpecial (i : Instr) : Option Nat :=
  let b (op : Nat) (t : ElemType) (d x y : VRegN) (p : PReg) (s : Bool) : Option Nat :=
    some (op * 2 ^ 27 + b2n s * 2 ^ 26 + d.toNat * 2 ^ 21 + x.toNat * 2 ^ 16 + y.toNat * 2 ^ 11 +
      p.toNat * 2 ^ 8 + t.code * 2 ^ 3)
  let u (op : Nat) (t : ElemType) (d x : VRegN) (p : PReg) (s : Bool) : Option Nat := b op t d x 0 p s
  match i with
  | .frcp t d a p s => u 0x00 t d a p s
  | .frsq t d a p s => u 0x01 t d a p s
  | .frcps t d a c p s => b 0x02 t d a c p s
  | .frsqs t d a c p s => b 0x03 t d a c p s
  | .fsqrt t d a p s => u 0x04 t d a p s
  | .fdiv t d a c p s => b 0x05 t d a c p s
  | .fexp2 t d a p s => u 0x06 t d a p s
  | .flog2 t d a p s => u 0x07 t d a p s
  | .fsin t d a p s => u 0x08 t d a p s
  | .fcos t d a p s => u 0x09 t d a p s
  | .ftanh t d a p s => u 0x0A t d a p s
  | .fsigm t d a p s => u 0x0B t d a p s
  | .fgelu t d a p s => u 0x0C t d a p s
  | .fclassv t d a p s => u 0x0D t d a p s
  | _ => none

/-- M1 to M4 (05 Table 05-5). -/
def encM1 (op t a p : Nat) (s : Bool) (st imm : Nat) : Nat :=
  op * 2 ^ 41 + t * 2 ^ 35 + a * 2 ^ 29 + p * 2 ^ 26 + b2n s * 2 ^ 25 + st * 2 ^ 18 + imm
def encM2 (op t h a p : Nat) (s : Bool) (st land off : Nat) : Nat :=
  op * 2 ^ 41 + t * 2 ^ 35 + h * 2 ^ 31 + a * 2 ^ 25 + p * 2 ^ 22 + b2n s * 2 ^ 21 + st * 2 ^ 16 +
    land * 2 ^ 4 + off
def encM3 (op t h a fn : Nat) : Nat := op * 2 ^ 41 + t * 2 ^ 35 + h * 2 ^ 31 + a * 2 ^ 25 + fn
def encM4 (op t h a b os : Nat) (v w : Bool) (land : Nat) : Nat :=
  op * 2 ^ 41 + t * 2 ^ 35 + h * 2 ^ 31 + a * 2 ^ 25 + b * 2 ^ 19 + os * 2 ^ 14 + b2n v * 2 ^ 13 +
    b2n w * 2 ^ 12 + land
/-- The memory slots. -/
def encodeMemory (i : Instr) : Option Nat :=
  let amo (op : Nat) (w v : Bool) (o : Ord) (sc : Scope) (t : BitVec 6) (h : Reg16) (a b : BitVec 6)
      (l : BitVec 12) : Option Nat :=
    some (encM4 op t.toNat h.toNat a.toNat b.toNat (5 * o.code + sc.code) v w l.toNat)
  let red (op : Nat) (w v : Bool) (o : Ord) (sc : Scope) (h : Reg16) (a b : BitVec 6) : Option Nat :=
    some (encM4 op 0 h.toNat a.toNat b.toNat (5 * o.code + sc.code) v w 0)
  match i with
  | .ld p t a imm s st => some (encM1 0x00 t.toNat a.toNat p.toNat s st.toNat imm.toNat)
  | .st p t a imm s st => some (encM1 0x01 t.toNat a.toNat p.toNat s st.toNat imm.toNat)
  | .vld t a p imm s st => some (encM1 0x02 t.toNat a.toNat p.toNat s st.toNat imm.toNat)
  | .vst t a p imm s st => some (encM1 0x03 t.toNat a.toNat p.toNat s st.toNat imm.toNat)
  | .vldw t a p imm s st => some (encM1 0x04 t.toNat a.toNat p.toNat s st.toNat imm.toNat)
  | .vstw t a p imm s st => some (encM1 0x05 t.toNat a.toNat p.toNat s st.toNat imm.toNat)
  | .xlt h a => some (encM3 0x08 0 h.toNat a.toNat 0)
  | .hinv h => some (encM3 0x09 0 h.toNat 0 0)
  | .hqry d h => some (encM3 0x0A d.toNat h.toNat 0 0)
  | .ldl p t h a off l s st => some (encM2 0x10 t.toNat h.toNat a.toNat p.toNat s st.toNat l.toNat off.toNat)
  | .vldl t h a p off l s st => some (encM2 0x11 t.toNat h.toNat a.toNat p.toNat s st.toNat l.toNat off.toNat)
  | .vldlx e t h a p l s st =>
    some (encM2 0x12 t.toNat h.toNat a.toNat p.toNat s st.toNat l.toNat (e.toNat * 4))
  | .vgath t h a p off l s st => some (encM2 0x13 t.toNat h.toNat a.toNat p.toNat s st.toNat l.toNat off.toNat)
  | .sth p t h a off s st => some (encM2 0x14 t.toNat h.toNat a.toNat p.toNat s st.toNat 0 off.toNat)
  | .vsth t h a p off s st => some (encM2 0x15 t.toNat h.toNat a.toNat p.toNat s st.toNat 0 off.toNat)
  | .vsthx e t h a p s st => some (encM2 0x16 t.toNat h.toNat a.toNat p.toNat s st.toNat 0 (e.toNat * 4))
  | .vscat t h a p off s st => some (encM2 0x17 t.toNat h.toNat a.toNat p.toNat s st.toNat 0 off.toNat)
  | .vlda c t a p off l s st => some (encM2 0x18 t.toNat (b2n c) a.toNat p.toNat s st.toNat l.toNat off.toNat)
  | .vsta c t a p off l s st => some (encM2 0x19 t.toNat (b2n c) a.toNat p.toNat s st.toNat l.toNat off.toNat)
  | .pld h a off => some (encM2 0x1C 0 h.toNat a.toNat 0 false 0 0 off.toNat)
  | .drain => some (encM3 0x1D 0 0 0 0)
  | .fence sc pr pw sr sw =>
    some (encM3 0x1E 0 0 0 (sc.code * 16 + b2n pr * 8 + b2n pw * 4 + b2n sr * 2 + b2n sw))
  | .amoadd w v o sc t h a b l => amo 0x20 w v o sc t h a b l
  | .amomin w v o sc t h a b l => amo 0x21 w v o sc t h a b l
  | .amomax w v o sc t h a b l => amo 0x22 w v o sc t h a b l
  | .amoand w v o sc t h a b l => amo 0x23 w v o sc t h a b l
  | .amoor w v o sc t h a b l => amo 0x24 w v o sc t h a b l
  | .amoxor w v o sc t h a b l => amo 0x25 w v o sc t h a b l
  | .amoswp w v o sc t h a b l => amo 0x26 w v o sc t h a b l
  | .amocas w v o sc t h a b l => amo 0x27 w v o sc t h a b l
  | .amofadd w v o sc t h a b l => amo 0x28 w v o sc t h a b l
  | .redadd w v o sc h a b => red 0x2C w v o sc h a b
  | .redmin w v o sc h a b => red 0x2D w v o sc h a b
  | .redmax w v o sc h a b => red 0x2E w v o sc h a b
  | .redfadd w v o sc h a b => red 0x2F w v o sc h a b
  | _ => none

/-- The matrix slot (05 Table 05-6). -/
def encX1 (op : Nat) (s : Bool) (f : BitVec 6) (tk : Tok) (st : Nat) : Nat :=
  op * 2 ^ 28 + b2n s * 2 ^ 27 + f.toNat * 2 ^ 21 + tk.pt.toNat * 2 ^ 15 + tk.cb.toNat * 2 ^ 9 +
    tk.cm.toNat * 2 ^ 6 + st
def encodeMatrix : Instr → Option Nat
  | .mcall r tk s st => some (encX1 0 s r tk st.toNat)
  | .mfmt f tk => some (encX1 1 false f tk 0)
  | .mchk f tk => some (encX1 2 false f tk 0)
  | .mclr f tk => some (encX1 3 false f tk 0)
  | .mldstore f tk => some (encX1 4 false f tk 0)
  | _ => none

/-- The copy slot (05 Table 05-6). -/
def encC1 (op : Nat) (s : Bool) (tk : Tok) (v a b k st : Nat) : Nat :=
  op * 2 ^ 58 + b2n s * 2 ^ 57 + tk.pt.toNat * 2 ^ 51 + tk.cb.toNat * 2 ^ 45 + tk.cm.toNat * 2 ^ 42 +
    v * 2 ^ 37 + a * 2 ^ 31 + b * 2 ^ 25 + k * 2 ^ 21 + st
def encodeCopy : Instr → Option Nat
  | .cpy tk v a b k s st => some (encC1 0 s tk v.toNat a.toNat b.toNat k.toNat st.toNat)
  | .cpysig tk v a b k s st => some (encC1 1 s tk v.toNat a.toNat b.toNat k.toNat st.toNat)
  | .cpeer tk v a b k s st => some (encC1 2 s tk v.toNat a.toNat b.toNat k.toNat st.toNat)
  | .bankcfg tk a b => some (encC1 3 false tk 0 a.toNat b.toNat 0 0)
  | .strmbind tk a k => some (encC1 4 false tk 0 a.toNat 0 k.toNat 0)
  | .strmrel tk a b => some (encC1 5 false tk 0 a.toNat b.toNat 0 0)
  | .pgload tk a b => some (encC1 6 false tk 0 a.toNat b.toNat 0 0)
  | .pgrun tk b => some (encC1 7 false tk 0 0 b.toNat 0 0)
  | .pgstop tk b => some (encC1 8 false tk 0 0 b.toNat 0 0)
  | .psend tk v a k => some (encC1 9 false tk v.toNat a.toNat 0 k.toNat 0)
  | .pgrant tk a => some (encC1 10 false tk 0 a.toNat 0 0 0)
  | .cflush tk a b => some (encC1 11 false tk 0 a.toNat b.toNat 0 0)
  | .cinv tk a b => some (encC1 12 false tk 0 a.toNat b.toNat 0 0)
  | _ => none

/-- The slot field of an operation, for a slot of kind `k`; none where the operation has no such slot. -/
def encodeSlot (k : SlotKind) (i : Instr) : Option Nat :=
  match k with
  | .scalar => encodeScalar i
  | .control => encodeControl i
  | .vector => encodeVector i
  | .special => encodeSpecial i
  | .memory => encodeMemory i
  | .matrix => encodeMatrix i
  | .copy => encodeCopy i

/-- The words of an instruction: the kind of its slot and the slot field. None for routines and events. -/
def encode (i : Instr) : Option (SlotKind × Nat) :=
  [SlotKind.scalar, .control, .vector, .special, .memory, .matrix, .copy].findSome? fun k =>
    (encodeSlot k i).map (k, ·)

/-- A bundle that holds the field `w` in slot `s` and ends its group, as one number, header lowest. -/
def oneSlotBundle (s : Slot) (w : Nat) : Nat :=
  let hdr := 2 ^ 21 + 2 ^ (9 + s.index) + (2 + s.halfwords)
  hdr + (if onesBelow 31 hdr % 2 = 1 then 2 ^ 31 else 0) + w % 2 ^ (16 * s.halfwords) * 2 ^ 32

/-! ## The table's words -/

/-- Which slot a word of the opcode table stands in (log 3): 32 bits can be a scalar, control,
special-function or matrix field, whose opcodes overlap; the words of format C0 are read as control. -/
def tableSlot (nbits w : Nat) : Option Slot :=
  let is (s : Slot) : Bool := match decodeSlot s.kind w with | .ok _ => true | .error _ => false
  if nbits = 32 then
    if w % 2 ^ 26 = 0 && is .ct then some .ct else [Slot.sa, .ct, .sf, .xm].find? is
  else if nbits = 48 then [Slot.va, .ma].find? is
  else if nbits = 64 then [Slot.ce].find? is
  else none

def decodeTableWord (nbits w : Nat) : Option Instr :=
  (tableSlot nbits w).bind fun s => (decodeSlot s.kind w).toOption

end Sys2Proof
end

