-- ==== Sys2Proof/Machine/Number.lean ====
section
/-! DEFINITION. Number formats, exact values, rounding and conversion (07 R186 to R200). -/

namespace Sys2Proof.Machine

/-- The seven arithmetic flags of FLAGS[6:0] (06 Table 06-4). -/
abbrev Flags := BitVec 7
def fNX : Flags := 1
def fUF : Flags := 2
def fOF : Flags := 4
def fDZ : Flags := 8
def fNV : Flags := 16
def fIDZ : Flags := 32
def fIOV : Flags := 64

/-- `f` when `b`, else no flag. -/
def when (b : Bool) (f : Flags) : Flags := if b then f else 0

/-- A floating-point format: exponent and fraction widths; `inf` is false for E4M3 (07 R188). -/
structure Fmt where
  ebits : Nat
  fbits : Nat
  inf : Bool
  deriving DecidableEq, Repr

def fp64 : Fmt := ⟨11, 52, true⟩
def fp32 : Fmt := ⟨8, 23, true⟩
def fp16 : Fmt := ⟨5, 10, true⟩
def bf16 : Fmt := ⟨8, 7, true⟩
def e4m3 : Fmt := ⟨4, 3, false⟩
def e5m2 : Fmt := ⟨5, 2, true⟩
def a80 : Fmt := ⟨15, 64, true⟩

def Fmt.bits (f : Fmt) : Nat := 1 + f.ebits + f.fbits
def Fmt.prec (f : Fmt) : Nat := f.fbits + 1
def Fmt.bias (f : Fmt) : Nat := 2 ^ (f.ebits - 1) - 1
def Fmt.emin (f : Fmt) : Int := 1 - (f.bias : Int)
def Fmt.emax (f : Fmt) : Int := if f.inf then (f.bias : Int) else (f.bias : Int) + 1
def Fmt.expOnes (f : Fmt) : Nat := 2 ^ f.ebits - 1

/-- An exact value: a NaN with sign, quiet bit and fraction (`frac` of `fb` bits, the quiet bit its top
bit), an infinity, or (-1)^s n/d 2^e. -/
inductive Val where
  | nan (s quiet : Bool) (frac fb : Nat)
  | inf (s : Bool)
  | fin (s : Bool) (n d : Nat) (e : Int)
  deriving DecidableEq, Repr

/-- The default NaN (07 R187): positive, only the quiet bit set. -/
def Val.dflt : Val := .nan false true 1 1
def Val.zero (s : Bool) : Val := .fin s 0 1 0
def Val.ofInt (i : Int) : Val := .fin (i < 0) i.natAbs 1 0
def Val.isNan : Val → Bool | .nan .. => true | _ => false
def Val.isInf : Val → Bool | .inf .. => true | _ => false
def Val.isSnan : Val → Bool | .nan _ q _ _ => !q | _ => false
def Val.isZero : Val → Bool | .fin _ 0 _ _ => true | _ => false
def Val.sign : Val → Bool | .nan s .. => s | .inf s => s | .fin s .. => s
def Val.neg : Val → Val
  | .nan s q f b => .nan s q f b
  | .inf s => .inf (!s)
  | .fin s n d e => .fin (!s) n d e
/-- |x| of a value that is not a NaN. -/
def Val.abs : Val → Val
  | .nan s q f b => .nan s q f b
  | .inf _ => .inf false
  | .fin _ n d e => .fin false n d e

/-- The value that the bits `w` have in format `f` (07 R186 to R188). -/
def decodeVal (f : Fmt) (w : Nat) : Val :=
  let s := w / 2 ^ (f.ebits + f.fbits) % 2 == 1
  let e := w / 2 ^ f.fbits % 2 ^ f.ebits
  let m := w % 2 ^ f.fbits
  if !f.inf && e == f.expOnes && m == 2 ^ f.fbits - 1 then .nan s true m f.fbits
  else if f.inf && e == f.expOnes then
    if m = 0 then .inf s else .nan s (2 ^ (f.fbits - 1) ≤ m) m f.fbits
  else if e = 0 then .fin s m 1 (f.emin - f.fbits)
  else .fin s (2 ^ f.fbits + m) 1 ((e : Int) - f.bias - f.fbits)

def signBit (f : Fmt) (s : Bool) : Nat := if s then 2 ^ (f.ebits + f.fbits) else 0

/-- nan_to (07 R200). -/
def nanBits (f : Fmt) (s : Bool) (frac fb : Nat) : Nat :=
  if !f.inf then signBit f s + (2 ^ (f.ebits + f.fbits) - 1)
  else
    let m := if fb ≤ f.fbits then frac * 2 ^ (f.fbits - fb) else frac / 2 ^ (fb - f.fbits)
    let m := m % 2 ^ f.fbits
    let m := if m < 2 ^ (f.fbits - 1) then m + 2 ^ (f.fbits - 1) else m
    signBit f s + f.expOnes * 2 ^ f.fbits + m

/-- ±Inf, or the NaN code with that sign in a format without infinity (07 R194). -/
def infBits (f : Fmt) (s : Bool) : Nat :=
  if f.inf then signBit f s + f.expOnes * 2 ^ f.fbits else nanBits f s 0 1

/-- The number k 2^q, with k below 2^p and p at most the precision of `f`, as bits of `f`. -/
def packBits (f : Fmt) (s : Bool) (k : Nat) (q : Int) : Nat :=
  if k = 0 then signBit f s
  else
    let l := k.log2
    let e : Int := q + l
    if e < f.emin then
      let sh := q - (f.emin - f.fbits)
      signBit f s + (if 0 ≤ sh then k * 2 ^ sh.toNat else k / 2 ^ (-sh).toNat)
    else
      let m := if l ≤ f.fbits then k * 2 ^ (f.fbits - l) else k / 2 ^ (l - f.fbits)
      signBit f s + (e + f.bias).toNat * 2 ^ f.fbits + m % 2 ^ f.fbits

/-- n 2^e as a fraction: numerator and denominator without a power of two below one. -/
def scaleNum (n : Nat) (e : Int) : Nat := if 0 ≤ e then n * 2 ^ e.toNat else n
def scaleDen (d : Nat) (e : Int) : Nat := if 0 ≤ e then d else d * 2 ^ (-e).toNat

/-- Is n1/d1 2^e1 ≤ n2/d2 2^e2? -/
def magLe (n1 d1 : Nat) (e1 : Int) (n2 d2 : Nat) (e2 : Int) : Bool :=
  let e := e1 - e2
  scaleNum n1 e * d2 ≤ n2 * scaleDen d1 e

/-- Does the remainder r of a division by d round the quotient k away from zero (07 Table 07-4)? -/
def roundsUp (m : Rnd) (s : Bool) (k r d : Nat) : Bool :=
  match m with
  | .rne => d < 2 * r || (2 * r == d && k % 2 == 1)
  | .rtz => false
  | .rdn => s && r != 0
  | .rup => !s && r != 0
  | .rna => d ≤ 2 * r

/-- floor(log2 (n/d 2^e)) of a positive number. -/
def ilog2 (n d : Nat) (e : Int) : Int :=
  let l : Int := (n.log2 : Int) - d.log2
  if magLe d 1 l n 1 0 then l + e else l - 1 + e

/-- n/d 2^e rounded to `p` bits, with the least exponent `emin` where one is given: (k, q) is k 2^q. -/
def roundMag (m : Rnd) (s : Bool) (p : Nat) (emin : Option Int) (n d : Nat) (e : Int) : Nat × Int :=
  if n = 0 then (0, 0)
  else
    let q0 := ilog2 n d e - p + 1
    let q := match emin with
      | none => q0
      | some b => max q0 (b - p + 1)
    let nn := scaleNum n (e - q)
    let dd := scaleDen d (e - q)
    let k := nn / dd
    (if roundsUp m s k (nn % dd) dd then k + 1 else k, q)

/-- x rounded to an integer by mode m. -/
def roundInt (m : Rnd) (s : Bool) (n d : Nat) (e : Int) : Int :=
  let nn := scaleNum n e
  let dd := scaleDen d e
  let k := nn / dd
  let k := if roundsUp m s k (nn % dd) dd then k + 1 else k
  if s then -(k : Int) else k

/-- The largest finite magnitude of `f` at precision `p`: k and q of k 2^q. -/
def largest (f : Fmt) (p : Nat) : Nat × Int :=
  if f.inf then (2 ^ p - 1, f.emax - p + 1) else (2 ^ p - 2, f.emax - p + 1)

def maxBits (f : Fmt) (p : Nat) (s : Bool) : Nat := packBits f s (largest f p).1 (largest f p).2

/-- convert of R196 for a floating destination, rounding to precision p of the format (p is the format's
own precision but for the reduced formats of 08 R236): the bits and the flags raised. A signalling NaN under SATNZ gives +0 without NV, as
R196's pseudocode returns, where Table 07-8 names NV: a DESIGN CHOICE between the two (log 110). -/
def convertP (f : Fmt) (p : Nat) (m : Rnd) (sm : Sat) (x : Val) : Nat × Flags :=
  match x with
  | .nan s quiet frac fb =>
    if sm = .satnz then (0, 0) else (nanBits f s frac fb, when (!quiet) fNV)
  | .inf s =>
    if sm ≠ .none then (maxBits f p s, 0)
    else if f.inf then (infBits f s, 0) else (infBits f s, fNV)
  | .fin s n d e =>
    let u := roundMag m s p none n d e
    let lg := largest f p
    if !magLe u.1 1 u.2 lg.1 1 lg.2 then
      let big := maxBits f p s
      let r := if sm ≠ .none then big else
        match m with
        | .rne | .rna => infBits f s
        | .rtz => big
        | .rdn => if s then infBits f s else big
        | .rup => if s then big else infBits f s
      (r, fOF ||| fNX)
    else
      let y := roundMag m s p (some f.emin) n d e
      let exact := magLe y.1 1 y.2 n d e && magLe n d e y.1 1 y.2
      let tiny := u.1 != 0 && !magLe 1 1 f.emin u.1 1 u.2
      (packBits f s y.1 y.2, when (!exact) fNX ||| when (!exact && tiny) fUF)

def convert (f : Fmt) (m : Rnd) (sm : Sat) (x : Val) : Nat × Flags := convertP f f.prec m sm x

/-- An integer format: width and signedness (07 R190). -/
structure IFmt where
  w : Nat
  signed : Bool
  deriving DecidableEq, Repr

def IFmt.min (f : IFmt) : Int := if f.signed then -(2 ^ (f.w - 1) : Nat) else 0
def IFmt.max (f : IFmt) : Int := if f.signed then (2 ^ (f.w - 1) : Nat) - 1 else (2 ^ f.w : Nat) - 1
/-- The value of the low bits of `x` in the format. -/
def IFmt.toInt (f : IFmt) (x : Nat) : Int :=
  let y := x % 2 ^ f.w
  if f.signed && 2 ^ (f.w - 1) ≤ y then (y : Int) - (2 ^ f.w : Nat) else y
/-- The bits of an integer taken modulo 2^w. -/
def IFmt.wrap (f : IFmt) (i : Int) : Nat := (i % (2 ^ f.w : Nat)).toNat
def IFmt.clamp (f : IFmt) (i : Int) : Int := if i < f.min then f.min else if f.max < i then f.max else i

/-- convert of R196 for an integer destination; `fromFloat` says that the source is a floating value. -/
def convertI (f : IFmt) (m : Rnd) (sm : Sat) (fromFloat : Bool) (x : Val) : Nat × Flags :=
  match x with
  | .nan .. => (0, fNV)
  | .inf s => (if sm ≠ .none then f.wrap (if s then f.min else f.max) else 0, fNV)
  | .fin s n d e =>
    let y := roundInt m s n d e
    if f.min ≤ y ∧ y ≤ f.max then
      (f.wrap y, when (fromFloat && scaleNum n e != y.natAbs * scaleDen d e) fNX)
    else (if sm ≠ .none then f.wrap (f.clamp y) else f.wrap y, when fromFloat fNV)

/-- The first NaN of a list of operands, and whether any is signalling (07 R199). -/
def firstNan : List Val → Option Val
  | [] => none
  | v :: vs => if v.isNan then some v else firstNan vs

def quietVal : Val → Val
  | .nan s _ f b => .nan s true f b
  | v => v

/-- The exact sum of two finite values, its zero signed by R193. -/
def addFin (m : Rnd) (s1 : Bool) (n1 d1 : Nat) (e1 : Int) (s2 : Bool) (n2 d2 : Nat) (e2 : Int) : Val :=
  let e := min e1 e2
  let a : Int := (n1 * 2 ^ (e1 - e).toNat * d2 : Nat)
  let b : Int := (n2 * 2 ^ (e2 - e).toNat * d1 : Nat)
  let t := (if s1 then -a else a) + (if s2 then -b else b)
  if t = 0 then .zero (if s1 == s2 then s1 else m == .rdn)
  else .fin (t < 0) t.natAbs (d1 * d2) e

/-- x + y, with the flags of the operation before rounding. -/
def addVal (m : Rnd) (x y : Val) : Val × Flags :=
  match firstNan [x, y] with
  | some n => (quietVal n, when (x.isSnan || y.isSnan) fNV)
  | none =>
    match x, y with
    | .inf s, .inf t => if s = t then (.inf s, 0) else (.dflt, fNV)
    | .inf s, _ => (.inf s, 0)
    | _, .inf s => (.inf s, 0)
    | .fin s1 n1 d1 e1, .fin s2 n2 d2 e2 => (addFin m s1 n1 d1 e1 s2 n2 d2 e2, 0)
    | _, _ => (.dflt, 0)

def mulVal (x y : Val) : Val × Flags :=
  match firstNan [x, y] with
  | some n => (quietVal n, when (x.isSnan || y.isSnan) fNV)
  | none =>
    match x, y with
    | .fin s1 n1 d1 e1, .fin s2 n2 d2 e2 => (.fin (s1 != s2) (n1 * n2) (d1 * d2) (e1 + e2), 0)
    | x, y => if x.isZero || y.isZero then (.dflt, fNV) else (.inf (x.sign != y.sign), 0)

/-- x y + z with one rounding to come; R199's exception for 0 times infinity with a NaN addend. -/
def fmaVal (m : Rnd) (x y z : Val) : Val × Flags :=
  match firstNan [x, y] with
  | some n => (quietVal n, when (x.isSnan || y.isSnan || z.isSnan) fNV)
  | none =>
    let p := mulVal x y
    if p.1.isNan then (if z.isNan then quietVal z else .dflt, fNV)
    else addVal m p.1 z

def divVal (x y : Val) : Val × Flags :=
  match firstNan [x, y] with
  | some n => (quietVal n, when (x.isSnan || y.isSnan) fNV)
  | none =>
    let s := x.sign != y.sign
    match x, y with
    | .inf _, .inf _ => (.dflt, fNV)
    | .inf _, _ => (.inf s, 0)
    | _, .inf _ => (.zero s, 0)
    | .fin _ n1 d1 e1, .fin _ n2 d2 e2 =>
      if n2 = 0 then (if n1 = 0 then (.dflt, fNV) else (.inf s, fDZ))
      else (.fin s (n1 * d2) (d1 * n2) (e1 - e2), 0)
    | _, _ => (.dflt, 0)

/-- floor(sqrt n), built bit by bit from bit k - 1. -/
def isqrtAux (n : Nat) : Nat → Nat → Nat
  | 0, r => r
  | k + 1, r => isqrtAux n k (if (r + 2 ^ k) * (r + 2 ^ k) ≤ n then r + 2 ^ k else r)
def isqrt (n : Nat) : Nat := isqrtAux n (n.log2 / 2 + 1) 0

/-- A value that rounds, to at most 100 bits in any mode, as the square root of n/d 2^e does: the root
itself where it is exact, else the midpoint of the two neighbours at 104 bits or more. -/
def sqrtFin (n d : Nat) (e : Int) : Val :=
  if n = 0 then .zero false
  else
    let par : Nat := (e % 2).toNat
    let k := 2 * (104 + d.log2)
    let nn := n * 2 ^ (k + par)
    let r := isqrt (nn / d)
    let q : Int := (e - par) / 2 - (104 + d.log2 : Nat)
    if r * r * d = nn then .fin false r 1 q else .fin false (2 * r + 1) 1 (q - 1)

/-- The order of two values that are not NaNs. -/
def cmpVal (x y : Val) : Ordering :=
  match x, y with
  | .inf s, .inf t => if s = t then .eq else if s then .lt else .gt
  | .inf s, _ => if s then .lt else .gt
  | _, .inf s => if s then .gt else .lt
  | .fin s1 n1 d1 e1, .fin s2 n2 d2 e2 =>
    if n1 = 0 && n2 = 0 then .eq
    else if n1 = 0 then (if s2 then .gt else .lt)
    else if n2 = 0 then (if s1 then .lt else .gt)
    else if s1 && !s2 then .lt
    else if !s1 && s2 then .gt
    else
      let le := magLe n1 d1 e1 n2 d2 e2
      let ge := magLe n2 d2 e2 n1 d1 e1
      if le && ge then .eq else if le != s1 then .lt else .gt
  | _, _ => .eq

/-- The relation of FCMP and VCMP on floating values, with its flags (06 R157). -/
def relVal (cc : Rel) (x y : Val) : Bool × Flags :=
  if x.isNan || y.isNan then
    (cc == .ne || cc == .un,
      match cc with
      | .lt | .le | .gt | .ge => fNV
      | _ => when (x.isSnan || y.isSnan) fNV)
  else
    let o := cmpVal x y
    (match cc with
      | .eq => o == .eq
      | .ne => o != .eq
      | .lt => o == .lt
      | .le => o != .gt
      | .gt => o == .gt
      | .ge => o != .lt
      | .un => false, 0)

/-- The relation of VCMP on integers. -/
def relInt (cc : Rel) (x y : Int) : Bool :=
  match cc with
  | .eq => x == y
  | .ne => x != y
  | .lt => x < y
  | .le => x ≤ y
  | .gt => y < x
  | .ge => y ≤ x
  | .un => false

/-- minimumNumber and maximumNumber on the bits of a format (06 R156): −0 is below +0. -/
def minMaxBits (isMax : Bool) (f : Fmt) (a b : Nat) : Nat × Flags :=
  let x := decodeVal f a
  let y := decodeVal f b
  let nv := when (x.isSnan || y.isSnan) fNV
  if x.isNan && y.isNan then
    match x with
    | .nan s _ fr fb => (nanBits f s fr fb, nv)
    | _ => (a, nv)
  else if x.isNan then (b, nv)
  else if y.isNan then (a, nv)
  else
    let o := cmpVal x y
    let aLess := o == .lt || (o == .eq && x.sign)
    (if aLess != isMax then a else b, nv)

/-- The one-hot class of R159. -/
def classBits (f : Fmt) (a : Nat) : Nat :=
  match decodeVal f a with
  | .inf s => if s then 2 ^ 0 else 2 ^ 7
  | .nan _ q _ _ => if q then 2 ^ 9 else 2 ^ 8
  | .fin s n _ _ =>
    if n = 0 then (if s then 2 ^ 3 else 2 ^ 4)
    else if a / 2 ^ f.fbits % 2 ^ f.ebits = 0 then (if s then 2 ^ 2 else 2 ^ 5)
    else (if s then 2 ^ 1 else 2 ^ 6)

/-- The product passed to convert by a scaled conversion (07 Table 07-11). -/
def scaledVal (e s : Val) : Val × Flags :=
  if e.isNan then (quietVal e, when e.isSnan fNV)
  else if s.isNan then (quietVal s, when s.isSnan fNV)
  else mulVal e s

/-- round_ne of an exact value, in the bits of a format (00 R14). -/
def roundNe (f : Fmt) (x : Val) : Nat × Flags := convert f .rne .none x

end Sys2Proof.Machine
end

