-- ==== Sys2Proof/Machine/State.lean ====
section
/-! DEFINITION. The state of the module as plain data: cores, dies, memory, accesses in flight, tasks, Rhoath;
the reasons a step can stop; the state after reset. -/

namespace Sys2Proof.Machine

/-- Why a step stops. -/
inductive Fault where
  /-- Raised by the meaning of an event row whose occasion does not exist in the state (no such access in
  flight, no such command started, a core without a strand). Safe: the spec gives an event no effect where it does not
  occur, step takes only events whose meaning takes place, and an input that has no occasion is lost. -/
  | notEnabled (row : String)
  deriving DecidableEq, Repr

/-- Why an operation has no meaning here. -/
inductive Refusal where
  /-- Raised by an arm of exec whose row has no meaning yet. -/
  | notModelled (mnemonic : String)
  /-- Raised when the matrix engine runs a routine that MLDSTORE installed: its microcode's content is not
  specified (11 R316). Safe. -/
  | microcodeNotSpecified (index : Nat)
  deriving DecidableEq, Repr

/-! ## Cores -/

/-- The registers of R121, by name. -/
inductive RegName where
  | s (r : SReg) | v (r : VRegN) | p (r : PReg) | h (r : Reg16) | mp (r : MpReg) | k (r : Reg16) | csr (n : Nat)
  deriving DecidableEq, Repr

/-- A write that falls due (05 R116, R117). `v` and `p` replace the bits of their mask (08 R215); `vlda` keeps the
values that a routine has replaced since it issued (09 R264). `hKeep` changes nothing: it is the write of a handle that an HQRY
finds valid, so that what waits for it does not depend on VALID (05 R119). -/
inductive Wr where
  | s (r : SReg) (x : Word)
  | v (r : VRegN) (x mask : VWord)
  | p (r : PReg) (x mask : PWord)
  | h (r : Reg16) (x : HWord)
  | hInv (r : Reg16)
  | hKeep (r : Reg16)
  | hInvAll
  | mp (r : MpReg) (x : Word)
  | kSet (r : Reg16) (x : BitVec 32)
  | kAdd (r : Reg16) (x : BitVec 32)
  | csr (n : Nat) (x : Word)
  | link (x : Word)
  | vlda (int : Bool) (r : VRegN) (e : Nat) (mask : VWord) (rnd : Rnd) (sm : Sat) (olds : List (Nat × Nat))
  | vsta (int : Bool) (e : Nat) (x mask : VWord)
  | none
  deriving DecidableEq, Repr

/-- A pending lock-step write: its due tick, the number of the bundle issue that made it (05 R117), its
flags, and the walk it still waits for (09 R248). -/
structure Pend where
  due : Nat
  no : Nat
  wr : Wr
  fl : Flags
  walk : Option Nat
  deriving DecidableEq, Repr

/-- A trap with its detail and value (13 R372). -/
structure TrapReq where
  name : TrapName
  detail : Word
  val : Word
  deriving DecidableEq, Repr

/-- An outstanding landing operation: its Arbour entries, landing tick, destination, and its data once it
has arrived (09 R250). In the record of an instance `due` counts from its first tick (13 R381). -/
structure Landing where
  id : Nat
  due : Nat
  no : Nat
  size : Nat
  reg : Option RegName
  wr : Option Wr
  fl : Flags
  trap : Option TrapReq
  inst : Nat
  deriving DecidableEq, Repr

/-- A loop-stack entry (06 R169); `start` and `last` are addresses, which count from the start of the CODE section (log 48). -/
structure LoopEnt where
  index : BitVec 32
  limit : BitVec 32
  start : Nat
  last : Nat
  deriving DecidableEq, Repr

/-- The latch of an armed slot (05 R127). -/
structure Latch where
  op : Instr
  rnd : Rnd
  sm : Sat
  addr : Word
  addr2 : Word
  vec : VWord
  deriving DecidableEq, Repr

/-- The open group (05 R120, R121). -/
structure Group where
  count : Nat
  written : List RegName
  deriving DecidableEq, Repr

/-- An entry of the XM or CE queue with the operands it copied at issue (05 R116). `deps` are the earlier
producers of the tokens it consumes (05 R124); `seq` is its place in the strand's order (12 R342). -/
structure QEntry where
  id : Nat
  seq : Nat
  op : Instr
  tok : Tok
  deps : List Nat
  mp : Vector Word 8
  efmt : Word
  a : Word
  b : Word
  desc : VWord
  k : Reg16
  inst : Nat
  entered : Nat
  deriving DecidableEq, Repr

/-- A started XM entry: whether its effect has taken place, its status and what it reports (11 R319, R198); an MLDSTORE
is on hold at the VA of an absent page of its image (R336). -/
structure XmRun where
  ent : QEntry
  ran : Bool
  status : Nat
  detail : Nat
  fl : Flags
  seen : Nat
  tile : Option Bool
  hold : Option Nat
  deriving DecidableEq, Repr

/-- A packet of a copy command (10 R277); `bad` names those of its bytes that leave the chip with a failed seal (14 R416). -/
structure Pkt where
  src : Nat
  dst : Nat
  len : Nat
  off : Nat
  bad : List (Nat × Nat)
  deriving DecidableEq, Repr

/-- A started copy-engine command (10 R271): `air` holds the packets that have been sent and have not landed, with the bytes read
as they were sent (10 R279), `hold` the VA of the absent page that holds it (R280). -/
structure CeRun where
  ent : QEntry
  src : Nat
  dst : Nat
  pkts : List Pkt
  air : List (Pkt × List Byte)
  data : List Byte
  landed : Nat
  status : Nat
  detail : Nat
  isLocal : Bool
  hold : Option Nat
  deriving DecidableEq, Repr

/-- What follows the wait of a COMMIT: the next bundle, the wait of BAR or SSTEP, of DRAIN, the end of
EXIT, or the bundle of a returning atomic (06 R177, R180, 09 R265, R266). -/
inductive AfterCommit where
  | next | barrier (superstep : Bool) | drain | exit | atomic
  deriving DecidableEq, Repr

/-- What a core waits for while its clock domain is frozen (06 R143, 05 R124, R125, 13 R384, 09 R247,
R253, R254), that the writes of the bundle of a YIELD fall due before the strand stops (06 R179), that its handler has issued
ERET (13 R377), or that its strand has ended. -/
inductive Wait where
  | lt (k : Reg16) (thr : BitVec 32)
  | tokens (l : List (BitVec 6))
  | flags (mask : BitVec 8)
  | wfe (woken : Bool)
  | barrier (superstep : Bool) (count : Nat)
  | drain
  | commit (after : AfterCommit)
  | room (xm : Bool)
  | sync
  | walk (id : Nat)
  | trellis
  | fetch (va : Nat)
  | yield
  | eret
  | exited
  deriving DecidableEq, Repr

/-- A region entry and a pause entry of the image (02 R51, R52). -/
structure Region where
  start : Nat
  last : Nat
  budget : Nat
  deriving DecidableEq, Repr
structure Pause where
  q0 : Word
  q1 : Word
  q2 : Word
  q3 : Word
  deriving DecidableEq, Repr

/-- The strand a core runs: its logical identity, the tables of its image and the grants of its core (02, 06 R147). -/
structure Strand where
  task : TaskId
  gang : Nat
  lcore : Nat
  ctx : Nat
  gangSize : Nat
  gangCount : Nat
  superstep : Bool
  vdie : Nat
  novdie : Bool
  codeVa : Nat
  codeSize : Nat
  regions : List Region
  pauses : List Pause
  grants : List (Word × Word)
  hasGrant : Bool
  priv : Bool
  deriving DecidableEq, Repr

/-- The record of the open region instance (13 R380, R381, R382, R384): `horizon` is its largest lock-step
horizon in strand ticks, `wallHorizon` that of its landings and engines in wall ticks of the core; it began at
an implied COMMIT (`implied`), sent `amoSent` returning atomics and has issued `amoSeen` of them since its last
replay. -/
structure Inst where
  id : Nat
  pc : Nat
  loops : List LoopEnt
  k : Vector (BitVec 32) 16
  flags : Word
  rx : BitVec 8
  efmt : Word
  efmtPend : List (Nat × Word)
  budget : Nat
  used : Nat
  start : Nat
  horizon : Nat
  wallHorizon : Nat
  implied : Bool
  amoSent : Nat
  amoSeen : Nat
  carried : List Landing
  deriving DecidableEq, Repr

/-- What a handler entry saves (13 R375 to R378): `tick` is the last strand tick before the trap. -/
structure Snap where
  tick : Nat
  pend : List Pend
  arb : List Landing
  latch : List (Slot × Latch)
  grp : Group
  loops : List LoopEnt
  wait : Option Wait
  dead : Nat
  horizon : Nat
  deriving DecidableEq, Repr

/-- The atomic operations (09 Table 09-13). A request of an application core has no other: none for an unsigned minimum or maximum
(log 96). -/
inductive AtomOp where
  | add | min | max | and | or | xor | swp | cas | fadd
  deriving DecidableEq, Repr

/-- What an access does at its serialisation point. -/
inductive Act where
  | load
  | store
  | amo (op : AtomOp) (wide : Bool)
  | red (op : AtomOp) (wide : Bool)
  | dec (n : Nat)
  | launch (q vd : Nat)
  | drop
  deriving DecidableEq, Repr

/-- One element of an access: its address, bytes, place in the result, and data. -/
structure Part where
  va : Nat
  pa : Nat
  len : Nat
  pos : Nat
  data : Nat
  cmp : Nat
  deriving DecidableEq, Repr

/-- An entry of the Trellis log (09 R254, 13 Table 13-8b). `copy` names a copy packet; `det` and `key` are those of a
deterministic reduction (12 R355); `ready` says that a PFDONE has found its page. -/
structure Trel where
  va : Nat
  act : Act
  ord : Ord
  sc : Scope
  part : Part
  rest : List Part
  copy : Option Nat
  committed : Bool
  inst : Nat
  seq : Nat
  det : Bool
  key : Nat × Nat × Nat
  ready : Bool
  deriving DecidableEq, Repr

/-- What the issue of a bundle hands to its operations and they to it: the bundle's rounding and
saturation (05 R132), the latched addresses of a re-issue (05 R128), the address of the following bundle,
whether the operation moved the pc, the trap that an operation took and the wait that holds the bundle
back before it issues. -/
structure ICtx where
  rnd : Rnd
  sm : Sat
  addr : Option (Word × Word × VWord)
  npc : Nat
  moved : Bool
  trap : Option TrapReq
  stall : Option Wait
  deriving DecidableEq, Repr

/-- One physical core: `pc` is the address of a bundle, which counts from the start of the CODE section (log 48); `kver` counts
the changes of each counting barrier (03 R80), `old` what copies without a token
edge have replaced in granules of the near scratchpad (11 R318, 15 R425), `during` what its strand or a put has replaced there while a
started routine has not read its operands, `xmDrain` the MM
routines past their release points whose tokens are still pending (05 R124), `tlb` is the cache of translations (09 R244), `syncq` the synchronous
traps that a tick has raised beside the one that was taken (13 R373, log 16), `trapq` the queue of R374. -/
structure Core where
  id : CoreId
  strand : Option Strand
  sreg : Vector Word 64
  vreg : Vector VWord 32
  preg : Vector PWord 8
  hreg : Vector HWord 16
  mpreg : Vector Word 8
  kreg : Vector (BitVec 32) 16
  kver : Vector Nat 16
  loops : List LoopEnt
  pc : Nat
  issue : Nat
  tick : Nat
  dead : Nat
  flags : Word
  mode : Word
  layoutId : Word
  hashKey : Word
  freezeCnt : Word
  issueCnt : Word
  rx : BitVec 8
  errInj : Word
  tvec : Word
  tcause : Word
  tdetail : Word
  tval : Word
  tepc : Word
  rcvstat : Word
  tscr : Vector Word 4
  efmt : Word
  efmtPend : List (Nat × Word)
  issueNo : Nat
  pend : List Pend
  arb : List Landing
  latch : List (Slot × Latch)
  grp : Group
  xmq : List QEntry
  ceq : List QEntry
  xmRun : Option XmRun
  xmDrain : List XmRun
  ceRun : List CeRun
  tiles : List Bool
  wait : Option Wait
  frozen : Bool
  inst : Inst
  trellis : List Trel
  snap : Option Snap
  syncq : List TrapReq
  trapq : List TrapReq
  stop : Bool
  stopping : Option Nat
  atCommit : Bool
  implied : Bool
  bars : Nat
  ssteps : Nat
  amos : Nat
  reds : Nat
  seq : Nat
  fences : List (Nat × Bool × Bool × Bool × Bool × Scope)
  events : List Nat
  injected : List Nat
  wall : Nat
  ended : Bool
  lastCtx : Option Nat
  store : List (Nat × Nat × Nat)
  wb : List Host.Cell
  stale : List (Nat × Bool × Nat)
  old : List (Nat × Nat × BitVec 6)
  during : List (Nat × Nat)
  rowSig : List (Nat × Word)
  corrRow : List Int
  corrCol : List Int
  chkCol : List Int
  chkRow : List Int
  blockCmps : Nat
  tileCmps : Nat
  tlb : List HWord
  ictx : ICtx
  deriving DecidableEq, Repr

/-! ## Accesses in flight -/

/-- Where an access stands on its way (09 R250, R253, R255, R261, 12 R349, R359): waiting for its walk,
its page absent, not yet sent, on a link, in a reorder buffer, at its own die held for causally earlier
writes, at its home slice, pinned there until COMMIT, waiting for its replay turn, or answered. -/
inductive Stage where
  | walk | absent | away | link | rob | causal | home | pinned | turn | reply
  deriving DecidableEq, Repr

/-- How the data of a landing access becomes a register write. -/
inductive LandDst where
  | none
  | s (r : SReg) (len : Nat) (signed : Bool)
  | v (r : VRegN) (mask : VWord)
  deriving DecidableEq, Repr

/-- An access of a core to memory beyond its own: `seq` is its place in the strand's order, `parts` what is
still to be performed, `res` what has been read, `land` the landing that waits for it, `held` and `checked`
its state as a held effect, `clock` the sender's matrix of counts as it was stamped (12 R347), `key` and `det` those of a
deterministic reduction (12 R355), `amo` the number of returning atomics of the strand before it, `hit` that a lane of it has
performed (12 R360), `know` that its header carries knowledge (12 R348), `sent` its place on its channel of the fabric (12
R350), then that of its arrival at its serialisation point (R359), `hbase` the VA at which its handle's page began
at issue (09 R253), or the address of an application core's access, `trel` that it came from the Trellis log (09 R254), `app` the application
core that issued it (01 R36), `copy` the copy command whose packet or signal it is (10 R281), `xl` the number that was next as its addresses
were translated (09 R249). -/
structure Access where
  id : Nat
  seq : Nat
  core : CoreId
  task : Option TaskId
  gang : Nat
  lcore : Nat
  ctx : Nat
  act : Act
  ord : Ord
  sc : Scope
  handle : Reg16
  parts : List Part
  res : VWord
  fl : Flags
  bad : Option TrapReq
  dst : LandDst
  land : Option Nat
  held : Bool
  checked : Bool
  inst : Nat
  stage : Stage
  home : DieId
  clock : List Nat
  epoch : Nat
  det : Bool
  key : Nat × Nat × Nat
  amo : Nat
  order : Nat
  hit : Bool
  know : Bool
  sent : Nat
  hbase : Nat
  trel : Bool
  app : Option AppCore
  copy : Option Nat
  xl : Nat
  deriving DecidableEq, Repr

/-- A load, store or atomic that an application core sends to device memory (01 R36, R37): `data` is what it stores or adds,
`cmp` the compare value. -/
structure AppReq where
  app : AppCore
  act : Act
  ord : Ord
  pa : Nat
  len : Nat
  data : Nat
  cmp : Nat
  deriving DecidableEq, Repr

/-- What an application core receives: the value read, none for a RISC-V access fault (01 R33, 04 R100, 09 R268). -/
structure AppAnswer where
  app : AppCore
  pa : Nat
  value : Option Nat
  deriving DecidableEq, Repr

/-- A PCIe DMA access that is held while its bank is being switched (04 R96): `data` is none for a read. -/
structure DmaReq where
  die : DieId
  pa : Nat
  len : Nat
  data : Option (List Byte)
  deriving DecidableEq, Repr

/-- Why a walk runs: for the pending writes of an XLT or HQRY, for a posted operation that waits at issue,
or for a landing access (09 R247, R248, R255). -/
inductive WalkFor where
  | xlt | hqry | handle | access (id : Nat)
  deriving DecidableEq, Repr

structure Walk where
  id : Nat
  core : CoreId
  ctx : Nat
  va : Nat
  h : Reg16
  why : WalkFor
  stale : Bool
  deriving DecidableEq, Repr

/-- A committed or held signal of a CPYSIG, at the place that its SIG_VA had as the command started and at its command's place in the strand's order (10 R281), a micro-batch of a PSEND (R288), a peer put (R283),
a routine installation (11 R336), an entry of the log of a strand that had stopped when its task ended (03 R75). -/
inductive EffKind where
  | signal (va pa dec cmd seq : Nat)
  | psend (die : DieId) (ch : Nat) (data : List Byte)
  | put (p : PeerPut) (remote : Bool) (tok : Nat)
  | install (slot version accept digest : Nat)
  | logged (t : Trel)
  deriving DecidableEq, Repr
structure Effect where
  id : Nat
  core : CoreId
  task : Option TaskId
  gang : Nat
  lcore : Nat
  ctx : Nat
  inst : Nat
  committed : Bool
  acked : Bool
  kind : EffKind
  deriving DecidableEq, Repr

/-! ## Dies -/

/-- A routine of the directory (11 R315): slot, VERSION, ACCEPT. -/
abbrev Routine := Nat × Nat × Nat

/-- A held deterministic update (12 R355): key, operand; and a hold (R356, R358). -/
structure Update where
  key : Nat × Nat × Nat
  x : Nat
  deriving DecidableEq, Repr
structure Hold where
  pa : Nat
  task : TaskId
  gang : Nat
  ctx : Nat
  op : AtomOp
  wide : Bool
  count : Nat
  ups : List Update
  deriving DecidableEq, Repr

/-- The binding of an endpoint to a strand, with decrements that wait for it (10 R297). -/
structure Binding where
  task : TaskId
  gang : Nat
  lcore : Nat
  k : Reg16
  owed : Nat
  deriving DecidableEq, Repr

/-- The state of a Strelziad port and its Pergola fabric beside its registers (10 R292 to R302); `waiting` holds the frames that wait for
a bank switch or for writes that precede theirs (04 R96, 12 R349). -/
structure Port where
  expect : List (Nat × Nat)
  frames : List (Nat × Nat × Bool × Nat)
  bind : Option Binding
  plate : Option (List Byte)
  running : Bool
  pending : List (Bool × CoreId × Nat)
  waiting : List (List Byte)
  deriving DecidableEq, Repr

/-- A timetable bound to a queue (02 R59 to R61): `next` is the VA that QTT takes at the end of the frame, 0 for none. -/
structure TTable where
  queue : Nat
  adopted : Bool
  va : Nat
  frameLen : Nat
  count : Nat
  alt : Nat
  entries : Nat
  frame : Nat
  s : Nat
  began : Bool
  next : Option Nat
  degraded : Bool
  deriving DecidableEq, Repr

/-- The tables of a checked image (02 R45 to R55): `va` is its base and `verified` says that Rhoath has found its
signature good. -/
structure Image where
  ctx : Nat
  va : Nat
  size : Nat
  sign : Option (Nat × Nat)
  verified : Bool
  restartable : Bool
  priv : Bool
  codeVa : Nat
  codeSize : Nat
  layouts : List (List Word)
  pauses : List Pause
  regions : List Region
  grants : Option (Nat × List (Word × Word))
  routines : List Word
  deriving DecidableEq, Repr

/-- A die: its registers, whether its domains are out of reset, its fabric endpoint (12 R347 to R351), its launch unit, stream units and
store. `dirty` holds the dirty lines of its caches with their owners (04 R89), `lines` every line that an access has brought into
them with the context whose miss did (14 R412). -/
structure Die where
  id : DieId
  regs : List (Nat × Word)
  uncoreUp : Bool
  coresUp : Bool
  removed : Bool
  clockStep : Nat
  know : List Nat
  told : List (Nat × List Nat)
  dlv : List Nat
  seen : List Nat
  epoch : Nat
  localSent : Nat
  directory : List Routine
  digests : List (Nat × Nat)
  qseq : List (Nat × Nat × Nat)
  ran : List (Nat × Nat)
  imageCache : List Image
  launchWait : List (Nat × List Word)
  reserve : List (Bool × TaskId × Nat × Nat)
  held : List (CoreId × TaskId × Nat)
  tts : List TTable
  holds : List Hold
  arrivals : List (Nat × TaskId × Nat)
  diverged : List (Nat × TaskId)
  ports : List Port
  chans : List (Nat × Binding)
  switches : List (Nat × Nat × Nat × CoreId × Nat)
  slots : List (Nat × TaskId × Nat × Nat)
  dirty : List (Nat × Nat)
  lines : List (Nat × Nat)
  deriving DecidableEq, Repr

/-! ## Tasks -/

/-- A gang: not admitted, running on cores, asked to stop, or done (03 R72 to R75). -/
inductive GangState where
  | waiting | running | stopping | done
  deriving DecidableEq, Repr

/-- What a stopped strand keeps beside its save area: its barriers and supersteps, its place in its order of accesses,
its returning atomics, its deterministic reductions, its fences, the order and keys of its entries in the log, its carried
landings, a pending EFMT, the commands of its copy records, the wait it stopped in, the changes of its counting barriers, the core
it stopped on and the asynchronous traps that have reached it since. -/
structure Counts where
  bars : Nat
  ssteps : Nat
  seq : Nat
  amos : Nat
  reds : Nat
  fences : List (Nat × Bool × Bool × Bool × Bool × Scope)
  logged : List Trel
  carried : List Landing
  efmtPend : List (Nat × Word)
  cmds : List (Nat × Nat × Nat)
  wait : Option Wait
  kver : Vector Nat 16
  core : CoreId
  traps : List TrapReq
  deriving DecidableEq, Repr

/-- A gang: `cores` holds the core of each logical core while it is bound, `loaded` the strands that have started
since, `saved` those with a save area, `ended` those that have ended; `since` is the frame tick from which it has been
admissible and unadmitted (03 R72), `layout` the layout it was bound with (04 R87); `started` says that all its strands have been
loaded since it was admitted, so that they have started together (R74). -/
structure Gang where
  idx : Nat
  die : DieId
  state : GangState
  cores : List CoreId
  loaded : List Nat
  saved : List Nat
  ended : List Nat
  counts : List (Nat × Counts)
  since : Option Nat
  layout : Option Nat
  started : Bool := false
  deriving DecidableEq, Repr

/-- An accepted task (03 R67 to R82): its packet, its release tick, `entry` its entry of the timetable, or, of an EDF queue, its number
in the order of acceptance, which unlike SEQ does not wrap (R71), `ready` the frame tick since which its wait conditions
have held, its checked image and kept layout, its gangs, how it ended, `asks` the dies that have granted the binding of a
superstep task, `yielding` the gang that a yield makes room for, `yields` the changes that its strands' counters had seen at each
gang's last yield, `noted` says that a skipped pause address has been recorded (02 R52), and `spells` holds the earlier spells in
which its wait conditions held. -/
structure Task where
  id : TaskId
  pkt : List Word
  ctx : Nat
  released : Bool
  release : Nat
  frameStart : Nat
  entry : Nat
  ready : Option Nat
  image : Option Image
  layout : Option Nat
  gangs : List Gang
  status : Nat
  detail : Nat
  statusGang : Nat
  admitTick : Nat
  admitted : Bool
  demoted : Bool
  traceDiv : Bool
  restarted : Bool
  asks : Option (List DieId)
  yielding : Option Nat
  yields : List (Nat × List (Nat × Nat × Nat × Nat))
  noted : Bool
  spells : List (Nat × Nat)
  deriving DecidableEq, Repr

/-! ## Rhoath -/

/-- Rhoath (14 R399 to R422): `regs` are the registers of its mailbox window, `retired`, `retPages`, `keyGen` and `ue` its key
store, `measures` the digests that it has recorded, `flash` the images that have replaced those of the flash, `endpoints` the
memory dies whose PCIe port is an endpoint, `mbq` the mailbox commands that have not completed, `linkReqs` the changes of links
that it has requested, `power` the package power that it has measured, `lost` the die of the last failover. -/
structure Rhoath where
  regs : List (Nat × Word)
  retired : List (DieId × Nat)
  retPages : List (DieId × Nat)
  keyGen : List Nat
  ue : Bool
  faultN : Bool
  chip : Nat
  spdm : List (SpdmPort × Nat)
  measures : List Nat
  recovering : List DieId
  retrainFails : List Nat
  widths : List Nat
  freqs : List Nat
  linkReqs : List (Nat × LinkChange)
  powerCap : Nat
  power : Nat
  endpoints : List DieId
  flash : List (DieId × List Byte)
  mbq : List (Nat × Word × Word × Word)
  lost : Option DieId
  deriving DecidableEq, Repr

structure State where
  core : Core
  parked : List Core
  dies : List Die
  rhoath : Rhoath
  mem : List Host.Cell
  badSeal : List (Nat × Nat)
  flight : List Access
  walks : List Walk
  effects : List Effect
  credits : List (DieId × DieId × List Nat)
  permits : List (DieId × Nat)
  revokes : List (Nat × Nat)
  tasks : List Task
  frame : BitVec 48
  nextId : Nat
  inputs : List Instr
  free : Nat
  reply : Option Word
  replyData : List Byte
  poisoned : Bool
  appReqs : List AppReq
  appDone : List AppAnswer
  dmaReqs : List DmaReq
  dramUes : List Nat
  deriving DecidableEq, Repr

/-! ## Reset -/

/-- The shipped routines, at VERSION 1, with the ACCEPT masks of 11 Table 11-8 (log 12). -/
def shipped : List Routine :=
  [(0, 1, 1), (1, 1, 2), (2, 1, 4), (3, 1, 1), (4, 1, 8), (5, 1, 8), (6, 1, 8), (7, 1, 8), (8, 1, 8),
   (9, 1, 8), (10, 1, 8), (11, 1, 8), (12, 1, 8), (13, 1, 8), (14, 1, 1), (15, 1, 8)]

def Inst.reset : Inst :=
  { id := 0, pc := 0, loops := [], k := .replicate 16 0, flags := 0, rx := 0, efmt := 0,
    efmtPend := [], budget := 0,
    used := 0, start := 0, horizon := 0, wallHorizon := 0, implied := false, amoSent := 0, amoSeen := 0, carried := [] }

def ICtx.reset : ICtx :=
  { rnd := .rne, sm := .none, addr := none, npc := 0, moved := false, trap := none, stall := none }

/-- A core as its domain leaves reset: no strand, every memory zero (01 R41), the store empty until a
load (11 R315). -/
def Core.reset (id : CoreId) : Core :=
  { id := id, strand := none, sreg := .replicate 64 0, vreg := .replicate 32 0, preg := .replicate 8 0,
    hreg := .replicate 16 0, mpreg := .replicate 8 0, kreg := .replicate 16 0, kver := .replicate 16 0,
    loops := [], pc := 0, issue := 0, tick := 0, dead := 0, flags := 0, mode := 0, layoutId := 0, hashKey := 0, freezeCnt := 0,
    issueCnt := 0, rx := 0, errInj := 0, tvec := 0, tcause := 0, tdetail := 0, tval := 0, tepc := 0,
    rcvstat := 0, tscr := .replicate 4 0, efmt := 0, efmtPend := [], issueNo := 0, pend := [], arb := [],
    latch := [], grp := ⟨0, []⟩, xmq := [], ceq := [], xmRun := none, xmDrain := [], ceRun := [], tiles := [],
    wait := none, frozen := false, inst := Inst.reset, trellis := [], snap := none, syncq := [], trapq := [], stop := false,
    stopping := none, atCommit := true, implied := false, bars := 0, ssteps := 0, amos := 0, reds := 0, seq := 0, fences := [], events := [],
    injected := [], wall := 0, ended := false, lastCtx := none, store := [], wb := [], stale := [], old := [], during := [], rowSig := [], corrRow := [],
    corrCol := [], chkCol := [], chkRow := [], blockCmps := 0, tileCmps := 0, tlb := [], ictx := ICtx.reset }

def Port.reset : Port :=
  { expect := [], frames := [], bind := none, plate := none, running := false, pending := [], waiting := [] }

/-- A die with both domains up. -/
def Die.reset (d : DieId) : Die :=
  { id := d, regs := [], uncoreUp := true, coresUp := true, removed := false, clockStep := 0,
    know := List.replicate 16 0, told := [], dlv := List.replicate 4 0, seen := List.replicate 4 0, epoch := 0,
    localSent := 0, directory := shipped, digests := [], qseq := [], ran := [], imageCache := [], launchWait := [], reserve := [], held := [],
    tts := [], holds := [], arrivals := [], diverged := [], ports := [Port.reset, Port.reset], chans := [],
    switches := [], slots := [], dirty := [], lines := [] }

def Rhoath.reset : Rhoath :=
  { regs := [], retired := [], retPages := [], keyGen := List.replicate 16 0, ue := false, faultN := false,
    chip := 0, spdm := [], measures := [], recovering := [], retrainFails := [0, 0, 0, 0], widths := [], freqs := [], linkReqs := [], powerCap := 1173,
    power := 0, endpoints := [.md0, .md1], flash := [], mbq := [], lost := none }

/-- The module right after the boot of 14 R417: every die up, every memory zero, every register at its
reset value, no task accepted. -/
def State.reset : State :=
  { core := Core.reset ⟨.cd0, 0⟩, parked := [], dies := DieId.all.map Die.reset, rhoath := Rhoath.reset,
    mem := [], badSeal := [], flight := [], walks := [], effects := [], credits := [], permits := [], revokes := [],
    tasks := [], frame := 0, nextId := 0, inputs := [], free := 0, reply := none, replyData := [],
    poisoned := false, appReqs := [], appDone := [], dmaReqs := [], dramUes := [] }

end Sys2Proof.Machine
end

