-- ==== Sys2Proof/Machine/Ops.lean ====
section
/-! DEFINITION. The named operations that the meanings share: memory, physical addresses, die registers,
cores, register reads and pending writes, free values, records, traps, region instances. -/

namespace Sys2Proof.Machine

/-- The outcome of a meaning. -/
abbrev Out := Host.Outcome State Fault Refusal

/-! ## Memory: bytes by physical address in one canonical form (log 7) -/

/-- The byte at `a`; a byte that is not listed is zero (01 R41). -/
def memGet : List Host.Cell → Nat → Byte
  | [], _ => 0
  | (b, x) :: r, a => if b = a then x else memGet r a

/-- The memory with byte `x` at `a`. -/
def memSet : List Host.Cell → Nat → Byte → List Host.Cell
  | [], a, x => if x = 0 then [] else [(a, x)]
  | (b, y) :: r, a, x =>
    if a < b then (if x = 0 then (b, y) :: r else (a, x) :: (b, y) :: r)
    else if a = b then (if x = 0 then r else (a, x) :: r)
    else (b, y) :: memSet r a x

/-- The canonical form: addresses strictly rising from `lo`, no listed zero. -/
def Memory.wfFrom : Nat → List Host.Cell → Bool
  | _, [] => true
  | lo, (a, x) :: r => lo ≤ a && x != 0 && Memory.wfFrom (a + 1) r
def Memory.wf (m : List Host.Cell) : Bool := Memory.wfFrom 0 m

/-- `n` bytes from `a`, little-endian (00 R5). -/
def memNat (m : List Host.Cell) (a : Nat) : Nat → Nat
  | 0 => 0
  | n + 1 => (memGet m a).toNat + 256 * memNat m (a + 1) n
def memPut (m : List Host.Cell) (a v : Nat) : Nat → List Host.Cell
  | 0 => m
  | n + 1 => memSet (memPut m (a + 1) (v / 256) n) a (.ofNat 8 v)
def memBytes (m : List Host.Cell) (a : Nat) : Nat → List Byte
  | 0 => []
  | n + 1 => memGet m a :: memBytes m (a + 1) n
def memPutBytes (m : List Host.Cell) (a : Nat) : List Byte → List Host.Cell
  | [] => m
  | x :: r => memSet (memPutBytes m (a + 1) r) a x
/-- The memory with `n` bytes from `a` zero. -/
def memZero (m : List Host.Cell) (a n : Nat) : List Host.Cell := m.filter fun c => c.1 < a || a + n ≤ c.1
def bytesNat : List Byte → Nat
  | [] => 0
  | x :: r => x.toNat + 256 * bytesNat r
def natBytes (v : Nat) : Nat → List Byte
  | 0 => []
  | n + 1 => .ofNat 8 v :: natBytes (v / 256) n

def State.rd (s : State) (a n : Nat) : Nat := memNat s.mem a n
def State.rdBytes (s : State) (a n : Nat) : List Byte := memBytes s.mem a n
def State.wr (s : State) (a n v : Nat) : State := { s with mem := memPut s.mem a v n }
def State.wrBytes (s : State) (a : Nat) (l : List Byte) : State := { s with mem := memPutBytes s.mem a l }

/-! ## Physical addresses (01 R30 to R33) -/

def dieBase (d : DieId) : Nat := d.code * 2 ^ 49
def nspSize (c : CoreId) : Nat := if c.isAttn then 0x400000 else 0x200000
def accCols (c : CoreId) : Nat := if c.isAttn then 128 else 256
def accRows (c : CoreId) : Nat := if c.isAttn then 256 else 512
def accEntries (c : CoreId) : Nat := accRows c * accCols c
def nspBase (c : CoreId) : Nat := dieBase c.die + 0x110000000000 + c.num * 0x400000
def accBase (c : CoreId) : Nat := dieBase c.die + 0x120000000000 + c.num * 0x200000
def coreCount (d : DieId) : Nat := if d.isMem then 8 else 24
def clusterCount (d : DieId) : Nat := if d.isMem then 2 else 6
def bankCount (d : DieId) : Nat := if d.isMem then 32 else 64
def dramSize (d : DieId) : Nat := if d.isMem then 0x4000000000 else 0x2000000000

/-- What a physical address names (01 Table 01-5). -/
inductive Place where
  | dram | deep
  | bank (cluster bank off : Nat)
  | nsp (core off : Nat)
  | acc (core off : Nat)
  | window (off : Nat)
  | reserved
  deriving DecidableEq, Repr

/-- The die of an address; none for Rhoath and the reserved codes. -/
def paDie (pa : Nat) : Option DieId := if pa < 2 ^ 52 then DieId.ofCode (pa / 2 ^ 49) else none

/-- Rhoath's mailbox window, in the range of TD (01 Table 01-5). -/
def mailboxBase : Nat := 7 * 2 ^ 49 + 0x1F0000000000
def inMailbox (pa : Nat) : Bool := mailboxBase ≤ pa && pa < mailboxBase + 2 ^ 32

def placeOf (pa : Nat) : Place :=
  match paDie pa with
  | none => .reserved
  | some d =>
    let o := pa % 2 ^ 49
    if o < dramSize d then .dram
    else if 0x100000000000 ≤ o && o < 0x110000000000 then
      let c := (o - 0x100000000000) / 0x2000000
      let r := (o - 0x100000000000) % 0x2000000
      if c < clusterCount d && r / 0x80000 < bankCount d then .bank c (r / 0x80000) (r % 0x80000) else .reserved
    else if 0x110000000000 ≤ o && o < 0x120000000000 then
      let n := (o - 0x110000000000) / 0x400000
      let r := (o - 0x110000000000) % 0x400000
      if n < coreCount d && r < nspSize ⟨d, n⟩ && Config.coreEn d / 2 ^ n % 2 = 1 then .nsp n r else .reserved
    else if 0x120000000000 ≤ o && o < 0x140000000000 then
      let n := (o - 0x120000000000) / 0x200000
      let r := (o - 0x120000000000) % 0x200000
      if n < coreCount d && r < 10 * accEntries ⟨d, n⟩ && Config.coreEn d / 2 ^ n % 2 = 1 then .acc n r
      else .reserved
    else if 0x140000000000 ≤ o && o < 0x140020000000 then (if d.isMem then .deep else .reserved)
    else if 0x1F0000000000 ≤ o && o < 0x1F0100000000 then .window (o - 0x1F0000000000)
    else .reserved

def Place.isReserved : Place → Bool | .reserved => true | _ => false

/-! ## Die registers -/

/-- The value a register of the window takes at reset (the tables that define each block). -/
def regReset (d : DieId) (off : Nat) : Word :=
  if off = 0 then
    BitVec.ofNat 64 (d.code + d.twin.code * 2 ^ 4 + Config.coreEn d * 2 ^ 8)
  else if 0x1000 ≤ off && off < 0x3000 && off % 0x40 = 0 then 0x4000000      -- QCFG.RING_LOG2 4
  else if 0xA408 ≤ off && off < 0xA488 then 4096                            -- DETQUOTA
  else if off = 0xA508 then 20                                              -- PAUSECFG
  else 0

def regGet (d : DieId) : List (Nat × Word) → Nat → Word
  | [], off => regReset d off
  | (o, v) :: r, off => if o = off then v else regGet d r off
def regPut : List (Nat × Word) → Nat → Word → List (Nat × Word)
  | [], off, v => [(off, v)]
  | (o, w) :: r, off, v => if o = off then (o, v) :: r else (o, w) :: regPut r off v

def Die.reg (d : Die) (off : Nat) : Word := regGet d.id d.regs off
def Die.setReg (d : Die) (off : Nat) (v : Word) : Die := { d with regs := regPut d.regs off v }
def Die.nat (d : Die) (off : Nat) : Nat := (d.reg off).toNat

def State.die (s : State) (d : DieId) : Die := (s.dies.find? (·.id == d)).getD (Die.reset d)
def State.setDie (s : State) (d : Die) : State :=
  { s with dies := s.dies.map fun e => if e.id = d.id then d else e }
def State.updDie (s : State) (d : DieId) (f : Die → Die) : State := s.setDie (f (s.die d))
def State.setReg (s : State) (d : DieId) (off : Nat) (v : Nat) : State :=
  s.updDie d (·.setReg off (.ofNat 64 v))
def State.reg (s : State) (d : DieId) (off : Nat) : Nat := (s.die d).nat off

/-- Bits [lo + n - 1 : lo] of `w` replaced by `v`. -/
def setBits (w lo n v : Nat) : Nat := w - bitsAt w lo n * 2 ^ lo + v % 2 ^ n * 2 ^ lo
/-- `v` held below `m` (a saturating count). -/
def satTo (m v : Nat) : Nat := if v ≤ m then v else m

/-- Offset of a queue register block (03 R63; 14 R405 for an adopted queue). -/
def queueOff (q : Nat) (adopted : Bool) : Nat := (if adopted then 0x2000 else 0x1000) + q * 0x40

/-! ## Cores by name -/

def findCore (l : List Core) (c : CoreId) : Core := (l.find? (·.id == c)).getD (Core.reset c)
def State.getCore (s : State) (c : CoreId) : Core := if s.core.id = c then s.core else findCore s.parked c
/-- The list without core `c`. -/
def dropCore (l : List Core) (c : CoreId) : List Core := l.filter fun x => x.id != c
def State.setCore (s : State) (c : Core) : State :=
  if s.core.id = c.id then { s with core := c } else { s with parked := c :: dropCore s.parked c.id }
def State.updCore (s : State) (c : CoreId) (f : Core → Core) : State := s.setCore (f (s.getCore c))
/-- The state with core `c` in focus. -/
def State.focus (s : State) (c : CoreId) : State :=
  if s.core.id = c then s
  else { s with core := findCore s.parked c, parked := s.core :: dropCore s.parked c }
def State.cores (s : State) : List Core := s.core :: s.parked
def State.onCore (s : State) (f : Core → Core) : State := { s with core := f s.core }

/-! ## Free values -/

/-- A scheduler choice among `n` (log 2). -/
def State.draw (s : State) : Nat × State := (s.free, { s with free := s.free + 1 })
/-- The frame counter as an agent reads it: a free number of frame ticks has passed (log 5); it does not wrap (06 R165). -/
def State.now (s : State) : State :=
  { s with frame := .ofNat 48 (min (s.frame.toNat + Config.frameStep s.free) (2 ^ 48 - 1)), free := s.free + 1 }
/-- A freeze of the focus core ended: the wall ticks it took are free (06 R148, log 5). -/
def State.thaw (s : State) : State :=
  { s with
    core := { s.core with
      freezeCnt := s.core.freezeCnt + .ofNat 64 (Config.frozenTicks s.free)
      wall := s.core.wall + Config.frozenTicks s.free }
    free := s.free + 1 }
def State.fresh (s : State) : Nat × State := (s.nextId, { s with nextId := s.nextId + 1 })

/-! ## Registers -/

def Core.s (c : Core) (r : SReg) : Word := if r = 0 then 0 else c.sreg.get r.toFin
def Core.v (c : Core) (r : VRegN) : VWord := c.vreg.get r.toFin
def Core.p (c : Core) (r : PReg) : PWord := if r = 0 then BitVec.allOnes 256 else c.preg.get r.toFin
def Core.h (c : Core) (r : Reg16) : HWord := c.hreg.get r.toFin
def Core.mp (c : Core) (r : MpReg) : Word := c.mpreg.get r.toFin
def Core.k (c : Core) (r : Reg16) : BitVec 32 := c.kreg.get r.toFin

def Core.setS (c : Core) (r : SReg) (x : Word) : Core :=
  if r = 0 then c else { c with sreg := c.sreg.set r.toNat x r.isLt }
def Core.setV (c : Core) (r : VRegN) (x mask : VWord) : Core :=
  { c with vreg := c.vreg.set r.toNat ((c.v r &&& ~~~mask) ||| (x &&& mask)) r.isLt }
def Core.setP (c : Core) (r : PReg) (x mask : PWord) : Core :=
  if r = 0 then c else { c with preg := c.preg.set r.toNat ((c.p r &&& ~~~mask) ||| (x &&& mask)) r.isLt }
def Core.setH (c : Core) (r : Reg16) (x : HWord) : Core := { c with hreg := c.hreg.set r.toNat x r.isLt }
def Core.setMp (c : Core) (r : MpReg) (x : Word) : Core := { c with mpreg := c.mpreg.set r.toNat x r.isLt }
/-- A counting barrier takes a value; a change of value is counted (03 R80). -/
def Core.setK (c : Core) (r : Reg16) (x : BitVec 32) : Core :=
  { c with
    kreg := c.kreg.set r.toNat x r.isLt
    kver := if c.k r = x then c.kver else c.kver.set r.toNat (c.kver.get r.toFin + 1) r.isLt }

/-- VALID cleared (09 Table 09-4). -/
def hInvalid (x : HWord) : HWord := x &&& ~~~(BitVec.ofNat 128 (2 ^ 127))
def Core.hinvAll (c : Core) : Core := { c with hreg := c.hreg.map hInvalid }

/-! ## CSRs (06 R144 to R149, 13 R372, R389) -/

def corecap (c : CoreId) : Word :=
  if c.isAttn then 0x1787CA31 else 0x0898BA31

def stridOf (st : Strand) : Word :=
  .ofNat 64 (b2n st.novdie * 2 ^ 34 + st.vdie % 4 * 2 ^ 32 + st.gangCount % 256 * 2 ^ 24 +
    st.gang % 256 * 2 ^ 16 + st.gangSize % 256 * 2 ^ 8 + st.lcore % 256)

/-- The value of a CSR; none where the number is unassigned. -/
def Core.csr (c : Core) (n : Nat) : Option Word :=
  match n with
  | 0x000 => some c.flags
  | 0x001 => some c.mode
  | 0x002 => some (match c.strand with | some st => .ofNat 64 (st.ctx % 16) | none => 0)
  | 0x003 => some (match c.strand with | some st => stridOf st | none => 0)
  | 0x010 => some (corecap c.id)
  | 0x011 => some c.layoutId
  | 0x012 => some c.hashKey
  | 0x020 => some c.freezeCnt
  | 0x021 => some c.issueCnt
  | 0x030 => some (c.rx.setWidth 64)
  | 0x040 => some c.errInj
  | 0x050 => some c.tvec
  | 0x051 => some c.tcause
  | 0x052 => some c.tdetail
  | 0x053 => some c.tval
  | 0x054 => some c.tepc
  | 0x056 => some c.rcvstat
  | 0x058 => some (c.tscr.get 0)
  | 0x059 => some (c.tscr.get 1)
  | 0x05A => some (c.tscr.get 2)
  | 0x05B => some (c.tscr.get 3)
  | _ => none

/-- CSRs with a field that a program writes (06 Table 06-3, 13 Table 13-2). -/
def csrWritable (n : Nat) : Bool :=
  n == 0x000 || n == 0x001 || n == 0x030 || n == 0x040 || n == 0x050 || (0x058 ≤ n && n ≤ 0x05B)

def flagsMask : Word := 0x7F7F
def errInjMask : Word := 0x8FFF0000FFFFFFFF

/-- An armed ERRINJ value whose target or bit is out of range is ignored (13 R389). -/
def errInjOk (x : Word) : Bool :=
  let t := bitsAt x.toNat 56 4
  let b := bitsAt x.toNat 48 8
  !x.getLsbD 63 ||
    (1 ≤ t && t ≤ 6 && ((t != 1 && t != 2) || b < 64) && (t != 5 || b < 80) && (t != 6 || b < 46))

/-- The writable fields of CSR `n` take `x` (06 R145, 02 R58). -/
def Core.setCsr (c : Core) (n : Nat) (x : Word) : Core :=
  match n with
  | 0x000 => { c with flags := x &&& flagsMask }
  | 0x001 => if x &&& 3 = 3 then c else { c with mode := (c.mode &&& ~~~3) ||| (x &&& 3) }
  | 0x030 => { c with rx := c.rx &&& ~~~(x.setWidth 8) }
  | 0x040 => if errInjOk x then { c with errInj := x &&& errInjMask } else c
  | 0x050 => { c with tvec := x &&& 0xFFFFFFFE }
  | 0x058 => { c with tscr := c.tscr.set 0 x }
  | 0x059 => { c with tscr := c.tscr.set 1 x }
  | 0x05A => { c with tscr := c.tscr.set 2 x }
  | 0x05B => { c with tscr := c.tscr.set 3 x }
  | _ => c

/-! ## Fields of MODE (02 Table 02-10) -/

def Core.modeField (c : Core) (lo n : Nat) : Nat := bitsAt c.mode.toNat lo n
/-- CONTRACT in force: a handler runs under INTERLOCK (13 R375). -/
def Core.contract (c : Core) : Nat := if c.snap.isSome then 2 else c.modeField 0 2
def Core.order (c : Core) : Nat := c.modeField 2 2
def Core.detAtomic (c : Core) : Bool := c.modeField 4 1 == 1
def Core.recovEn (c : Core) : Bool := c.modeField 7 1 == 1
def Core.retryLimit (c : Core) : Nat := c.modeField 8 2

/-! ## Pending writes (05 R116, R117) -/

/-- A write that falls due `lat` ticks from now, with the flags its operation raises; `arith` is the
horizon class of 13 R384. -/
def Core.post (c : Core) (lat : Nat) (w : Wr) (fl : Flags) (arith : Bool) : Core :=
  { c with
    pend := c.pend ++ [{ due := c.tick + lat, no := c.issueNo, wr := w, fl := fl, walk := none }]
    inst := { c.inst with horizon := max c.inst.horizon (c.tick + lat + if arith then 24 else 16) } }

/-- A write to a scalar register of the focus core. -/
def State.postS (s : State) (lat : Nat) (r : SReg) (x : Word) (fl : Flags) : State :=
  s.onCore fun c => c.post lat (.s r x) fl true
/-- A write that is no arithmetic result. -/
def State.postMove (s : State) (lat : Nat) (w : Wr) : State := s.onCore fun c => c.post lat w 0 false
def State.postV (s : State) (lat : Nat) (w : Wr) (fl : Flags) (arith : Bool) : State :=
  s.onCore fun c => c.post lat w fl arith

/-- The register a write names; none for a discarded write (05 R113). -/
def Wr.reg : Wr → List RegName
  | .s r _ => if r = 0 then [] else [.s r]
  | .v r _ _ => [.v r]
  | .p r _ _ => if r = 0 then [] else [.p r]
  | .h r _ => [.h r]
  | .hInv r => [.h r]
  | .hKeep r => [.h r]
  | .hInvAll => (List.range 16).map fun i => .h (.ofNat 4 i)
  | .mp r _ => [.mp r]
  | .kSet r _ => [.k r]
  | .kAdd r _ => [.k r]
  | .csr n _ => [.csr n]
  | .link _ => [.s 63]
  | .vlda _ r _ _ _ _ _ => [.v r]
  | .vsta .. => []
  | .none => []

/-! ## Masters (04 Table 04-9) -/

/-- VIOLOG1.MASTER: chip, die, kind, unit. -/
def masterOf (chip die kind unit : Nat) : Nat := chip % 64 * 2 ^ 11 + die % 8 * 2 ^ 8 + kind % 4 * 2 ^ 6 + unit % 64
def State.coreMaster (s : State) (c : CoreId) (kind : Nat) : Nat :=
  masterOf s.rhoath.chip c.die.code kind c.num

/-! ## Mirrors and dies in reset (14 R409 to R411, 09 R268) -/

/-- The mirror entry of die `d` that protects offset `o`: its BASE and MBASE in bytes. -/
def Die.mirror (d : Die) (o : Nat) : Option (Nat × Nat) :=
  (List.range 8).findSome? fun n =>
    let q (i : Nat) : Nat := d.nat (0xA600 + n * 0x20 + i * 8)
    let base := bitsAt (q 0) 30 19 * 2 ^ 30
    if bitAt (q 0) 63 && base ≤ o && o < (bitsAt (q 1) 30 19 + 1) * 2 ^ 30 then some (base, bitsAt (q 2) 30 19 * 2 ^ 30)
    else none

/-- Where a protected address of a removed die is served: at its mirror on the twin. -/
def State.redirect (s : State) (pa : Nat) : Nat :=
  match paDie pa with
  | some d =>
    let o := pa % 2 ^ 49
    if (s.die d).removed && o < dramSize d then
      match (s.die d).mirror o with
      | some (b, m) => dieBase d.twin + m + (o - b)
      | none => pa
    else pa
  | none => pa

def State.down (s : State) (d : DieId) : Bool := !(s.die d).uncoreUp
/-- Is the address on a die that answers? -/
def State.answers (s : State) (pa : Nat) : Bool :=
  match paDie (s.redirect pa) with | some d => !s.down d | none => false

/-- Does [pa, pa + n) touch a page that Rhoath retired (14 R413)? -/
def State.retired (s : State) (pa n : Nat) : Bool :=
  s.rhoath.retPages.any fun x =>
    let a := dieBase x.1 + x.2 * 0x8000
    a < pa + n && pa < a + 0x8000

/-- Does `pa` lie in a mirror range? Only the DRAM controllers write there, and, once the protected die is gone, accesses that the
fabric has redirected (14 R409, R411). -/
def State.inMirror (s : State) (pa : Nat) : Bool :=
  match paDie pa with
  | none => false
  | some d =>
    let t := s.die d.twin
    pa % 2 ^ 49 < dramSize d && (List.range 8).any fun n =>
      let q (i : Nat) : Nat := t.nat (0xA600 + n * 0x20 + i * 8)
      let m := bitsAt (q 2) 30 19
      let g := pa % 2 ^ 49 / 2 ^ 30
      bitAt (q 0) 63 && bitsAt (q 0) 30 19 ≤ bitsAt (q 1) 30 19 && m ≤ g && g ≤ m + (bitsAt (q 1) 30 19 - bitsAt (q 0) 30 19)

/-- Does `pa`, where an access performs, lie in a mirror range that no access is redirected to, since its protected die is there? -/
def State.mirrorLive (s : State) (pa : Nat) : Bool :=
  s.inMirror pa && match paDie pa with | some d => !(s.die d.twin).removed | none => false
/-- Does an access name an address in a mirror range that serves redirected accesses: one that no page table gives (R409)? -/
def State.mirrorNamed (s : State) (pa : Nat) : Bool := s.inMirror pa && !s.mirrorLive pa
/-- Where the fabric takes an access that names `pa`: to its mirror where that is redirected. One that names a mirror range itself, by
a handle or a cached translation older than the MIRRORCFG write, goes to no die: its number is 2^52 above `pa`, so that the endpoint
refuses it as a reserved offset (14 R409, R411). -/
def State.route (s : State) (pa : Nat) : Nat := if s.inMirror pa then pa + 2 ^ 52 else s.redirect pa

/-- Eight bytes of a record that a unit of a die writes at `pa`: to memory and, where it is protected, to its mirror, without
a stay in the shared cache (log 19). Nothing is written where no memory answers, in a mirror range or on a retired page. -/
def State.wrRec (s : State) (pa v : Nat) : State :=
  let direct := s.inMirror pa
  let pa := s.redirect pa
  if direct || !s.answers pa || (placeOf pa).isReserved || s.retired pa 8 then s
  else
    let s := s.wr pa 8 v
    match paDie pa with
    | some d =>
      let o := pa % 2 ^ 49
      match (s.die d).mirror o with
      | some (b, m) => if (s.die d.twin).removed then s else s.wr (dieBase d.twin + m + (o - b)) 8 v
      | none => s
    | none => s

/-! ## Records -/

/-- A 32-byte record to a wrapping ring: BASE and SIZE_LOG2 in register `ring`, the free-running count in
register `cnt`. A ring that is off only counts (03 R64). -/
def State.ringPut (s : State) (d : DieId) (ring cnt : Nat) (q0 q1 q2 q3 : Nat) : State :=
  let r := s.reg d ring
  let n := s.reg d cnt
  let lg := bitsAt r 0 5
  let s := s.setReg d cnt (n + 1)
  if lg = 0 then s
  else
    let a := bitsAt r 12 40 * 2 ^ 12 + n % 2 ^ lg * 32
    (((s.wrRec a q0).wrRec (a + 8) q1).wrRec (a + 16) q2).wrRec (a + 24) q3

/-- A fault record on the fault ring of die `d` (09 R256). -/
def State.faultRec (s : State) (d : DieId) (ctx kind va pa detail master : Nat) : State :=
  let s := s.now
  s.ringPut d 0xA110 0xA118 (ctx % 16 * 2 ^ 56 + kind % 256 * 2 ^ 48 + s.frame.toNat) (va % 2 ^ 64) (pa % 2 ^ 52)
    (detail % 2 ^ 32 * 2 ^ 32 + master)

/-- Is the application core there: one of the eight of a memory die whose uncore is up (01 R36, R37, R39)? -/
def State.appUp (s : State) (app : AppCore) : Bool := app.die.isMem && app.num < 8 && !s.down app.die
/-- What a write by an application core does; one that is not there writes nothing. -/
def State.byApp (s : State) (app : AppCore) (k : Out) : Out := if s.appUp app then k else .next s

/-- A write that a rule ignores, counted once in ACCVIOL (01 R44). -/
def State.accViol (s : State) (d : DieId) (off : Nat) (app : AppCore) : State :=
  let n := bitsAt (s.reg d 0x3F10) 48 16
  s.setReg d 0x3F10 (satTo 0xFFFF (n + 1) * 2 ^ 48 +
    masterOf s.rhoath.chip app.die.code 3 app.num * 2 ^ 24 + off % 2 ^ 24)

/-! ## The page walker (09 R242 to R247) -/

def pageBytes (size : Nat) : Nat := 2 ^ (15 + 4 * size)

/-- The end of the extent of addressable bytes that holds `pa`, none where `pa` is reserved. -/
def extentEnd (pa : Nat) : Option Nat :=
  match paDie pa with
  | none => if inMailbox pa then some (mailboxBase + 2 ^ 32) else none
  | some d =>
    let b := dieBase d
    match placeOf pa with
    | .dram => some (b + dramSize d)
    | .deep => some (b + 0x140020000000)
    | .bank c _ _ => some (b + 0x100000000000 + c * 0x2000000 + bankCount d * 0x80000)
    | .nsp n _ => some (nspBase ⟨d, n⟩ + nspSize ⟨d, n⟩)
    | .acc n _ => some (accBase ⟨d, n⟩ + 10 * accEntries ⟨d, n⟩)
    | .window _ => some (b + 0x1F0100000000)
    | .reserved => none

/-- Is every byte of [pa, pa + n) addressable? `fuel` bounds the number of extents. -/
def addressable : Nat → Nat → Nat → Bool
  | 0, _, _ => false
  | fuel + 1, pa, n =>
    match extentEnd pa with
    | none => false
    | some e => pa + n ≤ e || addressable fuel e (n - (e - pa))

/-- A leaf: SIZE, the rights A, W, R, and the page's physical base. -/
structure Leaf where
  size : Nat
  a : Bool
  w : Bool
  r : Bool
  base : Nat
  deriving DecidableEq, Repr

/-- The result of a walk: the leaf, if the page is present, and the level of an entry rejected under
R243. -/
structure WalkRes where
  leaf : Option Leaf
  bad : Option Nat
  deriving DecidableEq, Repr

def vaIndex (va : Nat) : Nat → Nat
  | 3 => bitsAt va 51 5
  | 2 => bitsAt va 39 12
  | 1 => bitsAt va 27 12
  | _ => bitsAt va 15 12

/-- May a leaf of SIZE `z` stand at the level (09 Table 09-1)? -/
def leafSizeOk (level z : Nat) : Bool := (level == 1 && z == 3) || (level == 0 && z < 3)

/-- Where a walk for `va` reads its entry in the node at `node` on `level`. -/
def State.pteAddr (s : State) (va level node : Nat) : Nat := s.redirect (node + 8 * vaIndex va level)
/-- That entry; one on a die that does not answer, on a retired page or in a mirror range is not valid (log 17). -/
def State.pteAt (s : State) (va level node : Nat) : Nat :=
  let a := s.pteAddr va level node
  if s.answers a && !s.inMirror node && !s.retired a 8 then s.rd a 8 else 0
/-- The walk from the node at `node` on `level`, for `level + 1` levels. -/
def walkFrom (s : State) (va : Nat) : Nat → Nat → WalkRes
  | level, node =>
    let e := s.pteAt va level node
    let next := bitsAt e 15 37 * 2 ^ 15
    let size := bitsAt e 2 2
    let reject : WalkRes := ⟨none, some level⟩
    if !bitAt e 0 then ⟨none, none⟩
    else if bitsAt e 52 4 ≠ 0 || bitsAt e 7 8 ≠ 0 then reject
    else if bitAt e 1 then
      if leafSizeOk level size && next % pageBytes size = 0 && addressable 8 next (pageBytes size) &&
          !s.retired next (pageBytes size) && !s.inMirror next then
        ⟨some ⟨size, bitAt e 6, bitAt e 5, bitAt e 4, next⟩, none⟩
      else reject
    else
      match level with
      | 0 => reject
      | l + 1 =>
        if size ≠ 0 || bitsAt e 4 3 ≠ 0 || !addressable 1 next 0x8000 || s.retired next 0x8000 || s.inMirror next then reject
        else walkFrom s va l next

/-- The dies whose memory a walk from the node at `node` on `level` reads. -/
def walkDiesFrom (s : State) (va : Nat) : Nat → Nat → List DieId
  | level, node =>
    (paDie (s.pteAddr va level node)).toList ++
      match level with
      | 0 => []
      | l + 1 =>
        let e := s.pteAt va (l + 1) node
        if bitAt e 0 && !bitAt e 1 then walkDiesFrom s va l (bitsAt e 15 37 * 2 ^ 15) else []

/-- A die that is up: every such die holds the same CTXMMU registers (R245). -/
def State.mmuDie (s : State) : DieId := (DieId.all.find? fun d => !s.down d).getD .cd0
/-- The walk of `va` in context `ctx` (R245: EN = 0 finds every page absent). -/
def State.walkVa (s : State) (ctx va : Nat) : WalkRes :=
  let m := s.reg s.mmuDie (0xA000 + ctx % 16 * 0x10)
  if !bitAt m 0 then ⟨none, none⟩ else walkFrom s va 3 (bitsAt m 15 37 * 2 ^ 15)

/-- The dies whose memory that walk reads. -/
def State.walkDies (s : State) (ctx va : Nat) : List DieId :=
  let m := s.reg s.mmuDie (0xA000 + ctx % 16 * 0x10)
  if !bitAt m 0 then [] else walkDiesFrom s va 3 (bitsAt m 15 37 * 2 ^ 15)

/-- The physical address of `va` with the leaf that maps it. -/
def State.translate (s : State) (ctx va : Nat) : Option (Leaf × Nat) :=
  (s.walkVa ctx va).leaf.map fun l => (l, l.base + va % pageBytes l.size)

/-- The BAD_PTE record of a walk that rejected an entry (09 R243). -/
def State.badPteRec (s : State) (d : DieId) (ctx va : Nat) (w : WalkRes) (master : Nat) : State :=
  match w.bad with
  | some l => s.faultRec d ctx 0x03 va 0 l master
  | none => s

/-- VA[55:0] sign-extended (09 R242). -/
def canonVa (va : Nat) : Nat := if bitAt va 55 then va % 2 ^ 56 + (2 ^ 64 - 2 ^ 56) else va % 2 ^ 56
def isCanon (va : Nat) : Bool := bitsAt va 55 9 == 0 || bitsAt va 55 9 == 2 ^ 9 - 1

/-- A handle of VA page `vpage` and context from a walk's result (09 Table 09-4). -/
def mkHandle (vpage ctx : Nat) (w : WalkRes) (valid : Bool) : HWord :=
  let q0 := 2 ^ 63 + vpage % 2 ^ 41 * 2 ^ 15 + ctx % 16
  match valid, w.leaf with
  | true, some l =>
    .ofNat 128 (q0 + 2 ^ 62 + l.size * 2 ^ 60 + b2n l.a * 2 ^ 59 + b2n l.w * 2 ^ 58 + b2n l.r * 2 ^ 57 +
      (2 ^ 63 + l.base) * 2 ^ 64)
  | true, none => .ofNat 128 (q0 + 2 ^ 63 * 2 ^ 64)
  | false, _ => .ofNat 128 q0

def hInit (h : HWord) : Bool := h.getLsbD 63
def hPresent (h : HWord) : Bool := h.getLsbD 62
def hSize (h : HWord) : Nat := bitsAt h.toNat 60 2
def hA (h : HWord) : Bool := h.getLsbD 59
def hW (h : HWord) : Bool := h.getLsbD 58
def hR (h : HWord) : Bool := h.getLsbD 57
def hVpage (h : HWord) : Nat := bitsAt h.toNat 15 41
def hCtx (h : HWord) : Nat := bitsAt h.toNat 0 4
def hValid (h : HWord) : Bool := h.getLsbD 127
def hPbase (h : HWord) : Nat := bitsAt h.toNat 79 37 * 2 ^ 15
/-- The VA of offset `off` of the handle's page. -/
def hVa (h : HWord) (off : Nat) : Nat :=
  let b := hVpage h * 2 ^ 15
  canonVa ((if hPresent h && hValid h then b - b % pageBytes (hSize h) else b) + off)

/-- The translation of `va` that core `c` has cached (09 R244). -/
def Core.cached (c : Core) (ctx va : Nat) : Option WalkRes :=
  (c.tlb.find? fun h => hCtx h == ctx % 16 && hVa h 0 ≤ canonVa va && canonVa va < hVa h 0 + pageBytes (hSize h)).map fun h =>
    ⟨some ⟨hSize h, hA h, hW h, hR h, hPbase h⟩, none⟩
/-- A translation of core `id`: a walk, or the cached one where the core still holds it (a free choice, log 94). -/
def State.lookup (s : State) (id : CoreId) (ctx va : Nat) : WalkRes :=
  match (s.getCore id).cached ctx va with
  | some r => if Config.choose s.free % 2 = 0 then r else s.walkVa ctx va
  | none => s.walkVa ctx va
/-- The dies whose memory that translation reads. -/
def State.lookupDies (s : State) (id : CoreId) (ctx va : Nat) : List DieId :=
  match (s.getCore id).cached ctx va with
  | some _ => if Config.choose s.free % 2 = 0 then [] else s.walkDies ctx va
  | none => s.walkDies ctx va
/-- The core with a present translation in its cache. -/
def Core.keepWalk (c : Core) (ctx va : Nat) (r : WalkRes) : Core :=
  if r.leaf.isNone || c.cached ctx va == some r then c
  else { c with tlb := mkHandle (bitsAt va 15 41) ctx r true :: c.tlb.filter fun h => !(hCtx h == ctx % 16 &&
    hVa h 0 ≤ canonVa va && canonVa va < hVa h 0 + pageBytes (hSize h)) }

/-! ## Tasks -/

def State.findTask (s : State) (t : TaskId) : Option Task := s.tasks.find? (·.id == t)
def State.updTask (s : State) (t : TaskId) (f : Task → Task) : State :=
  { s with tasks := s.tasks.map fun x => if x.id = t then f x else x }
def Task.updGang (t : Task) (g : Nat) (f : Gang → Gang) : Task :=
  { t with gangs := t.gangs.map fun x => if x.idx = g then f x else x }

/-- A gang all of whose strands have ended is done; one that is to stop waits for admission again once none of its strands
runs (03 R73, R75, R79, 14 R399). -/
def Gang.settle (g : Gang) (size : Nat) : Gang :=
  if size ≤ g.ended.length then { g with state := .done, cores := [], loaded := [] }
  else if (g.state = .stopping && g.loaded.all (g.ended.contains ·)) ||
      (List.range size).all (fun i => g.saved.contains i || g.ended.contains i) then
    { g with state := .waiting, cores := [], loaded := [], since := none }
  else g

/-! ## Engines' view of the counters -/

/-- A counting barrier changed by an engine or a home slice (06 R162, R176); `cmd` is the instance of the
command that changes it, which decides whether the open instance's record follows (13 R387). -/
def Core.engineK (c : Core) (r : Reg16) (f : BitVec 32 → BitVec 32) (cmd : Option Nat) : Core :=
  let c := { c.setK r (f (c.k r)) with
    wait := match c.wait with | some (.wfe _) => some (.wfe true) | w => w }
  if cmd = some c.inst.id then c
  else { c with inst := { c.inst with k := c.inst.k.set r.toNat (f (c.inst.k.get r.toFin)) r.isLt } }

/-- A wait for events wakes up (06 R176). -/
def Core.wake (c : Core) : Core :=
  { c with wait := match c.wait with | some (.wfe _) => some (.wfe true) | w => w }

/-! ## Region instances (13 R380 to R382, R387) -/

/-- The budget of the region entry that holds code offset `off`; 0 if none does (13 R380). -/
def regionBudget (l : List Region) (off : Nat) : Nat :=
  match l.find? fun r => r.start ≤ off && off ≤ r.last with
  | some r => r.budget
  | none => 0

/-- A landing with its tick counted from `base`, and back. -/
def Landing.rel (base : Nat) (l : Landing) : Landing := { l with due := l.due - base }
def Landing.abs (base : Nat) (l : Landing) : Landing := { l with due := l.due + base }

/-- A new instance of the focus core begins at its pc (13 R380, R381). `amo` says that it begins at the
implied COMMIT of a returning atomic. -/
def State.beginInst (s : State) (amo : Bool) : State :=
  let c := s.core
  let bud := match c.strand with | some st => regionBudget st.regions c.pc | none => 0
  { s with
    nextId := s.nextId + 1
    core := { c with
      inst := { id := s.nextId, pc := c.pc, loops := c.loops, k := c.kreg, flags := c.flags, rx := c.rx,
                efmt := c.efmt, efmtPend := c.efmtPend.map fun x => (x.1 - c.issueNo, x.2), budget := bud,
                used := 0, start := c.tick + c.dead, horizon := 0, wallHorizon := 0, implied := amo, amoSent := 0, amoSeen := 0,
                carried := c.arb.map (·.rel (c.tick + c.dead)) }
      rcvstat := c.rcvstat &&& ~~~3
      atCommit := true
      implied := amo } }

/-- The wait of a BAR, SSTEP or DRAIN that stands before the open instance's first bundle (13 R390). -/
def Core.entryWait (c : Core) : Option Wait :=
  match c.wait, c.snap with
  | some (.barrier b n), _ => some (.barrier b n)
  | some .drain, _ => some .drain
  | _, some n =>
    match n.wait with
    | some (.barrier b k) => some (.barrier b k)
    | some .drain => some .drain
    | _ => none
  | _, none => none

/-- The core with its open instance discarded and set to the instance's entry (13 R387). -/
def Core.rewind (c : Core) : Core :=
  let i := c.inst
  { c with
    snap := none, syncq := [], trapq := [], pend := [], latch := [], grp := ⟨0, []⟩
    arb := i.carried.map (·.abs c.tick)
    xmq := c.xmq.filter (·.inst != i.id)
    ceq := c.ceq.filter (·.inst != i.id)
    xmRun := c.xmRun.filter (·.ent.inst != i.id)
    xmDrain := c.xmDrain.filter (·.ent.inst != i.id)
    ceRun := c.ceRun.filter (·.ent.inst != i.id)
    trellis := c.trellis.filter fun e => e.committed || e.inst != i.id
    kreg := i.k, rx := c.rx ||| i.rx, flags := i.flags, efmt := i.efmt
    efmtPend := i.efmtPend.map fun x => (x.1 + c.issueNo, x.2)
    loops := i.loops, pc := i.pc, issue := 0, dead := 0, wait := c.entryWait, frozen := false, tiles := []
    atCommit := true, implied := i.implied
    inst := { i with used := 0, start := c.tick, horizon := 0, wallHorizon := 0, amoSeen := 0 }
    injected := [], ictx := ICtx.reset }

/-- Does an access belong to the open instance of core `c` and fall with it: held effects and landing
accesses, but not the atomic behind an implied COMMIT (13 R386, 09 R265)? -/
def dropsWith (c : Core) (a : Access) : Bool :=
  a.app.isNone && a.core == c.id && a.inst == c.inst.id &&
    (a.held || match a.act with | .load => true | _ => false)

/-- Is an input a fault that a detector of core `id` has yet to report? It belongs to the open instance (13 R387). -/
def isDetected (id : CoreId) (i : Instr) : Bool := match i with | .detectorEvent c _ _ => c == id | _ => false
/-- The open instance of core `id` discarded, with what its detectors have not reported (13 R387, R389). -/
def State.discard (s : State) (id : CoreId) : State :=
  let c := s.getCore id
  let s := { s with
    inputs := s.inputs.filter fun i => !isDetected id i
    flight := s.flight.filter fun a => !dropsWith c a
    effects := s.effects.filter fun e => !(e.core == id && e.inst == c.inst.id && !e.committed) }
  s.setCore c.rewind

/-- The engines and the log of a core hold nothing. -/
def Core.idle (c : Core) : Bool :=
  c.trellis.isEmpty && c.xmq.isEmpty && c.ceq.isEmpty && c.xmRun.isNone && c.xmDrain.isEmpty && c.ceRun.isEmpty

/-- The core without its strand. -/
def Core.free (c : Core) : Core :=
  { c with
    lastCtx := match c.strand with | some st => some st.ctx | none => c.lastCtx
    strand := none, wait := none, frozen := false, ended := false, stop := false, stopping := none, latch := [], snap := none
    syncq := [], trapq := [], pend := [], arb := [], loops := [] }

/-- One strand's core at the early end of its task (03 R75): the open region is discarded, the strand
stops, and the core is free once its log and engines are empty. -/
def State.stopStrand (s : State) (id : CoreId) : State :=
  let s := s.discard id
  s.updCore id fun c =>
    let c := { c with arb := [], inst := { c.inst with carried := [] } }
    if c.idle then c.free else { c with ended := true, wait := some .exited }

/-- The endpoints whose bindings `p` takes are free (10 R297). -/
def State.unbindWhere (s : State) (p : Binding → Bool) : State :=
  { s with dies := s.dies.map fun d =>
      { d with ports := d.ports.map (fun x => { x with bind := x.bind.filter (!p ·) }), chans := d.chans.filter fun x => !p x.2 } }

/-- Every strand of task `t` stops (03 R75, 14 R406): open regions are discarded. What has been stamped stays on its way; the
committed entries of the log of a stopped strand wait for their replay. -/
def State.stopTask (s : State) (t : TaskId) : State :=
  let s := s.unbindWhere fun b => b.task = t
  let ids := (s.cores.filter fun c => match c.strand with | some st => st.task == t | none => false).map (·.id)
  let old := (s.findTask t).map fun x => x.gangs.flatMap fun g => g.counts.flatMap fun k => k.2.logged.map fun e =>
    Effect.mk 0 k.2.core (some t) g.idx k.1 x.ctx e.inst true false (.logged { e with committed := true, ready := false })
  let old := (old.getD []).zipIdx.map fun x => { x.1 with id := s.nextId + x.2 }
  let s := s.updTask t fun x =>
    { x with gangs := x.gangs.map fun g => { g with counts := g.counts.map fun k => (k.1, { k.2 with logged := [] }) } }
  let unsent (a : Access) : Bool :=
    match a.act, a.stage with
    | .load, _ => true
    | .amo .., .walk | .amo .., .absent | .amo .., .away => true
    | _, _ => false
  let s := { s with
    nextId := s.nextId + old.length, effects := s.effects ++ old
    flight := (s.flight.filter fun a => !(a.task == some t && !a.held && unsent a)).map fun a =>
      if a.task = some t then { a with land := none } else a }
  ids.foldl (fun s i => s.stopStrand i) s
/-- Task `t` ends early with a status other than OK (03 R75). -/
def State.endTask (s : State) (t : TaskId) (status detail gang : Nat) : State :=
  (s.updTask t fun x =>
    { x with
      status := if x.status = 0 then status else x.status
      detail := if x.status = 0 then detail else x.detail
      statusGang := if x.status = 0 then gang else x.statusGang
      gangs := x.gangs.map fun g => { g with state := .done, ended := List.range 24 } }).stopTask t

/-! ## Traps (13 R371 to R378) -/

/-- The codes of 13 Table 13-1. -/
def trapCode : TrapName → Nat
  | .fetchRange => 0x01 | .illegalEncoding => 0x02 | .illegalGroup => 0x03 | .illegalCsr => 0x04
  | .hazard => 0x05 | .loopCount => 0x06 | .loopOverflow => 0x07 | .loopEmpty => 0x08 | .badEret => 0x09
  | .misaligned => 0x0A | .handleRange => 0x0B | .pageRights => 0x0C | .badHandle => 0x0D | .vaCanon => 0x0E
  | .scratchRange => 0x0F | .accRange => 0x10 | .badVdie => 0x11 | .arbourFull => 0x12
  | .regionBudget => 0x13 | .badEfmt => 0x14 | .noRoutine => 0x15 | .detFull => 0x16 | .soft => 0x17
  | .brk => 0x18 | .arith => 0x19 | .grant => 0x1A | .badPa => 0x1B | .homeDown => 0x1C | .seal => 0x1D
  | .copyStatus => 0x1E | .matrixStatus => 0x1F | .reservedCode => 0x20 | .trapqFull => 0x21
  | .handlerFault => 0x22

/-- The resuming class of 13 Table 13-1. -/
def trapResumes : TrapName → Bool
  | .hazard | .soft | .brk | .arith | .grant | .badPa | .homeDown | .seal | .copyStatus | .matrixStatus
  | .reservedCode => true
  | _ => false

/-- A fatal trap of the focus core's strand ends its task (13 R371). -/
def State.fatal (s : State) (n : TrapName) : State :=
  match s.core.strand with
  | some st => s.endTask st.task 8 (trapCode n) st.gang
  | none => s

/-- A write of the CT slot: the link of CALL and CALLR, the clearing of HINVALL (13 R378). -/
def Pend.isCt (p : Pend) : Bool := match p.wr with | .hInvAll | .link _ => true | _ => false

/-- A handler's entry (13 R375): the trap record, the snapshot, and the handler's first bundle at the
fourth tick after the trap. -/
def Core.enter (c : Core) (r : TrapReq) (async : Bool) (pc issue t : Nat) : Core :=
  { c with
    tcause := .ofNat 64 (issue % 16 * 2 ^ 36 + b2n async * 2 ^ 35 + min c.trapq.length 15 * 2 ^ 8 + trapCode r.name)
    tdetail := r.detail
    tval := r.val
    tepc := .ofNat 64 (pc % 2 ^ 32)
    snap := some { tick := t, pend := c.pend, arb := c.arb, latch := c.latch, grp := c.grp, loops := c.loops,
                   wait := c.wait, dead := c.dead, horizon := c.inst.horizon }
    inst := { c.inst with horizon := 0 }
    wait := none, frozen := false, pend := [], arb := [], latch := [], grp := ⟨0, []⟩
    pc := c.tvec.toNat, issue := 0, dead := 0
    tick := t + 4
    wall := c.wall + 3
    issueCnt := c.issueCnt + 3
    ictx := { c.ictx with moved := true } }

/-- The registers that an operation writes at once. -/
def Core.apply (c : Core) : Wr → Core
  | .s r x => c.setS r x
  | .v r x m => c.setV r x m
  | .p r x m => c.setP r x m
  | .h r x => c.setH r x
  | .hInv r => c.setH r (hInvalid (c.h r))
  | .hKeep _ => c
  | .hInvAll => c.hinvAll
  | .mp r x => c.setMp r x
  | .kSet r x => c.setK r x
  | .kAdd r x => c.setK r (c.k r + x)
  | .csr n x => c.setCsr n x
  | .link x => c.setS 63 x
  | .vlda .. | .vsta .. | .none => c

/-- The return from a handler (13 R377, R378), on the third tick after ERET: what the handler left pending
keeps its distance, what the snapshot holds falls due at its strand tick. -/
def Core.resume (c : Core) : Core :=
  match c.snap with
  | none => c
  | some n =>
    let shift (d : Nat) : Nat := d - c.tick + (n.tick + 1)
    let hor := max n.horizon (if c.inst.horizon = 0 then 0 else shift c.inst.horizon)
    { c with
      tick := n.tick + 1
      pend := n.pend ++ c.pend.map fun p => { p with due := shift p.due }
      arb := n.arb ++ c.arb.map fun a => { a with due := shift a.due }
      latch := n.latch, grp := n.grp, loops := n.loops, wait := n.wait
      dead := match n.wait with | some (.commit _) => max n.dead (hor - n.tick) | _ => n.dead
      pc := bitsAt c.tepc.toNat 0 32, issue := bitsAt c.tcause.toNat 36 4
      inst := { c.inst with horizon := hor }
      snap := none }

/-- The CT-slot writes that are due at t + 1, applied at a handler's entry (13 R378). -/
def Core.applyCt (c : Core) : Core :=
  (c.pend.filter (·.isCt)).foldl (fun c p => c.apply p.wr) { c with pend := c.pend.filter fun p => !p.isCt }

/-- The trap `r` of the focus core's strand, whose resume point is `pc`, `issue`, `t` the last strand tick
before it: TAKING AN EXCEPTION (13 R371, R373, R375, R376). A trap that ends the task leaves `r` in the
issue context. -/
def State.takeTrap (s : State) (r : TrapReq) (async : Bool) (pc issue t : Nat) : State :=
  if s.core.snap.isSome && !async then (s.fatal .handlerFault).onCore fun c =>
    { c with ictx := { c.ictx with trap := some r } }
  else if trapResumes r.name && s.core.tvec ≠ 0 then
    s.onCore fun c => c.applyCt.enter r async pc issue t
  else (s.fatal r.name).onCore fun c => { c with ictx := { c.ictx with trap := some r } }

/-- A trap taken at issue: the bundle has no effect (13 R373). -/
def State.issueTrap (s : State) (n : TrapName) (detail val : Nat) : State :=
  s.takeTrap ⟨n, .ofNat 64 detail, .ofNat 64 val⟩ false s.core.pc s.core.issue (s.core.tick - 1)

/-- A trap taken after its bundle's other slots have issued; the strand resumes at the next bundle. -/
def State.afterTrap (s : State) (n : TrapName) (detail val : Word) : State :=
  s.takeTrap ⟨n, detail, val⟩ false s.core.ictx.npc 0 s.core.tick

/-- A trap whose strand has ended shows in the status of its task, if that is still OK (00 R18, 09 R254; log 91). A strand of a task
that has restarted since has no gang any more. -/
def State.lateTrap (s : State) (t : TaskId) (g : Nat) (n : TrapName) : State :=
  s.updTask t fun x => if x.status = 0 && x.gangs.any (·.idx == g) then { x with status := 8, detail := trapCode n, statusGang := g } else x
/-- An asynchronous trap arrives at core `id` (13 R374). -/
def State.asyncTrap (s : State) (id : CoreId) (r : TrapReq) : State :=
  let c := s.getCore id
  match c.strand with
  | none => s
  | some st =>
    if c.ended then s.lateTrap st.task st.gang r.name
    else if 16 ≤ c.trapq.length then s.endTask st.task 8 (trapCode .trapqFull) st.gang
    else s.updCore id fun c => { c.wake with trapq := c.trapq ++ [r] }

/-- The core that holds a strand, ended or not. -/
def State.holderOf (s : State) (t : TaskId) (g l : Nat) : Option Core :=
  s.cores.find? fun c => match c.strand with
    | some st => st.task = t && st.gang == g && st.lcore == l
    | none => false
/-- The core on which a strand runs now. -/
def State.coreOf (s : State) (t : TaskId) (g l : Nat) : Option CoreId :=
  ((s.holderOf t g l).filter fun c => !c.ended).map (·.id)
/-- An asynchronous trap of a strand, wherever it is: running, stopped (log 91), or ended. -/
def State.strandTrap (s : State) (t : TaskId) (g l : Nat) (r : TrapReq) : State :=
  match s.holderOf t g l, (s.findTask t).bind fun x => x.gangs.find? (·.idx == g) with
  | some c, _ => s.asyncTrap c.id r
  | none, some y =>
    if y.ended.contains l then s.lateTrap t g r.name
    else if y.counts.any fun k => k.1 == l && 16 ≤ k.2.traps.length then s.endTask t 8 (trapCode .trapqFull) g
    else s.updTask t fun x => x.updGang g fun y =>
      { y with counts := y.counts.map fun k => if k.1 = l then (l, { k.2 with traps := k.2.traps ++ [r] }) else k }
  | none, none => s

/-! ## Error injection (13 R389) -/

def Core.injArmed (c : Core) : Bool := c.errInj.getLsbD 63
def Core.injTarget (c : Core) : Nat := bitsAt c.errInj.toNat 56 4
def Core.injBit (c : Core) : Nat := bitsAt c.errInj.toNat 48 8
def Core.injWhere (c : Core) : Nat := bitsAt c.errInj.toNat 0 32

/-- The armed injection of core `id` takes place: ARM clears and detector `num` will report. -/
def State.inject (s : State) (id : CoreId) (num : Nat) : State :=
  let s := s.updCore id fun c => { c with errInj := c.errInj &&& ~~~(BitVec.ofNat 64 (2 ^ 63)), injected := c.injected ++ [num] }
  { s with inputs := s.inputs ++ [.detectorEvent id num 0] }
/-- A read of `n` bytes of the near scratchpad of core `id` at linear offset `off` meets target 4. -/
def State.injNsp (s : State) (id : CoreId) (off n : Nat) : State :=
  let c := s.getCore id
  let w := c.injWhere - c.injWhere % 8
  if c.injArmed && c.injTarget == 4 && off < w + 8 && w < off + n then s.inject id 4 else s

/-! ## Falling due (05 R117, 06 R145, R146) -/

/-- The writes of one tick, in issue order. -/
structure Due where
  no : Nat
  wr : Wr
  fl : Flags
  trap : Option TrapReq
  deriving DecidableEq, Repr

def insDue (x : Due) : List Due → List Due
  | [] => [x]
  | y :: r => if y.no ≤ x.no then y :: insDue x r else x :: y :: r

/-- The lock-step writes and landings of core `c` that fall due at its tick. -/
def Core.dueNow (c : Core) : List Due :=
  let l := (c.pend.filter (·.due ≤ c.tick)).map fun p => Due.mk p.no p.wr p.fl none
  let m := (c.arb.filter (·.due ≤ c.tick)).map fun a => Due.mk a.no (a.wr.getD .none) a.fl a.trap
  m.foldl (fun acc x => insDue x acc) l

/-- Is everything that falls due now there: no landing without its data, no walk still running? -/
def Core.ready (c : Core) : Bool :=
  c.pend.all (fun p => c.tick < p.due || p.walk.isNone) && c.arb.all (fun a => c.tick < a.due || a.wr.isSome)

/-- Lane `i` of width `w` of a register. -/
def laneOf (x : VWord) (w i : Nat) : Nat := bitsAt x.toNat (w * i) w
/-- The register with lanes `l` of width `w`, the first in the low bits. -/
def packLanes (w : Nat) : List Nat → Nat
  | [] => 0
  | x :: r => x % 2 ^ w + 2 ^ w * packLanes w r
def ofLanes (w : Nat) (l : List Nat) : VWord := .ofNat 2048 (packLanes w l)

/-- Entry `e` of the accumulator memory of core `c`. -/
def State.accEntry (s : State) (c : CoreId) (e : Nat) : Nat := s.rd (accBase c + 10 * e) 10

/-- The entry conversion of VLDA (09 R264): A80 to F32, or an 80-bit integer to I32. -/
def vldaLane (int : Bool) (m : Rnd) (sm : Sat) (e : Nat) : Nat × Flags :=
  if int then
    let i := (IFmt.mk 80 true).toInt e
    ((IFmt.mk 32 true).wrap (if sm ≠ .none then (IFmt.mk 32 true).clamp i else i), 0)
  else convert fp32 m sm (decodeVal a80 e)

/-- The entry that VSTA writes (09 R264): F32 as A80 exactly, or I32 sign-extended. -/
def vstaEntry (int : Bool) (x : Nat) : Nat × Flags :=
  if int then ((IFmt.mk 80 true).wrap ((IFmt.mk 32 true).toInt x), 0)
  else convert a80 .rne .none (decodeVal fp32 x)

def orFlags (l : List Flags) : Flags := l.foldl (· ||| ·) 0

/-- One of the values `l` or `x`, by the free choice number `k` (log 2). -/
def pickFrom (l : List Nat) (x k : Nat) : Nat :=
  if l.isEmpty then x else (x :: l).getD (Config.choose k % (l.length + 1)) x

/-- A write of an accumulator entry. -/
def State.setAccEntry (s : State) (c : CoreId) (e v : Nat) : State := s.wr (accBase c + 10 * e) 10 v

/-- The value that an engine replaces in entry `e`, noted for every VLDA that has issued and not landed (09 R264). -/
def noteOld (e old : Nat) (l : Landing) : Landing :=
  match l.wr with
  | some (.vlda int r b mask m sm olds) =>
    if b ≤ e && e < b + 64 then { l with wr := some (.vlda int r b mask m sm ((e, old) :: olds)) } else l
  | _ => l
/-- fold of an entry, and the signature of a row (11 R310). -/
def foldEntry (x : Nat) : Word := .ofNat 64 (x + x / 2 ^ 64)
def Core.sig (c : Core) (r : Nat) : Word := match c.rowSig.find? (·.1 == r) with | some x => x.2 | none => 0
def Core.setSig (c : Core) (r : Nat) (x : Word) : Core := { c with rowSig := (r, x) :: c.rowSig.filter (·.1 != r) }
/-- A write of entry `e` whose signature takes the value `v` and whose memory takes `w`. -/
def State.signedEntry (s : State) (c : CoreId) (e v w : Nat) : State :=
  let r := e / accCols c
  let d := foldEntry v - foldEntry (s.accEntry c e)
  (s.updCore c fun k => k.setSig r (k.sig r + d)).setAccEntry c e w

/-- A write of entry `e` of core `c` by a routine; an armed injection of target 5 inverts a bit of what is stored
(13 R389). -/
def State.routineEntry (s : State) (c : CoreId) (e v : Nat) : State :=
  let k := s.getCore c
  let old := s.accEntry c e
  let hit := k.injArmed && k.injTarget == 5 && k.injWhere == e
  let s := s.updCore c fun k =>
    { k with
      errInj := if hit then k.errInj &&& ~~~(BitVec.ofNat 64 (2 ^ 63)) else k.errInj
      arb := k.arb.map (noteOld e old)
      inst := { k.inst with carried := k.inst.carried.map (noteOld e old) }
      snap := k.snap.map fun n => { n with arb := n.arb.map (noteOld e old) } }
  s.signedEntry c e v (if hit then v ^^^ 2 ^ k.injBit else v)

/-! ## The two views of the near scratchpad (09 R258 to R260) -/

/-- Is a routine started on the core that has yet to read its operands? -/
def Core.rtOpen (c : Core) : Bool :=
  match c.xmRun with
  | some r => !r.ran && match r.ent.op with | .mcall .. => true | _ => false
  | none => false
/-- The granules of the linear view that bytes [a, a + n) touch. -/
def granules (a n : Nat) : List Nat := (List.range ((a + n + 7) / 8 - a / 8)).map (a / 8 + ·)
/-- The granules of the near scratchpad of core `id` that a write which no token orders is about to replace while a routine runs, with what
they hold (11 R318). -/
def State.noteDuring (s : State) (id : CoreId) (gs : List Nat) : State :=
  s.updCore id fun c =>
    if c.rtOpen then { c with during := c.during ++ gs.map fun g => (g, s.rd (nspBase id + 8 * g) 8) } else c
/-- The notes `l` of granules that copies have replaced, without those whose token `done` takes, and without the earlier ones of the same
granules: what is ordered after a write is ordered after those that it replaced (11 R318, 15 R425). -/
def dropOld (done : BitVec 6 → Bool) : List (Nat × Nat × BitVec 6) → List (Nat × Nat × BitVec 6)
  | [] => []
  | x :: r =>
    if done x.2.2 || r.any (fun y => y.1 == x.1 && done y.2.2) then dropOld done r else x :: dropOld done r

/-- Bytes [lo, lo + 8) of a granule replaced by those of `new` where `f` holds. -/
def overlay8 (f : Nat → Bool) (old new : Nat) : Nat :=
  bytesNat ((List.range 8).map fun i => .ofNat 8 (bitsAt (if f i then new else old) (8 * i) 8))

/-- The near scratchpad of core `id` after a write, in view `swz`, of the bytes of granule `g` that `f` names,
with the contents `new`: until a JOIN, a reader of the other view may still see what stood there. -/
def State.nspGranule (s : State) (id : CoreId) (swz : Bool) (g : Nat) (f : Nat → Bool) (new : Nat) : State :=
  let a := nspBase id + 8 * g
  let old := s.rd a 8
  let s := s.updCore id fun c =>
    let l := c.stale.map fun x => if x.1 = g && x.2.1 != swz then (g, x.2.1, overlay8 f x.2.2 new) else x
    { c with stale := if l.contains (g, swz, old) then l else l ++ [(g, swz, old)] }
  s.wr a 8 (overlay8 f old new)

/-- A write of bytes at linear offset `off`. -/
def State.nspWrite (s : State) (id : CoreId) (swz : Bool) (off : Nat) (l : List Byte) : State :=
  let v := bytesNat l
  ((List.range ((off + l.length + 7) / 8 - off / 8)).map (off / 8 + ·)).foldl (fun s g =>
    s.nspGranule id swz g (fun i => off ≤ 8 * g + i && 8 * g + i < off + l.length)
      (if 8 * g < off then v * 2 ^ (8 * (off - 8 * g)) else v / 2 ^ (8 * (8 * g - off)))) s

/-- Granule `g` as a reader of view `swz` sees it (a free choice where an unjoined write of the other view stands). -/
def State.nspSees (s : State) (id : CoreId) (swz : Bool) (g : Nat) : Nat :=
  pickFrom (((s.getCore id).stale.filter fun x => x.1 == g && x.2.1 != swz).map (·.2.2)) (s.rd (nspBase id + 8 * g) 8)
    (s.free * 2 ^ 20 + g + 1)
/-- `n` bytes from linear offset `off`. -/
def State.nspRead (s : State) (id : CoreId) (swz : Bool) (off n : Nat) : List Byte :=
  if (s.getCore id).stale.isEmpty then s.rdBytes (nspBase id + off) n
  else (List.range n).map fun i => .ofNat 8 (bitsAt (s.nspSees id swz ((off + i) / 8)) (8 * ((off + i) % 8)) 8)

/-- The state after a read that may have met a free choice. -/
def State.nspSeen (s : State) (id : CoreId) : State :=
  if (s.getCore id).stale.isEmpty then s else { s with free := s.free + 1 }

/-- The record of the open instance takes the value that a carried VLDA delivers now (13 R381, R386). -/
def Core.recordVlda (c : Core) (w now : Wr) (fl : Flags) : Core :=
  let g (l : Landing) : Landing :=
    if l.wr = some w && l.due + c.inst.start ≤ c.tick then { l with wr := some now, fl := l.fl ||| fl } else l
  { c with inst := { c.inst with carried := c.inst.carried.map g } }

/-- One due write on the focus core; the flags that it raises itself (VLDA, VSTA). -/
def State.applyDue (s : State) (w : Wr) : State × Flags :=
  match w with
  | .vlda int r e mask m sm olds =>
    let val (i : Nat) : Nat :=
      pickFrom ((olds.filter (·.1 == e + i)).map (·.2)) (s.accEntry s.core.id (e + i)) (s.free * 2 ^ 20 + i + 1)
    let l := (List.range 64).map fun i =>
      if mask.getLsbD (32 * i) then vldaLane int m sm (val i) else (0, 0)
    let s := if olds.isEmpty then s else { s with free := s.free + 1 }
    let x := ofLanes 32 (l.map (·.1))
    let fl := orFlags (l.map (·.2))
    (s.onCore fun c => (c.setV r x mask).recordVlda w (.v r x mask) fl, fl)
  | .vsta int e x mask =>
    ((List.range 64).foldl (fun (acc : State × Flags) i =>
      if mask.getLsbD (32 * i) then
        let y := vstaEntry int (laneOf x 32 i)
        (acc.1.signedEntry s.core.id (e + i) y.1 y.1, acc.2 ||| y.2)
      else acc) (s, 0))
  | w => (s.onCore (·.apply w), 0)

/-- Every write due now applied in order, with the list of the operations' flags. -/
def State.applyAll (s : State) : List Due → State × List Flags
  | [] => (s, [])
  | d :: r =>
    let x := s.applyDue d.wr
    let y := x.1.applyAll r
    (y.1, (d.fl ||| x.2) :: y.2)

/-- The flags of FLAGS whose traps are enabled (06 Table 06-4). -/
def Core.enabledFlags (c : Core) : Flags := .ofNat 7 (c.flags.toNat / 2 ^ 8)

/-- The focus core at its tick: what is due is written, flags accrue after it, and the traps of the tick
are listed: those of landings, then one ARITH (06 R146, 09 R252). -/
def State.settle (s : State) : State × List TrapReq :=
  let due := s.core.dueNow
  let u := s.core.tick
  let s := s.onCore fun c =>
    { c with pend := c.pend.filter fun p => u < p.due, arb := c.arb.filter fun a => u < a.due }
  let x := s.applyAll due
  let fl := orFlags x.2
  let s := x.1.onCore fun c => { c with flags := c.flags ||| fl.setWidth 64 }
  let en := s.core.enabledFlags
  let hit := orFlags (x.2.filter fun f => f &&& en ≠ 0)
  let landed := due.filterMap (·.trap)
  (s, landed ++ if hit = 0 then [] else [⟨.arith, hit.setWidth 64, 0⟩])

end Sys2Proof.Machine
end

