-- ==== Sys2Proof/Machine/Guard.lean ====
section
/-! DEFINITION. What every access meets at its serialisation point: reserved ranges, bank switches, access tables, seals, and
the stores of bytes (01 R31, R33, 04 R93 to R100, 09 R267, 14 R409, R412, R413). -/

namespace Sys2Proof.Machine

/-! ## Home slices and reserved ranges (01 R31, R33, 14 R409, R413) -/

/-- A 6-bit value rotated left. -/
def rotl6 (c r : Nat) : Nat := (c * 2 ^ r + c / 2 ^ (6 - r)) % 64
/-- The placement of line `l` under `key` among 2^w places (04 R98): the 6-bit chunks of the line number, each rotated by
its digit of the key, are folded together. -/
def place (l key w : Nat) : Nat :=
  let s := (List.range 8).foldl (fun s j => s ^^^ rotl6 (bitsAt l (6 * j) 6) (bitsAt key (4 * j) 4 % 6)) 0
  bitsAt s 0 w ^^^ bitsAt s w (6 - w)
/-- The home slice of the line at `pa` on its die (04 Table 04-6; log 10). -/
def homeSlice (d : DieId) (pa : Nat) : Nat := place (bitsAt pa 6 43) (Config.dieKey d).toNat (if d.isMem then 4 else 5)

/-- The mode of a bank (04 R93). -/
def Die.bankMode (d : Die) (c b : Nat) : Nat := bitsAt (d.nat (0x3000 + c * 0x10 + b / 32 * 8)) (2 * (b % 32)) 2

/-- Is `pa` treated as a reserved offset? -/
def State.isReserved (s : State) (pa : Nat) : Bool :=
  s.mirrorLive pa || s.retired pa 1 ||
    match paDie pa, placeOf pa with
    | none, _ => true
    | _, .reserved => true
    | some d, .bank c b _ => (s.die d).bankMode c b != 1
    | _, _ => false

/-! ## Bank switches (04 R96) -/

/-- Is the bank of `pa` being switched, so that its accesses are held (04 R96)? -/
def State.switching (s : State) (pa : Nat) : Bool :=
  match paDie pa, placeOf pa with
  | some d, .bank c b _ => (s.die d).switches.any fun x => x.1 == c && x.2.1 == b
  | _, _ => false

/-! ## Access tables (04 R99, R100) -/

/-- What becomes of an access to a line. -/
inductive Verdict where
  | ok | grant | badPa | down
  deriving DecidableEq, Repr

/-- Why no access at all reaches `pa`: it counts as reserved, or its die does not answer (01 R33, 09 R268, 14 R409, R413). -/
def State.outOfReach (s : State) (pa : Nat) : Option Verdict :=
  match paDie pa with
  | none => some .badPa
  | some d => if s.down d then some .down else if s.isReserved pa then some .badPa else none

/-- Eight bytes that a unit of a die reads at `pa`; where no access reaches them it finds zeros (log 19). -/
def State.rdRec (s : State) (pa : Nat) : Nat :=
  let a := s.route pa
  if (s.outOfReach a).isSome then 0 else s.rd a 8

/-- A master as the tables match it. -/
structure Who where
  chip : Nat
  die : Nat
  kind : Nat
  unit : Nat
  ctx : Nat
  deriving DecidableEq, Repr

def Who.code (w : Who) : Nat := masterOf w.chip w.die w.kind w.unit

/-- What an access needs: its right, and its code in VIOLOG. -/
structure Need where
  bit : Nat
  op : Nat
  deriving DecidableEq, Repr
def needR : Need := ⟨56, 0⟩
def needW : Need := ⟨57, 1⟩
def needA : Need := ⟨58, 2⟩

def tableOf : Place → Option Nat
  | .bank .. => some 0
  | .dram => some 1
  | .deep => some 2
  | _ => none

/-- Does the entry with words `q0`, `q1`, `q2` permit the access of line `pa`? -/
def entryPermits (q0 q1 q2 : Nat) (w : Who) (n : Need) (pa : Nat) : Bool :=
  let kind := bitsAt q0 12 2
  bitAt q0 63 && bitAt q0 n.bit &&
    (bitAt q0 17 || bitsAt q0 18 6 == w.chip) && kind == w.kind &&
    (bitAt q0 5 || (bitsAt q0 14 3 == w.die && bitsAt q0 6 6 == w.unit)) &&
    (2 ≤ kind || bitsAt q0 52 4 == w.ctx) && bitsAt q1 15 37 ≤ pa / 2 ^ 15 && pa / 2 ^ 15 ≤ bitsAt q2 15 37

/-- The offsets of the table entries that hold a word in the window. -/
def Die.entries (d : Die) (t : Nat) : List Nat :=
  d.regs.filterMap fun r =>
    if 0x4000 + t * 0x2000 ≤ r.1 && r.1 < 0x6000 + t * 0x2000 && r.1 % 0x20 == 0 then some r.1 else none
def Die.permits (d : Die) (t : Nat) (w : Who) (n : Need) (pa : Nat) : Bool :=
  (d.entries t).any fun o => entryPermits (d.nat o) (d.nat (o + 8)) (d.nat (o + 16)) w n pa

/-- The check of one line at its serialisation point. Near scratchpads, accumulators, register windows and Rhoath's mailbox
window are refused (01 R30, R32). -/
def State.judge (s : State) (w : Who) (n : Need) (pa : Nat) : Verdict :=
  match paDie pa with
  | none => if inMailbox pa then .grant else .badPa
  | some d =>
    if s.down d then .down
    else if s.isReserved pa then .badPa
    else match tableOf (placeOf pa) with
      | some t => if (s.die d).permits t w n pa then .ok else .grant
      | none => .grant

/-- A refusal in VIOLOG of the die that serves `pa`. -/
def State.violog (s : State) (d : DieId) (w : Who) (n : Need) (pa : Nat) : State :=
  let c := bitsAt (s.reg d 0x3F08) 48 16
  (s.setReg d 0x3F00 (w.ctx % 16 * 2 ^ 52 + (pa - pa % 64) % 2 ^ 52)).setReg d 0x3F08
    (satTo 0xFFFF (c + 1) * 2 ^ 48 + n.op * 2 ^ 28 + w.code)

/-- The record of a refused line: `own` is the issuer's die. In Rhoath's mailbox window, whose die has no VIOLOG, a refusal is logged on
the issuer's own die (log 103). -/
def State.refusal (s : State) (own : DieId) (w : Who) (n : Need) (va pa : Nat) : Verdict → State
  | .ok => s
  | .grant => s.violog ((paDie pa).getD own) w n pa
  | .badPa => s.faultRec ((paDie pa).getD own) w.ctx 0x05 va pa 0 w.code
  | .down => s.faultRec own w.ctx 0x08 va pa (pa / 2 ^ 49) w.code

def Verdict.trap : Verdict → TrapName
  | .badPa => .badPa
  | .down => .homeDown
  | _ => .grant

/-! ## Seals and stores (09 R267, 14 R412) -/

/-- One bit of the CRC of 09 R267. -/
def crc16Bit (c : Nat) : Nat := if bitAt c 15 then (2 * c % 2 ^ 16) ^^^ 0x8BB7 else 2 * c
def crc16Byte (c : Nat) (b : Byte) : Nat := (List.range 8).foldl (fun c _ => crc16Bit c) (c ^^^ b.toNat * 2 ^ 8)
/-- The CRC of 09 R267 over bytes. -/
def crc16 (l : List Byte) : Nat := l.foldl crc16Byte 0
/-- The seals of `n` sectors of data in order, as 16-bit halves from bit 0 up; a last sector that is not whole counts as
filled with zeros (log 98). -/
def seals (l : List Byte) (n : Nat) : Nat :=
  ((List.range n).map fun i =>
    let c := (l.drop (32 * i)).take 32
    crc16 (c ++ List.replicate (32 - c.length) 0) * 2 ^ (16 * i)).sum

/-- Is the seal of sector `x` one that fails? -/
def State.badSector (s : State) (x : Nat) : Bool := s.badSeal.any fun r => r.1 ≤ x && x < r.2
/-- The first sector of [pa, pa + n) whose seal fails; `part` asks only for sectors that it does not cover whole. -/
def State.failedSector (s : State) (pa n : Nat) (part : Bool) : Option Nat :=
  let lo := pa / 32
  let hi := (pa + n + 31) / 32
  if part then [lo, hi - 1].find? fun x => n ≠ 0 && (32 * x < pa || pa + n < 32 * x + 32) && s.badSector x
  else s.badSeal.foldl (fun m r =>
    if r.1 < hi && lo < r.2 then (match m with | none => some (max r.1 lo) | some y => some (min y (max r.1 lo))) else m) none
/-- Every sector of [pa, pa + n) whose seal fails. -/
def State.failedSectors (s : State) (pa n : Nat) : List Nat :=
  ((List.range ((pa + n + 31) / 32 - pa / 32)).map (pa / 32 + ·)).filter s.badSector
/-- Ranges of sectors without those of [lo, hi). -/
def cutSectors (lo hi : Nat) (l : List (Nat × Nat)) : List (Nat × Nat) :=
  if hi ≤ lo then l
  else l.flatMap fun r => ([(r.1, min r.2 lo), (max r.1 hi, r.2)]).filter fun x => x.1 < x.2
/-- The fault record of a failed seal: `sec` is the sector's number. -/
def State.sealRec (s : State) (w : Who) (va sec : Nat) : State :=
  s.faultRec ((paDie (32 * sec)).getD .cd0) w.ctx 0x04 va (32 * sec) (32 * (sec % 2)) w.code

/-- The fault record of a seal that fails as data leaves the device (14 R416). -/
def State.exitRec (s : State) (own : DieId) (w : Who) (sec : Nat) : State :=
  s.faultRec ((paDie (32 * sec)).getD own) w.ctx 0x14 0 (32 * sec) (32 * (sec % 2)) w.code

/-- Lines of [pa, pa + n) marked dirty with their owner context. -/
def markDirty (l : List (Nat × Nat)) (ctx pa n : Nat) : List (Nat × Nat) :=
  let new := (List.range ((pa + n + 63) / 64 - pa / 64)).map (pa / 64 + ·)
  l.filter (fun x => !new.contains x.1) ++ new.map fun x => (x, ctx)

/-- The lines of [pa, pa + n) with a context that has accessed them. -/
def noteLines (l : List (Nat × Nat)) (ctx pa n : Nat) : List (Nat × Nat) :=
  l ++ ((List.range ((pa + n + 63) / 64 - pa / 64)).map fun i => (pa / 64 + i, ctx)).filter fun x => !l.contains x
/-- Context `ctx` reads [pa, pa + n): a miss of it may allocate the DRAM lines in the shared cache (14 R412). -/
def State.touch (s : State) (ctx pa n : Nat) : State :=
  match paDie pa, placeOf pa with
  | some d, .dram => s.updDie d fun d => { d with lines := noteLines d.lines ctx pa n }
  | _, _ => s

/-- Bytes stored at `pa`, with their seals; a DRAM line becomes dirty in the shared cache. -/
def State.storeBytes (s : State) (ctx pa : Nat) (l : List Byte) : State :=
  let n := l.length
  let s : State := { s.wrBytes pa l with badSeal := cutSectors ((pa + 31) / 32) ((pa + n) / 32) s.badSeal }
  match paDie pa, placeOf pa with
  | some d, .dram => s.updDie d fun d => { d with dirty := markDirty d.dirty ctx pa n, lines := noteLines d.lines ctx pa n }
  | _, _ => s

/-- Bytes written line by line by a master that is no core or copy: each line checked, its seals computed; `fifo` says
that the bank is written by its landing writer or a delivery (10 R285). `fuel` bounds the lines. -/
def State.putLines (s : State) (own : DieId) (w : Who) (fifo : Bool) : Nat → Nat → List Byte → State
  | 0, _, _ => s
  | fuel + 1, pa, l =>
    if l.isEmpty then s
    else
      let n := 64 - pa % 64
      let now := l.take n
      let v := if fifo then (if (s.die own).permits 0 w needW pa then .ok else .grant) else s.judge w needW pa
      let s : State := match v with
        | .ok =>
          (match s.failedSector pa now.length true with
          | some x => s.sealRec w 0 x
          | none => s.storeBytes w.ctx pa now)
        | v => s.refusal own w needW 0 pa v
      s.putLines own w fifo fuel (pa + now.length) (l.drop n)

end Sys2Proof.Machine
end

