-- ==== Sys2Proof/Machine/Operands.lean ====
section
/-! DEFINITION. Operand forms: vector lanes and predicates, handle and scratchpad addresses, and which
registers an operation reads and writes. -/

namespace Sys2Proof.Machine

/-! ## Lanes (08 R212, R214) -/

/-- active(p, i, t) of 00 R14, for elements of width `w`. -/
def activeLane (p : PWord) (w i : Nat) : Bool := p.getLsbD (w * i / 8)

/-- Lane masks of 08 R215: all ones in lane `i` where `f i`. -/
def laneMask (w : Nat) (f : Nat → Bool) : VWord :=
  ofLanes w ((List.range (2048 / w)).map fun i => if f i then 2 ^ w - 1 else 0)
/-- The bits of the active elements of width `w` under `p`. -/
def activeMask (p : PWord) (w : Nat) : VWord := laneMask w (activeLane p w)
def fullMask : VWord := BitVec.allOnes 2048

/-- Predicate bits of the bytes of the elements of width `w` where `f i` (08 R220, R233). -/
def byteMask (w : Nat) (f : Nat → Bool) : PWord :=
  .ofNat 256 (packLanes 1 ((List.range 256).map fun j => b2n (f (8 * j / w))))

/-- The format of a floating type. -/
def fmtOf : ElemType → Fmt
  | .f32 => fp32 | .f16 => fp16 | .bf16 => bf16 | .e4m3 => e4m3 | .e5m2 => e5m2 | _ => fp32
/-- The integer format of an integer type, the 4-bit types included. -/
def ifmtOf (t : ElemType) : IFmt := ⟨t.width, t.signed⟩

/-- The registers a predicate field reads (05 R113: p0 is no register). -/
def rdP (p : PReg) : List RegName := if p = 0 then [] else [.p p]
def rdS (r : SReg) : List RegName := if r = 0 then [] else [.s r]
def wrS := rdS
def wrP := rdP

/-- Bit 5 of a 6-bit field dropped: the vector register that it names. -/
def vOf (r : BitVec 6) : VRegN := r.setWidth 5

/-! ## Addresses -/

/-- Bytes of a scalar access and its sign (09 Table 09-11). -/
def sizeOf (p : PReg) : Nat :=
  match p.toNat with
  | 0 => 8 | 1 | 2 => 4 | 3 | 4 => 2 | _ => 1
def sizeSigned (p : PReg) : Bool := p == 2 || p == 4 || p == 6

/-- s(a) + sext(imm18), the near-scratchpad offset of an M1 operation, or the latched address of its
re-issue (09 R262, 05 R128). -/
def State.addrM1 (s : State) (a : SReg) (imm : BitVec 18) : Nat :=
  match s.core.ictx.addr with
  | some x => x.1.toNat
  | none => (s.core.s a + imm.signExtend 64).toNat

/-- s(a) + sext(off4) × u, the offset of an M2 operation in units of `u` (09 R263). -/
def State.addrM2 (s : State) (a : SReg) (off : BitVec 4) (u : Nat) : Nat :=
  match s.core.ictx.addr with
  | some x => x.1.toNat
  | none => (s.core.s a + off.signExtend 64 * .ofNat 64 u).toNat

/-- The swizzled view of the near scratchpad (09 R258). -/
def swizzle (o : Nat) : Nat := o ^^^ (bitsAt o 8 5 * 8)

/-- An address of the code section, counted from its start (log 48): A + 2 × sext(off) (06 R167). -/
def relTarget (a : Nat) (off : Int) : Nat := (((a : Int) + 2 * off) % 2 ^ 64).toNat

/-! ## Registers that an operation reads and writes (05 R121) -/

/-- The registers that `i` reads; `re` says that it is a re-issue, which reads no address register and
no mp0 (05 R128). -/
def readsOf (re : Bool) (i : Instr) : List RegName :=
  let adr (a : SReg) : List RegName := if re then [] else rdS a
  match i with
  | .add _ a b | .sub _ a b | .and _ a b | .or _ a b | .xor _ a b | .andn _ a b | .shl _ a b | .shr _ a b
  | .sar _ a b | .rol _ a b | .min _ a b | .max _ a b | .minn _ a b | .maxn _ a b | .mul _ a b | .mulh _ a b
  | .mulhn _ a b | .div _ a b | .divn _ a b | .rem _ a b | .remn _ a b | .cmpeq _ a b | .cmpne _ a b
  | .cmplt _ a b | .cmple _ a b | .cmpltn _ a b | .cmplen _ a b | .vdqry _ a b | .extb _ a b _
  | .addsh _ a b _ => rdS a ++ rdS b
  | .sel _ a b c => rdS a ++ rdS b ++ rdS c
  | .clz _ a | .ctz _ a | .popc _ a | .brev _ a | .bswap _ a => rdS a
  | .insb d a b => rdS d ++ rdS a ++ rdS b
  | .addi _ a _ | .andi _ a _ | .ori _ a _ | .xori _ a _ | .shli _ a _ | .shri _ a _ | .sari _ a _
  | .cmpeqi _ a _ | .cmplti _ a _ => rdS a
  | .movk d _ _ => rdS d
  | .fadd _ _ a b | .fsub _ _ a b | .fmul _ _ a b | .fmin _ _ a b | .fmax _ _ a b => rdS a ++ rdS b
  | .ffma _ d a b => rdS d ++ rdS a ++ rdS b
  | .fcmp _ _ _ a b => rdS a ++ rdS b
  | .fcvt _ _ _ a | .fclass _ _ a => rdS a
  | .ptos _ a _ => rdP a
  | .mpset _ a | .cntset _ a => rdS a
  | .mpget _ a => [.mp a]
  | .cntadd d a => .k d :: rdS a
  | .cntrd _ a => [.k a]
  | .csrrd _ n => [.csr n.toNat]
  | .csrwr _ a => rdS a
  | .brz a _ | .brnz a _ | .jmp a _ | .callr a _ | .trap a _ | .loop a _ | .lbreak a _ => rdS a
  | .ret => [.s 63]
  | .waitlt k b _ => .k k :: rdS b
  | .signal h b _ | .launch h b _ _ => .h h :: rdS b
  | .vadd _ _ a b p _ | .vsub _ _ a b p _ | .vmul _ _ a b p _ | .vmin _ _ a b p _ | .vmax _ _ a b p _
  | .vand _ _ a b p _ | .vor _ _ a b p _ | .vxor _ _ a b p _ | .vandn _ _ a b p _ | .vshl _ _ a b p _
  | .vshr _ _ a b p _ | .vsar _ _ a b p _ | .vmulh _ _ a b p _ | .vavg _ _ a b p _ | .vcmp _ _ _ a b p _
  | .vsel _ _ a b p _ | .vperm _ _ a b p _ | .vzip _ _ a b _ p _ | .vunzip _ _ a b _ p _
  | .vpack _ _ _ a b p _ | .vscale _ _ _ a b _ _ p _ | .vabsmax _ _ a b p _ | .frcps _ _ a b p _
  | .frsqs _ _ a b p _ | .fdiv _ _ a b p _ => .v a :: .v b :: rdP p
  | .vfma _ _ a b c p _ | .vfms _ _ a b c p _ | .vfnma _ _ a b c p _ | .vdot4 _ _ a b c p _ =>
    .v a :: .v b :: .v c :: rdP p
  | .vabs _ _ a p _ | .vneg _ _ a p _ | .vclz _ _ a p _ | .vpopc _ _ a p _ | .vmov _ _ a p _
  | .vredadd _ _ a p _ | .vredmax _ _ a p _ | .vredmin _ _ a p _ | .vscan _ _ a p _ | .vcvt _ _ _ a _ p _
  | .vunpack _ _ _ a _ p _ | .frcp _ _ a p _ | .frsq _ _ a p _ | .fsqrt _ _ a p _ | .fexp2 _ _ a p _
  | .flog2 _ _ a p _ | .fsin _ _ a p _ | .fcos _ _ a p _ | .ftanh _ _ a p _ | .fsigm _ _ a p _
  | .fgelu _ _ a p _ | .fclassv _ _ a p _ => .v a :: rdP p
  | .vbcast _ _ n p _ => rdS n ++ rdP p
  | .vext _ _ a _ _ => [.v a]
  | .vins _ _ n _ _ => rdS n
  | .viota _ _ p _ => rdP p
  | .vrot _ _ a n p _ => .v a :: rdS n ++ rdP p
  | .vslide _ _ a b n _ p _ => .v a :: .v b :: rdS n ++ rdP p
  | .pand _ a b _ | .por _ a b _ | .pxor _ a b _ => rdP a ++ rdP b
  | .pnot _ a _ | .pcount _ _ a _ | .pfirst _ _ a _ => rdP a
  | .ld _ _ a _ _ _ => adr a
  | .st _ t a _ _ _ => rdS t ++ adr a
  | .vld _ a p _ _ _ | .vldw _ a p _ _ _ => adr a ++ rdP p
  | .vst t a p _ _ _ | .vstw t a p _ _ _ => .v t :: adr a ++ rdP p
  | .xlt _ a => rdS a
  | .hinv _ => []
  | .hqry _ h => [.h h]
  | .ldl _ _ h a _ _ _ _ => .h h :: adr a
  | .vldl _ h a p _ _ _ _ => .h h :: adr a ++ rdP p
  | .vldlx _ _ h a p _ _ _ => .h h :: rdS (a + 1) ++ adr a ++ rdP p
  | .vgath _ h a p _ _ _ _ => .h h :: (if re then [] else [.v a]) ++ rdP p
  | .sth _ t h a _ _ _ => .h h :: rdS t ++ adr a
  | .vsth t h a p _ _ _ => .h h :: .v t :: adr a ++ rdP p
  | .vsthx _ t h a p _ _ => .h h :: .v t :: rdS (a + 1) ++ adr a ++ rdP p
  | .vscat t h a p _ _ _ => .h h :: .v t :: (if re then [] else [.v a]) ++ rdP p
  | .vlda _ _ a p _ _ _ _ => adr a ++ rdP p
  | .vsta _ t a p _ _ _ _ => .v t :: adr a ++ rdP p
  | .pld h a _ => .h h :: rdS a
  | .amoadd _ v _ _ _ h a b _ | .amomin _ v _ _ _ h a b _ | .amomax _ v _ _ _ h a b _
  | .amoand _ v _ _ _ h a b _ | .amoor _ v _ _ _ h a b _ | .amoxor _ v _ _ _ h a b _
  | .amoswp _ v _ _ _ h a b _ | .amofadd _ v _ _ _ h a b _
  | .redadd _ v _ _ h a b | .redmin _ v _ _ h a b | .redmax _ v _ _ h a b | .redfadd _ v _ _ h a b =>
    .h h :: if v then [.v (vOf a), .v (vOf b)] else rdS a ++ rdS b
  | .amocas _ v _ _ t h a b _ =>
    .h h :: if v then [.v (vOf a), .v (vOf b), .v (vOf t)] else rdS a ++ rdS b ++ rdS t
  | .mcall .. => (List.range 8).filterMap fun i => if re && i == 0 then none else some (.mp (.ofNat 3 i))
  | .mfmt f _ | .mchk f _ | .mclr f _ | .mldstore f _ => rdS f
  | .cpy _ v a b _ _ _ | .cpysig _ v a b _ _ _ | .cpeer _ v a b _ _ _ => .v v :: adr a ++ adr b
  | .bankcfg _ a b | .strmrel _ a b | .pgload _ a b | .cflush _ a b | .cinv _ a b => rdS a ++ rdS b
  | .strmbind _ a _ | .pgrant _ a => rdS a
  | .pgrun _ b | .pgstop _ b => rdS b
  | .psend _ v a _ => .v v :: rdS a
  | _ => []

/-- The registers that `i` writes. -/
def writesOf (i : Instr) : List RegName :=
  match i with
  | .add d _ _ | .sub d _ _ | .and d _ _ | .or d _ _ | .xor d _ _ | .andn d _ _ | .shl d _ _ | .shr d _ _
  | .sar d _ _ | .rol d _ _ | .min d _ _ | .max d _ _ | .minn d _ _ | .maxn d _ _ | .mul d _ _ | .mulh d _ _
  | .mulhn d _ _ | .div d _ _ | .divn d _ _ | .rem d _ _ | .remn d _ _ | .cmpeq d _ _ | .cmpne d _ _
  | .cmplt d _ _ | .cmple d _ _ | .cmpltn d _ _ | .cmplen d _ _ | .vdqry d _ _ | .extb d _ _ _
  | .addsh d _ _ _ | .sel d _ _ _ | .clz d _ | .ctz d _ | .popc d _ | .brev d _ | .bswap d _ | .insb d _ _
  | .addi d _ _ | .andi d _ _ | .ori d _ _ | .xori d _ _ | .shli d _ _ | .shri d _ _ | .sari d _ _
  | .cmpeqi d _ _ | .cmplti d _ _ | .movw d _ | .movk d _ _ | .fadd _ d _ _ | .fsub _ d _ _ | .fmul _ d _ _
  | .ffma _ d _ _ | .fmin _ d _ _ | .fmax _ d _ _ | .fcmp _ _ d _ _ | .fcvt _ _ d _ | .fclass _ d _
  | .ptos d _ _ | .mpget d _ | .cntrd d _ | .csrrd d _ | .lix d _ | .frameq d => wrS d
  | .mpset d _ => [.mp d]
  | .cntset d _ | .cntadd d _ => [.k d]
  | .csrwr n _ => [.csr n.toNat]
  | .call _ | .callr _ _ => [.s 63]
  | .hinvall => (List.range 16).map fun i => .h (.ofNat 4 i)
  | .vadd _ d _ _ _ _ | .vsub _ d _ _ _ _ | .vmul _ d _ _ _ _ | .vmin _ d _ _ _ _ | .vmax _ d _ _ _ _
  | .vand _ d _ _ _ _ | .vor _ d _ _ _ _ | .vxor _ d _ _ _ _ | .vandn _ d _ _ _ _ | .vshl _ d _ _ _ _
  | .vshr _ d _ _ _ _ | .vsar _ d _ _ _ _ | .vmulh _ d _ _ _ _ | .vavg _ d _ _ _ _
  | .vsel _ d _ _ _ _ | .vperm _ d _ _ _ _ | .vzip _ d _ _ _ _ _ | .vunzip _ d _ _ _ _ _
  | .vpack _ _ d _ _ _ _ | .vscale _ _ d _ _ _ _ _ _ | .vabsmax _ d _ _ _ _ | .frcps _ d _ _ _ _
  | .frsqs _ d _ _ _ _ | .fdiv _ d _ _ _ _ | .vfma _ d _ _ _ _ _ | .vfms _ d _ _ _ _ _
  | .vfnma _ d _ _ _ _ _ | .vdot4 _ d _ _ _ _ _ | .vabs _ d _ _ _ | .vneg _ d _ _ _ | .vclz _ d _ _ _
  | .vpopc _ d _ _ _ | .vmov _ d _ _ _ | .vredadd _ d _ _ _ | .vredmax _ d _ _ _ | .vredmin _ d _ _ _
  | .vscan _ d _ _ _ | .vcvt _ _ d _ _ _ _ | .vunpack _ _ d _ _ _ _ | .frcp _ d _ _ _ | .frsq _ d _ _ _
  | .fsqrt _ d _ _ _ | .fexp2 _ d _ _ _ | .flog2 _ d _ _ _ | .fsin _ d _ _ _ | .fcos _ d _ _ _
  | .ftanh _ d _ _ _ | .fsigm _ d _ _ _ | .fgelu _ d _ _ _ | .fclassv _ d _ _ _ | .vbcast _ d _ _ _
  | .vins _ d _ _ _ | .viota _ d _ _ | .vrot _ d _ _ _ _ | .vslide _ d _ _ _ _ _ _ => [.v d]
  | .vcmp _ _ d _ _ _ _ | .pand d _ _ _ | .por d _ _ _ | .pxor d _ _ _ | .pnot d _ _ | .pset _ d _ _ => wrP d
  | .vext _ d _ _ _ | .pcount _ d _ _ | .pfirst _ d _ _ => wrS d
  | .ld _ t _ _ _ _ | .ldl _ t _ _ _ _ _ _ => wrS t
  | .vld t _ _ _ _ _ | .vldw t _ _ _ _ _ | .vldl t _ _ _ _ _ _ _ | .vldlx _ t _ _ _ _ _ _
  | .vgath t _ _ _ _ _ _ _ | .vlda _ t _ _ _ _ _ _ => [.v t]
  | .xlt h _ | .hinv h => [.h h]
  | .hqry d _ => wrS d
  | .amoadd _ v _ _ t _ _ _ _ | .amomin _ v _ _ t _ _ _ _ | .amomax _ v _ _ t _ _ _ _
  | .amoand _ v _ _ t _ _ _ _ | .amoor _ v _ _ t _ _ _ _ | .amoxor _ v _ _ t _ _ _ _
  | .amoswp _ v _ _ t _ _ _ _ | .amocas _ v _ _ t _ _ _ _ | .amofadd _ v _ _ t _ _ _ _ =>
    if v then [.v (vOf t)] else wrS t
  | _ => []

/-- A returning atomic (09 R265). -/
def isAmo : Instr → Bool
  | .amoadd .. | .amomin .. | .amomax .. | .amoand .. | .amoor .. | .amoxor .. | .amoswp .. | .amocas ..
  | .amofadd .. => true
  | _ => false

end Sys2Proof.Machine
end

