-- ==== Sys2Proof/Machine/Send.lean ====
section
/-! DEFINITION. The sending of accesses in the strand's order, and the counts of the fabric (12 R341 to R344, R347 to R351,
09 R266). -/

namespace Sys2Proof.Machine

/-! ## What an access is -/

def isRead (a : Act) : Bool := match a with | .load | .amo .. => true | _ => false
def isWrite (a : Act) : Bool := match a with | .load => false | _ => true
/-- A write-carrying flit (12 R347); a LAUNCH is read by the target die's launch unit. -/
def carriesWrite (a : Act) : Bool := match a with | .load | .launch .. | .drop => false | _ => true
def acquires (a : Access) : Bool :=
  (match a.act with | .amo .. => true | _ => false) && a.sc != .strand &&
    (match a.ord with | .acq | .ar | .sc => true | _ => false)
def releases (a : Access) : Bool :=
  a.sc != .strand &&
    ((match a.act with | .dec _ => true | _ => false) ||
     (match a.ord with | .rel | .ar | .sc => true | _ => false))

/-- Has the access left its die's order: performed, or stamped to another die (12 R342)? -/
def stamped (a : Access) : Bool :=
  match a.stage with | .link | .rob | .reply => true | .home | .turn => a.home != a.core.die && !a.held | _ => false

def bytesOverlap (x y : Part) : Bool := x.pa < y.pa + y.len && y.pa < x.pa + x.len
def overlaps (a b : Access) : Bool := a.parts.any fun x => b.parts.any (bytesOverlap x)

/-- Are two accesses of one strand, or of one application core? -/
def sameStrand (a b : Access) : Bool := a.task == b.task && a.gang == b.gang && a.lcore == b.lcore && a.app == b.app

/-- A FENCE as the core keeps it: its place in the strand's order, PR, PW, SR, SW and its scope. -/
abbrev Fence := Nat × Bool × Bool × Bool × Bool × Scope
/-- Does the fence name the kind of access `a` as successor, and what reads or writes before it as predecessor (09 R266)? -/
def fenceNames (f : Fence) (reads writes : Bool) (a : Access) : Bool :=
  f.1 ≤ a.seq && f.2.2.2.2.2 != .strand && ((f.2.1 && reads) || (f.2.2.1 && writes)) &&
    ((f.2.2.2.1 && isRead a.act) || (f.2.2.2.2.1 && isWrite a.act))
/-- Does the fence order access `a` after what stands at place `q`? -/
def fenceOrders (f : Fence) (q : Nat) (reads writes : Bool) (a : Access) : Bool := q < f.1 && fenceNames f reads writes a

/-- May `a` and the earlier access `b` meet at a byte (12 R367)? One that is still being walked may meet any; one whose page is
absent is known by its virtual addresses (log 84). -/
def mayMeet (a b : Access) : Bool :=
  match b.stage with
  | .walk => true
  | .absent => a.parts.any fun x => b.parts.any fun y => x.va < y.va + y.len && y.va < x.va + x.len
  | _ => overlaps a b

/-- Must access `a` wait for the earlier access `b` of its strand: until an acquire has been answered (R341), for a release
until `b` is ordered (R342), across a FENCE until `b` has performed and its answer has arrived with what its die knew (09 R266,
R368), at the same bytes until `b` has performed (R367)? A held effect holds nothing back before its release. -/
def waitsFor (fences : List Fence) (a b : Access) : Bool :=
  sameStrand a b && b.id != a.id && b.seq < a.seq &&
    (acquires b ||
     (!b.held && (fences.any (fenceOrders · b.seq (isRead b.act) (isWrite b.act) a) ||
       (b.stage != .reply && ((releases a && !stamped b) || mayMeet a b)))))

/-! ## The counts of the fabric (12 R347, R349, R351) -/

def knowAt (d : Die) (k j : Nat) : Nat := d.know.getD (4 * k + j) 0
def setKnow (d : Die) (k j v : Nat) : Die := { d with know := d.know.set (4 * k + j) (v % 4096) }
def column (d : Die) (j : Nat) : List Nat := (List.range 4).map fun k => knowAt d k j
/-- Has a column of the counts but that of die `j` changed since the last header flit that the die sent there (12 R348)? -/
def Die.news (d : Die) (j : Nat) : Bool :=
  let old := match d.told.find? (·.1 == j) with | some x => x.2 | none => []
  (List.range 16).any fun i => i % 4 != j && d.know.getD i 0 != old.getD i 0
/-- The counts stand in a header flit to die `j`. -/
def Die.tell (d : Die) (j : Nat) : Die := { d with told := (j, d.know) :: d.told.filter (·.1 != j) }
def dlvAt (d : Die) (k : Nat) : Nat := d.dlv.getD k 0
def setDlv (d : Die) (k v : Nat) : Die := { d with dlv := d.dlv.set k (v % 4096) }
/-- a ≤ b within a window (12 R349). -/
def winLe (a b : Nat) : Bool := (b + 4096 - a % 4096) % 4096 < 2048
def winMax (a b : Nat) : Nat := if winLe a b then b % 4096 else a % 4096
/-- The larger of two matrices of counts, but for the column of die `j` (12 R348, R349). -/
def mergeKnow (know other : List Nat) (j : Nat) : List Nat :=
  (List.range 16).map fun i => if i % 4 = j then know.getD i 0 else winMax (know.getD i 0) (other.getD i (know.getD i 0))

/-- Would `n` more writes from die `i` to die `j` leave the window of R351? -/
def windowFull (d : Die) (j n : Nat) : Bool :=
  let i := d.id.code
  let seen := if i = j then dlvAt d i else d.seen.getD j 0
  2048 ≤ (knowAt d i j + n + 4096 - seen) % 4096

/-- Have the writes of dies other than `own` that column `j` of die `d` counts been delivered at die `e`? -/
def causallyMet (d e : Die) (j own : Nat) : Bool :=
  (List.range 4).all fun k => k == own || winLe (knowAt d k j) (dlvAt e k)

/-- DLV of a die's own writes: the largest n for which local writes 1 to n have performed (12 R347). -/
def State.localDlv (s : State) (d : DieId) : State :=
  let i := d.code
  let x := s.die d
  let open' := (s.flight.filter fun a => a.core.die == d && a.home == d && carriesWrite a.act && !a.held && a.epoch == x.epoch &&
    (match a.stage with | .causal | .home | .turn => true | _ => false)).map fun a => a.clock.getD (5 * i) 0
  let v := match open' with
    | [] => knowAt x i i
    | n :: r => (r.foldl (fun m y => if winLe m y then m else y) n + 4095) % 4096
  s.setDie (setDlv x i v)

/-- A write of an engine of die `i` at die `j` that is stamped and delivered in one step (log 90): none while a write that
causally precedes it has not been delivered (12 R347, R349). -/
def State.directWrite (s : State) (i j : DieId) : Option State :=
  let d := s.die i
  let e := s.die j
  if s.down j then some s
  else if i = j then
    if causallyMet d d j.code j.code && !windowFull d i.code 1 then
      some ((s.setDie (setKnow d i.code i.code (knowAt d i.code i.code + 1))).localDlv i)
    else none
  else if causallyMet d e j.code i.code && knowAt d i.code j.code == dlvAt e i.code && !windowFull d j.code 1 then
    let n := knowAt d i.code j.code + 1
    let d := setKnow d i.code j.code n
    let e := setKnow (setDlv e i.code n) i.code j.code n
    some ((s.setDie (d.tell j.code)).setDie { e with know := mergeKnow e.know d.know 4 })
  else none

/-- Writes of an agent of die `i` at the dies `l`, in turn, each stamped and delivered as `directWrite` says; all or none. -/
def State.directWrites (s : State) (i : DieId) : List DieId → Option State
  | [] => some s
  | j :: r => match s.directWrite i j with
    | some t => t.directWrites i r
    | none => none
/-- The dies that serve the 256-byte pieces of the `n` bytes at `pa`: a flit carries no more. -/
def homesOf (pa n : Nat) : List DieId := (List.range ((n + 255) / 256)).filterMap fun i => paDie (pa + 256 * i)

/-- A read of an engine of die `i` at die `j`, answered in one step (log 90): none while a write that causally precedes it has
not been delivered (12 R349). -/
def State.directRead (s : State) (i j : DieId) : Option State :=
  let d := s.die i
  let e := s.die j
  if s.down j then some s
  else if !causallyMet d e j.code (if i = j then j.code else 4) then none
  else if i = j then some s
  else
    some ((s.setDie { d.tell j.code with know := mergeKnow d.know e.know i.code }).setDie
      { e.tell i.code with know := mergeKnow e.know d.know 4 })

/-- Reads of a unit of die `i` at the dies `l`, answered in one step. -/
def State.directReads (s : State) (i : DieId) (l : List DieId) : Option State :=
  l.eraseDups.foldl (fun o j => o.bind fun s => s.directRead i j) (some s)
/-- What the units of die `i` know passes to die `j` with what it tells its units (12 R368). -/
def State.tellAll (s : State) (i j : DieId) : State :=
  if i = j || s.down i then s else s.updDie j fun e => { e with know := mergeKnow e.know (s.die i).know 4 }

/-! ## The transfers of an access (12 R340, R348) -/

/-- A part cut at the ends of 64-byte lines; `fuel` bounds the lines. -/
def cutPart : Nat → Part → List Part
  | 0, p => [p]
  | fuel + 1, p =>
    let k := 64 - p.pa % 64
    if p.len ≤ k then [p]
    else { p with len := k, data := p.data % 2 ^ (8 * k) } ::
      cutPart fuel { p with va := p.va + k, pa := p.pa + k, len := p.len - k, pos := p.pos + k, data := p.data / 2 ^ (8 * k) }

def insLine (p : Part) : List (List Part) → List (List Part)
  | [] => [[p]]
  | g :: r => if (g.map (·.pa / 64)).head? = some (p.pa / 64) then (g ++ [p]) :: r else g :: insLine p r
/-- Parts line by line, in the order in which the lines first come. -/
def byLine (l : List Part) : List (List Part) := l.foldl (fun acc p => insLine p acc) []
/-- Runs of consecutive bytes, each of at most 256. -/
def byRun : List Part → List (List Part)
  | [] => []
  | p :: r =>
    match byRun r with
    | (q :: g) :: t =>
      if p.pa + p.len = q.pa && p.len + ((q :: g).map (·.len)).sum ≤ 256 then (p :: q :: g) :: t else [p] :: (q :: g) :: t
    | t => [p] :: t

/-- What is sent apart: lines of the own die, runs to another, each lane of an atomic or reduction. -/
def transfersOf (a : Access) : List (List Part) :=
  match a.act with
  | .load | .store =>
    let ps := a.parts.flatMap (cutPart 8)
    let own (p : Part) : Bool := paDie p.pa == some a.core.die
    byLine (ps.filter own) ++ byRun (ps.filter fun p => !own p)
  | .amo .. | .red .. => a.parts.map fun p => [p]
  | _ => [a.parts]

/-! ## Sending (12 R341 to R344, R347, R351) -/

/-- The access with the die that serves its first part. -/
def Access.homed (a : Access) : Access :=
  { a with
    home := match a.act, a.parts with
      | .launch .., _ => a.home
      | _, p :: _ => (paDie p.pa).getD a.home
      | _, [] => a.home }
/-- The access with its parts where the fabric takes them (14 R409, R411): what has been checked at its home has been routed
before, and what goes to a die that does not answer goes nowhere else. -/
def State.routed (s : State) (a : Access) : Access :=
  Access.homed { a with parts := a.parts.map fun p => { p with pa := if a.checked || s.down a.home then s.redirect p.pa else s.route p.pa } }
/-- The access with its parts where they are served now. -/
def State.asSent (s : State) (a : Access) : Access :=
  { a with parts := a.parts.map fun p => { p with pa := s.redirect p.pa } }

/-- One transfer leaves its core: a local one takes its column and goes to its home slice, another is stamped onto the fabric
(12 R347, R349). One to a die whose uncore is in reset goes no further (09 R268). -/
def State.sendOne (s : State) (a : Access) : State :=
  let a := a.homed
  let d := s.die a.core.die
  let i := d.id.code
  let j := a.home.code
  let col := column d j
  let d' := if carriesWrite a.act then setKnow d i j (knowAt d i j + 1) else d
  let go : Access :=
    if s.down a.home then { a with stage := .home }
    else if i = j then
      let ok := (List.range 4).all fun k => k == j || winLe (col.getD k 0) (dlvAt d k)
      { a with clock := d'.know, epoch := d.epoch, stage := if ok then .home else .causal }
    else { a with clock := d'.know, epoch := d.epoch, stage := .link, sent := s.nextId, know := d'.news j }
  let s := if s.down a.home then s else s.setDie (if i = j then d' else d'.tell j)
  { s with nextId := s.nextId + 1, flight := s.flight.map fun x => if x.id = a.id then go else x }

/-- The access leaves its core, transfer by transfer; the first keeps its number. -/
def State.sendAccess (s : State) (a : Access) : State :=
  match transfersOf (s.routed a) with
  | [] => s.sendOne a
  | g :: r =>
    r.foldl (fun s g =>
      let b := { a with id := s.nextId, parts := g }
      State.sendOne { s with nextId := s.nextId + 1, flight := s.flight ++ [b] } b) (s.sendOne { a with parts := g })

/-- The fences and the log of the strand of access `a`, on its core or kept where it has stopped (13 R391). -/
def State.logOf (s : State) (a : Access) : List Fence × List Trel :=
  match s.cores.find? fun c => match c.strand with
      | some st => a.task = some st.task && st.gang == a.gang && st.lcore == a.lcore
      | none => false with
  | some c => (c.fences, c.trellis)
  | none =>
    match (a.task.bind s.findTask).bind fun t => (t.gangs.find? (·.idx == a.gang)).bind fun g =>
        g.counts.find? (·.1 == a.lcore) with
    | some x => (x.2.fences, x.2.logged)
    | none => ([], [])

/-- Has the strand of access `a` a committed peer put on its way, to this chip or to another (12 R342, R344)? -/
def State.putsOpen (s : State) (a : Access) (remote : Bool) : Bool :=
  s.effects.any fun e => a.app.isNone && e.task == a.task && e.gang == a.gang && e.lcore == a.lcore && e.committed && !e.acked &&
    (match e.kind with | .put _ r _ => r == remote | _ => false)

/-- May access `a` not pass the earlier committed entry `t` of its strand's log, which writes a byte that it names (12 R367)? A load takes
the bytes of a store of its strand from the log. -/
def logMeets (a : Access) (t : Trel) : Bool :=
  isWrite t.act && (match t.act with | .launch .. | .drop => false | _ => true) &&
    !(match a.act, t.act with | .load, .store => t.copy.isNone | _, _ => false) &&
    a.parts.any fun x => (t.part :: t.rest).any fun y => x.va < y.va + y.len && y.va < x.va + x.len
/-- Is access `a` held back: by its strand's order, by entries of its log, by peer puts, or by the window of R351? -/
def State.blocked (s : State) (a : Access) : Bool :=
  let l := s.logOf a
  let fenced (f : Fence) : Bool := fenceNames f false true a
  a.stage != .away || s.flight.any (fun b => waitsFor l.1 (s.asSent a) (s.asSent b)) ||
    (l.2.any fun t => t.committed && t.seq < a.seq &&
      (releases a || l.1.any (fenceOrders · t.seq false true a) || logMeets a t)) ||
    ((releases a || l.1.any fenced) && s.putsOpen a false) ||
    (((releases a && a.sc == .system) || l.1.any fun f => fenced f && f.2.2.2.2.2 == .system) && s.putsOpen a true) ||
    (carriesWrite a.act && windowFull (s.die a.core.die) a.home.code (transfersOf a).length)

/-- Sends every access that nothing holds back, in the strands' order. -/
def State.pumpList (s : State) : List Nat → State
  | [] => s
  | id :: r =>
    match s.flight.find? (·.id == id) with
    | none => s.pumpList r
    | some a => if s.blocked a then s.pumpList r else (s.sendAccess a).pumpList r
def State.pump (s : State) : State :=
  s.pumpList ((s.flight.filter (·.stage == .away)).map (·.id))

/-! ## Accesses -/

/-- An access of the focus core, at its place in the strand's order. -/
def Core.access (c : Core) (id : Nat) (act : Act) (h : Reg16) (ctx : Nat) (parts : List Part) : Access :=
  { id := id, seq := c.seq, core := c.id, task := c.strand.map (·.task),
    gang := match c.strand with | some st => st.gang | none => 0
    lcore := match c.strand with | some st => st.lcore | none => 0
    ctx := ctx, act := act, ord := .rlx, sc := .gang, handle := h, parts := parts, res := 0, fl := 0
    bad := none, dst := .none, land := none, held := false, checked := false, inst := c.inst.id
    stage := .away, home := match parts with | p :: _ => (paDie p.pa).getD c.id.die | [] => c.id.die
    clock := [], epoch := 0, det := false, key := (0, 0, 0), amo := c.amos, order := c.order
    hit := false, know := false, sent := 0, hbase := hVa (c.h h) 0, trel := false, app := none, copy := none, xl := id }

end Sys2Proof.Machine
end

