-- ==== Sys2Proof/Machine/Perform.lean ====
section
/-! DEFINITION. Accesses as they perform: who issued them, what becomes of them, loads and stores line by line (01 R33, 04 R99,
R100, 09 R252, R259, R261, R267, R268, 12 R360). -/

namespace Sys2Proof.Machine

/-! ## Who issued an access, and what becomes of it -/

def State.whoIs (s : State) (a : Access) : Who :=
  match a.app with
  | some p => { chip := s.rhoath.chip, die := p.die.code, kind := 3, unit := p.num, ctx := 0 }
  | none => { chip := s.rhoath.chip, die := a.core.die.code, kind := 0, unit := a.core.num, ctx := a.ctx }
def needOf : Act → Need
  | .load | .launch .. => needR
  | .store => needW
  | _ => needA

/-- Has a strand ended? -/
def State.strandOver (s : State) (t : TaskId) (g l : Nat) : Bool :=
  match s.holderOf t g l, (s.findTask t).bind fun x => x.gangs.find? (·.idx == g) with
  | some c, _ => c.ended
  | none, some y => y.ended.contains l
  | none, none => true
/-- The consequence of a refused write for its issuer: an asynchronous trap, or the access fault of an application core. An
entry of the log whose strand has ended leaves a record (09 R254). An application core takes no fault for a store whose sector's old
seal fails (01 R33, 04 R100, 09 R267, R268). -/
def State.issuerTrap (s : State) (a : Access) (n : TrapName) (va : Nat) : State :=
  match a.app, a.task with
  | some p, _ => if n = .seal then s else { s with appDone := s.appDone ++ [⟨p, va, none⟩] }
  | none, some t =>
    let s := if a.trel && s.strandOver t a.gang a.lcore then
      s.faultRec a.core.die a.ctx 0x09 va 0 (trapCode n) (s.whoIs a).code else s
    s.strandTrap t a.gang a.lcore ⟨n, 0, .ofNat 64 va⟩
  | none, none => s

def State.setAccess (s : State) (a : Access) : State :=
  { s with flight := s.flight.map fun x => if x.id = a.id then a else x }
def State.dropAccess (s : State) (id : Nat) : State := { s with flight := s.flight.filter (·.id != id) }

/-- The first failure of an access: what it returns is poisoned (09 R252). -/
def Access.spoil (a : Access) (n : TrapName) (va : Nat) : Access :=
  { a with bad := match a.bad with | some x => some x | none => some ⟨n, 0, .ofNat 64 va⟩ }
/-- What a poisoned access returns. -/
def Access.poisoned (a : Access) : Access := if a.bad.isSome then { a with res := 0, fl := 0 } else a

/-- A returning atomic that has not performed is not counted among those of its strand (12 R360; log 92). -/
def State.uncount (s : State) (a : Access) : State :=
  let f (c : Core) : Core :=
    match c.strand with
    | some st => if a.task = some st.task && st.gang == a.gang && st.lcore == a.lcore then { c with amos := c.amos - 1 } else c
    | none => c
  let g (k : Nat × Counts) : Nat × Counts := if k.1 = a.lcore then (k.1, { k.2 with amos := k.2.amos - 1 }) else k
  let s : State := { s with
    core := f s.core, parked := s.parked.map f
    flight := s.flight.map fun b => if sameStrand a b && a.seq < b.seq then { b with amo := b.amo - 1 } else b }
  match a.task with
  | some t => s.updTask t fun x => x.updGang a.gang fun y => { y with counts := y.counts.map g }
  | none => s

/-- An access that has performed without an answer. -/
def State.performedAccess (s : State) (a : Access) : State :=
  ((s.dropAccess a.id).localDlv a.core.die).pump
/-- The response of access `a` reaches its die with the knowledge of its home (12 R349). -/
def State.hear (s : State) (a : Access) : State :=
  if a.home = a.core.die || s.down a.home then s
  else s.updDie a.core.die fun d => { d with know := mergeKnow d.know (s.die a.home).know d.id.code }
/-- The response of access `a` is a header flit of its home (12 R348). -/
def State.respond (s : State) (a : Access) : State :=
  if a.home = a.core.die || s.down a.home then s else s.updDie a.home (·.tell a.core.die.code)
/-- Another transfer of the same operation that has not been answered. -/
def State.sibling (s : State) (a : Access) : Option Access :=
  s.flight.find? fun b => a.land.isSome && b.land == a.land && b.id != a.id
/-- An access that has been answered: its data joins that of its operation's other transfers; the last carries the answer. -/
def State.answered (s : State) (a : Access) : State :=
  match s.sibling a with
  | some b =>
    (((((s.dropAccess a.id).setAccess { b with
      res := b.res ||| a.res, fl := b.fl ||| a.fl, bad := a.bad.or b.bad, hit := a.hit || b.hit }).hear a).respond a).localDlv a.core.die).pump
  | none =>
    let s := if a.hit || !(match a.act with | .amo .. => a.app.isNone | _ => false) then s else s.uncount a
    if a.land.isNone && a.app.isNone then s.performedAccess a
    else
      let b := { a.poisoned with stage := .reply, parts := [], clock := (s.die a.home).know, know := (s.die a.home).news a.core.die.code }
      (((s.setAccess b).respond a).localDlv a.core.die).pump
/-- The end of an access that is refused or fails: poison, or a drop and the trap of its issuer. -/
def State.failAccess (s : State) (a : Access) (n : TrapName) (va : Nat) : State :=
  if isRead a.act then s.answered (a.spoil n va) else (s.performedAccess a).issuerTrap a n va

/-! ## Loads (09 R252, R261) -/

/-- The bytes of `l`, at `pa`, with those that part `p` stores on top. -/
def overlayPart (pa : Nat) (l : List Byte) (p : Part) : List Byte :=
  (List.range l.length).map fun i =>
    if p.pa ≤ pa + i && pa + i < p.pa + p.len then .ofNat 8 (bitsAt p.data (8 * (pa + i - p.pa)) 8) else l.getD i 0

/-- The bytes a load sees: memory, with the earlier stores of its own strand that are held or in the log. -/
def State.seen (s : State) (a : Access) (p : Part) : List Byte :=
  let held := (s.flight.filter fun b =>
      sameStrand a b && b.seq < a.seq && (match b.act with | .store => b.held | _ => false)).flatMap (·.parts)
  let log := ((s.logOf a).2.filter fun t =>
      t.seq < a.seq && (match t.act with | .store => t.copy.isNone | _ => false)).flatMap fun t => t.part :: t.rest
  let va := log.map fun q => { q with pa := q.va }
  let l := (held.map fun q => { q with pa := s.redirect q.pa }).foldl (overlayPart p.pa) (s.rdBytes p.pa p.len)
  va.foldl (overlayPart p.va) l

/-- The parts of one line of a load: the line is checked once. -/
def State.loadLine (x : State × Access) (g : List Part) : State × Access :=
  match g with
  | [] => x
  | p :: _ =>
    match x.1.judge (x.1.whoIs x.2) needR p.pa with
    | .ok => g.foldl (fun x p =>
      match x.1.failedSector p.pa p.len false with
      | some k =>
        (if x.2.app.isSome then x.1.exitRec x.2.home (x.1.whoIs x.2) k else x.1.sealRec (x.1.whoIs x.2) p.va k, x.2.spoil .seal p.va)
      | none =>
        (x.1.touch x.2.ctx p.pa p.len, { x.2 with res := x.2.res ||| .ofNat 2048 (bytesNat (x.1.seen x.2 p) * 2 ^ (8 * p.pos)) })) x
    | v => (x.1.refusal x.2.core.die (x.1.whoIs x.2) needR p.va p.pa v, x.2.spoil v.trap p.va)
/-- A load performs. -/
def State.performLoad (s : State) (a : Access) : State :=
  let x := (byLine a.parts).foldl State.loadLine (s, a)
  x.1.answered x.2

/-! ## Stores (04 R99, 09 R261, R267) -/

/-- The parts of one line of a store: the line is checked once, and dropped with a trap where it is refused. -/
def State.storeLine (a : Access) (s : State) (g : List Part) : State :=
  let w := s.whoIs a
  match g with
  | [] => s
  | p :: _ =>
    match if a.checked && !s.isReserved p.pa then .ok else s.judge w needW p.pa with
    | .ok => g.foldl (fun s p =>
      match s.failedSector p.pa p.len true with
      | some x => (s.sealRec w p.va x).issuerTrap a .seal p.va
      | none => s.storeBytes w.ctx p.pa (natBytes p.data p.len)) s
    | v => (s.refusal a.core.die w needW p.va p.pa v).issuerTrap a v.trap p.va
/-- A store performs. -/
def State.performStore (s : State) (a : Access) : State :=
  ((byLine a.parts).foldl (State.storeLine a) s).performedAccess a

/-- A held effect is checked as it arrives at its home slice, line by line, and pinned there; what is refused is dropped
(09 R261, 04 R99), and of a vector reduction every lane where one is refused (12 R339). -/
def State.pin (s : State) (a : Access) : State :=
  let w := s.whoIs a
  let n := needOf a.act
  let parts := a.parts.flatMap (cutPart 8)
  let isRed := match a.act with | .red .. => true | _ => false
  let r := (byLine parts).foldl (fun (x : State × List Part) g =>
    match g with
    | [] => x
    | p :: _ =>
      match x.1.judge w n p.pa with
      | .ok => (x.1, x.2 ++ g)
      | v => ((x.1.refusal a.core.die w n p.va p.pa v).issuerTrap a v.trap p.va, x.2)) (s, [])
  if r.2.isEmpty || (isRed && r.2.length < parts.length) then r.1.dropAccess a.id else r.1.setAccess { a with parts := r.2, stage := .pinned, checked := true }

/-! ## Banks in SCRATCH mode (09 R259) -/

def isBank (pa : Nat) : Bool := match placeOf pa with | .bank .. => true | _ => false
/-- Those accesses that `mine` names and that go to banks of their own die perform on their issue tick. -/
def State.performNow (s : State) (mine : Access → Bool) : State :=
  ((s.flight.filter fun a => mine a && a.app.isNone && a.stage == .home && !a.held && a.home == a.core.die &&
      a.parts.all fun p => isBank p.pa && !s.switching p.pa).map (·.id)).foldl (fun s id =>
    match s.flight.find? (·.id == id) with
    | some a => (match a.act with
      | .load => s.performLoad a
      | .store => s.performStore a
      | _ => s)
    | none => s) s

end Sys2Proof.Machine
end

