-- ==== Sys2Proof/Machine/Handle.lean ====
section
/-! DEFINITION. Operations through handles: the checks of 09 R247, landing accesses (R250 to R255), posted
effects and the Trellis log (R254, R261), and the region budget (13 R382). -/

namespace Sys2Proof.Machine

/-! ## Region budgets (13 R382) -/

/-- Would `n` more units exceed the open instance's budget? -/
def Core.overBudget (c : Core) (n : Nat) : Bool := c.inst.budget < c.inst.used + n
def Core.charge (c : Core) (n : Nat) : Core := { c with inst := { c.inst with used := c.inst.used + n } }

/-! ## Elements -/

/-- One element or run of an operation: offset in the page, bytes, place in the register, data, compare
value. -/
structure Elem where
  off : Nat
  len : Nat
  pos : Nat
  data : Nat
  cmp : Nat
  deriving DecidableEq, Repr

def partOf (h : HWord) (e : Elem) : Part :=
  { va := hVa h e.off, pa := hPbase h + e.off, len := e.len, pos := e.pos, data := e.data, cmp := e.cmp }

/-- Runs of consecutive active bytes of a 256-byte access at `off`, split at 64-byte lines. -/
def byteRuns (act : Nat → Bool) (off : Nat) (data : VWord) : List Elem :=
  ((List.range 256).foldl (fun (acc : List Elem) j =>
    if act j then
      match acc with
      | e :: r =>
        if e.pos + e.len = j && (off + j) % 64 ≠ 0 then { e with len := e.len + 1 } :: r
        else { off := off + j, len := 1, pos := j, data := 0, cmp := 0 } :: acc
      | [] => [{ off := off + j, len := 1, pos := j, data := 0, cmp := 0 }]
    else acc) []).reverse.map fun e => { e with data := bitsAt data.toNat (8 * e.pos) (8 * e.len) }

/-- 64-byte lines that the bytes of `es` touch, each once (13 R382). -/
def linesOf (es : List Elem) : Nat :=
  ((es.flatMap fun e => (List.range ((e.off + e.len - 1) / 64 - e.off / 64 + 1)).map (e.off / 64 + ·)).eraseDups).length

/-- Which leaf right an operation needs (09 R247). -/
inductive Right where
  | r | w | a
  deriving DecidableEq, Repr
def hRight (h : HWord) : Right → Bool
  | .r => hR h
  | .w => hW h
  | .a => hA h

/-- A walk of the handle's VPAGE for the focus core. -/
def State.startWalk (s : State) (h : Reg16) (why : WalkFor) : Nat × State :=
  let c := s.core
  (s.nextId, { s with
    nextId := s.nextId + 1
    walks := s.walks ++ [{ id := s.nextId, core := c.id, ctx := hCtx (c.h h), va := canonVa (hVpage (c.h h) * 2 ^ 15),
                           h := h, why := why, stale := false }] })

/-- Ordering attributes of an access. -/
structure Attr where
  ord : Ord
  sc : Scope
  deriving DecidableEq, Repr
def plain : Attr := ⟨.rlx, .gang⟩

/-! ## Landing operations (09 R250 to R255) -/

def Core.arbUsed (c : Core) : Nat :=
  (c.arb.map (·.size)).sum + match c.snap with | some n => (n.arb.map (·.size)).sum | none => 0

/-- The register a landing writes. -/
def LandDst.reg : LandDst → Option RegName
  | .none => Option.none
  | .s r _ _ => if r = 0 then Option.none else some (.s r)
  | .v r _ => some (.v r)

/-- A new Arbour entry of the focus core. -/
def State.addLanding (s : State) (size land : Nat) (dst : LandDst) (wr : Option Wr) (trap : Option TrapReq)
    (amo : Bool) : Nat × State :=
  let c := s.core
  let l : Landing := { id := s.nextId, due := c.tick + land, no := c.issueNo, size := size, reg := dst.reg,
                       wr := wr, fl := 0, trap := trap, inst := c.inst.id }
  (s.nextId, { s with
    nextId := s.nextId + 1
    core := { c with
      arb := c.arb ++ [l]
      inst := if amo then
                { c.inst with carried := c.inst.carried ++ [l.rel c.inst.start], amoSent := c.inst.amoSent + 1
                              amoSeen := c.inst.amoSeen + 1 }
              else c.inst } })

/-- A use of handle `h` that waits for nothing starts the re-walk of one that is not valid (09 R247). -/
def State.rewalk (s : State) (h : Reg16) : State := if hValid (s.core.h h) then s else (s.startWalk h .handle).2
/-- A landing operation through handle `h` on the elements `es` (09 R247, R250, R255; 12 R339 for the
atomics, whose check against the page falls on the landing tick). `al` says that every element is aligned. A full Arbour is found
before the range and the right, and with no active element nothing is checked against a page that the re-walk finds (log 106). -/
def State.landOp (s : State) (h : Reg16) (right : Right) (act : Act) (at' : Attr) (es : List Elem) (al : Bool)
    (dst : LandDst) (size land : Nat) : State :=
  let c := s.core
  let hw := c.h h
  let amo := right == .a
  let va := match es with | e :: _ => hVa hw e.off | [] => hVa hw 0
  let late (n : TrapName) : State :=
    (s.addLanding size land dst (some .none) (some ⟨n, 0, .ofNat 64 va⟩) amo).2.rewalk h
  let known := hValid hw && hPresent hw
  let far := es.any fun e => 2 ^ 27 ≤ e.off
  let outside := known && es.any fun e => pageBytes (hSize hw) < e.off + e.len
  if !hInit hw then s.issueTrap .badHandle 0 0
  else if 64 < c.arbUsed + size then s.issueTrap .arbourFull 0 0
  else if far || (!amo && outside) then s.issueTrap .handleRange 0 va
  else if known && !hRight hw right then s.issueTrap .pageRights 0 va
  else if !al then late .misaligned
  else if outside then late .handleRange
  else if es.isEmpty then
    (s.addLanding size land dst (some .none) none amo).2.rewalk h
  else
    let send (s : State) (stage : Stage) (parts : List Part) : State :=
      let l := s.addLanding size land dst none none amo
      let c := l.2.core
      let a := { c.access l.2.nextId act h (hCtx hw) parts with
        ord := at'.ord, sc := at'.sc, dst := dst, land := some l.1, stage := stage }
      { l.2 with
        nextId := l.2.nextId + 1
        core := { c with seq := c.seq + 1, amos := if amo then c.amos + 1 else c.amos }
        flight := l.2.flight ++ [a] }
    if !hValid hw then
      let w := s.startWalk h (.access (s.nextId + 2))
      send w.2 .walk (es.map (partOf hw))
    else if hPresent hw then
      let t := (send s .away (es.map (partOf hw))).pump
      if isBank (hPbase hw) then t.performNow fun a => a.land == some s.nextId else t
    else
      let s := s.faultRec c.id.die (hCtx hw) 0x01 va 0
        (match c.strand with | some st => st.lcore | none => 0) (s.coreMaster c.id 0)
      send s .absent (es.map (partOf hw))

/-! ## Posted operations (09 R254, R261) -/

/-- Is the place one whose handle-based stores are held until COMMIT (09 R261)? -/
def heldPlace (pa : Nat) : Bool := match placeOf pa with | .dram | .deep => true | _ => false

/-- Does `va` lie in the page of handle `h`, or of element VA `e` where the page is absent and its size not known? -/
def samePage (h : HWord) (e va : Nat) : Bool :=
  if hPresent h && hValid h then hVa h 0 ≤ va && va < hVa h 0 + pageBytes (hSize h) else va / 2 ^ 15 == e / 2 ^ 15
/-- The parts of an entry of the log. -/
def Trel.parts (t : Trel) : List Part := t.part :: t.rest
/-- Does the log hold an entry for the page of element VA `e` through handle `h`? -/
def inLog (l : List Trel) (h : HWord) (e : Nat) : Bool := l.any fun t => t.parts.any fun p => samePage h e p.va

/-- The Trellis entries of an operation: one for its data, or one for each element of a scatter or vector
reduction (09 R254). -/
def trellisEntries (c : Core) (h : HWord) (act : Act) (at' : Attr) (each : Bool) (es : List Elem) : List Trel :=
  let mk (parts : List Part) : Trel :=
    { va := match parts with | p :: _ => p.va | [] => hVa h 0, act := act, ord := at'.ord, sc := at'.sc,
      part := match parts with | p :: _ => p | [] => ⟨0, 0, 0, 0, 0, 0⟩, copy := none, committed := false,
      inst := c.inst.id, seq := c.seq, rest := parts.tail
      det := c.detAtomic && (match act with | .red .. => true | _ => false), key := (0, 0, 0)
      ready := parts.any fun p => inLog (c.trellis.filter (·.ready)) h p.va }
  if each then es.map fun e => mk [partOf h e] else [mk (es.map (partOf h))]

/-- 64-byte lines of an entry's data (13 R382). -/
def trelLines (t : Trel) : Nat := ((t.parts.flatMap fun p =>
  (List.range ((p.va + p.len - 1) / 64 - p.va / 64 + 1)).map (p.va / 64 + ·)).eraseDups).length
/-- The STORE_ABSENT records of new entries: one for the first entry of each page that the log `l` does not hold (09 R254). -/
def State.absentRecs (s : State) (l : List Trel) (ents : List Trel) : State :=
  let c := s.core
  let ctx := match c.strand with | some st => st.ctx | none => 0
  (ents.foldl (fun (x : State × List Trel) t =>
    let s := (t.parts.foldl (fun (y : State × List Nat) p =>
      if y.2.contains (p.va / 2 ^ 15) || x.2.any (fun t => t.parts.any fun q => q.va / 2 ^ 15 == p.va / 2 ^ 15) then y
      else (y.1.faultRec c.id.die ctx 0x02 p.va 0 (x.2.length + 1) (s.coreMaster c.id 0), p.va / 2 ^ 15 :: y.2)) (x.1, [])).1
    (s, x.2 ++ [t])) (s, l)).1

/-- A posted operation through handle `h` (09 R247, R254, R261; 13 R382). One with no active element has no effect once its handle is valid,
and a misaligned one traps before the re-walk (log 106). `units` are the budget units of
the effect where it is held. -/
def State.postOp (s : State) (h : Reg16) (right : Right) (act : Act) (at' : Attr) (es : List Elem) (al each : Bool)
    (units : Nat) (detail : Bool) : State :=
  let c := s.core
  let hw := c.h h
  let off := match es with | e :: _ => e.off | [] => 0
  let va := hVa hw off
  let det := if detail then off else 0
  let isRed := match act with | .store => false | _ => true
  let isLaunch := match act with | .launch .. => true | _ => false
  if !hInit hw then s.issueTrap .badHandle 0 0
  else if es.any fun e => 2 ^ 27 ≤ e.off then s.issueTrap .handleRange det va
  else if !al then s.issueTrap .misaligned det va
  else if !hValid hw then
    let w := s.startWalk h .handle
    w.2.onCore fun c => { c with ictx := { c.ictx with stall := some (.walk w.1) }, wait := some (.walk w.1) }
  else if es.isEmpty then s
  else if hPresent hw && es.any (fun e => pageBytes (hSize hw) < e.off + e.len) then
    s.issueTrap .handleRange det va
  else if hPresent hw && !hRight hw right then s.issueTrap .pageRights 0 va
  else if !hPresent hw || es.any (fun e => inLog c.trellis hw (hVa hw e.off)) then
    let ents := trellisEntries c hw act at' each es
    let n := match act with | .store => units | _ => max units (ents.map (trelLines ·)).sum
    if c.overBudget n then s.issueTrap .regionBudget 0 va
    else if 256 < c.trellis.length + ents.length then
      if c.trellis.all (fun t => !t.committed) then s.issueTrap .regionBudget 0 va
      else s.onCore fun c => { c with ictx := { c.ictx with stall := some .trellis }, wait := some .trellis }
    else
      let s := if hPresent hw then s else s.absentRecs c.trellis ents
      s.onCore fun c => { c.charge n with trellis := c.trellis ++ ents, seq := c.seq + 1 }
  else
    let parts := es.map (partOf hw)
    let held := isRed || heldPlace (hPbase hw)
    if held && c.overBudget units then s.issueTrap .regionBudget 0 va
    else
      let a := { c.access s.nextId act h (hCtx hw) parts with
        ord := at'.ord, sc := at'.sc, held := held
        det := c.detAtomic && (match act with | .red .. => true | _ => false)
        stage := if !held then .away else if isLaunch then .pinned else .home }
      let s := { s with
        nextId := s.nextId + 1
        core := { (if held then c.charge units else c) with seq := c.seq + 1 }
        flight := s.flight ++ [if held && !isLaunch then s.routed a else a] }
      if held then s else if isBank (hPbase hw) then s.pump.performNow fun a => a.inst == c.inst.id && a.seq == c.seq else s.pump

end Sys2Proof.Machine
end

