-- ==== Sys2Proof/Machine/Special.lean ====
section
/-! DEFINITION. The approximations of the special-function slot (08 R235 to R239): each function's value is
enclosed between two fixed-point numbers, at rising precision, until both round alike. -/

namespace Sys2Proof.Machine

/-- The precision q of the reduced format of R236, for a type and for FRCP and FRSQ (`rcp`) or the
other functions. -/
def sfPrec (f : Fmt) (rcp : Bool) : Nat :=
  if f = fp32 then (if rcp then 12 else 20) else f.prec

/-- ln 2 scaled by 2^w: the sum of 2^-k / k for k from 1 to n. -/
def ln2Aux (w : Nat) : Nat → Nat → Nat
  | 0, acc => acc
  | k + 1, acc => ln2Aux w k (acc + 2 ^ (w - (k + 1)) / (k + 1))
def ln2 (w : Nat) : Nat := ln2Aux w w 0

/-- The positive and negative parts of arctan(1/m) scaled by 2^w; `t` is 2^w / m^(2k+1). -/
def atanInvAux (m : Nat) : Nat → Nat → Nat → Nat → Nat → Int
  | 0, _, _, p, q => (p : Int) - q
  | n + 1, k, t, p, q =>
    let x := t / (2 * k + 1)
    if k % 2 = 0 then atanInvAux m n (k + 1) (t / (m * m)) (p + x) q
    else atanInvAux m n (k + 1) (t / (m * m)) p (q + x)
/-- π scaled by 2^w, by Machin's formula. -/
def piFix (w : Nat) : Nat :=
  (16 * atanInvAux 5 (w / 4 + 2) 0 (2 ^ w / 5) 0 0 - 4 * atanInvAux 239 (w / 4 + 2) 0 (2 ^ w / 239) 0 0).toNat

/-- The Taylor sum of e^y scaled by 2^w, for y below 2^w. -/
def expAux (w y : Nat) : Nat → Nat → Nat → Nat → Nat
  | 0, _, _, acc => acc
  | n + 1, k, t, acc => if t = 0 then acc else expAux w y n (k + 1) (t * y / (2 ^ w * (k + 1))) (acc + t)
def expFix (w y : Nat) : Nat := expAux w y (w + 8) 0 (2 ^ w) 0

/-- e^(-a) scaled by 2^w, for a ≥ 0 scaled by 2^w. -/
def expNeg (w a : Nat) : Nat :=
  let l := ln2 w
  let k := a / l
  2 ^ (2 * w) / expFix w (a % l) / 2 ^ k

/-- The sum of z^(2k+1)/(2k+1), scaled by 2^w. -/
def atanhAux (w z2 : Nat) : Nat → Nat → Nat → Nat → Nat
  | 0, _, _, acc => acc
  | n + 1, k, t, acc =>
    if t = 0 then acc else atanhAux w z2 n (k + 1) (t * z2 / 2 ^ w) (acc + t / (2 * k + 1))
/-- log2 of m in [1, 2), both scaled by 2^w. -/
def log2Fix (w m : Nat) : Nat :=
  let z := (m - 2 ^ w) * 2 ^ w / (m + 2 ^ w)
  2 * atanhAux w (z * z / 2 ^ w) w 0 z 0 * 2 ^ w / ln2 w

/-- sin y scaled by 2^w, for y below 2 · 2^w: the Taylor terms of either sign. -/
def sinAux (w y2 : Nat) : Nat → Nat → Nat → Nat → Nat → Nat
  | 0, _, _, p, q => p - q
  | n + 1, k, t, p, q =>
    if t = 0 then p - q
    else
      let t' := t * y2 / 2 ^ w / ((2 * k + 2) * (2 * k + 3))
      if k % 2 = 0 then sinAux w y2 n (k + 1) t' (p + t) q else sinAux w y2 n (k + 1) t' p (q + t)
def sinFix (w y : Nat) : Nat := sinAux w (y * y / 2 ^ w) w 0 y 0 0

/-- The sum of a^(2k+1)/(1·3·…·(2k+1)), scaled by 2^w. -/
def gaussAux (w a2 : Nat) : Nat → Nat → Nat → Nat → Nat
  | 0, _, _, acc => acc
  | n + 1, k, t, acc =>
    if t = 0 then acc else gaussAux w a2 n (k + 1) (t * a2 / 2 ^ w / (2 * k + 3)) (acc + t)
/-- Φ(a) − 1/2 scaled by 2^w, for 0 ≤ a ≤ 16 scaled by 2^w. -/
def phiFix (w a : Nat) : Nat :=
  let a2 := a * a / 2 ^ w
  let s := gaussAux w a2 (2 * w) 0 a 0
  expNeg w (a2 / 2) * s / isqrt (2 * piFix w * 2 ^ w)

/-- A fixed-point magnitude `v` (scaled by 2^w) with its error, rounded where both ends of the enclosure
give one result. -/
def settle (f : Fmt) (p : Nat) (m : Rnd) (sm : Sat) (s : Bool) (v err : Nat) (e : Int) : Option (Nat × Flags) :=
  let lo := convertP f p m sm (.fin s (v - err) 1 e)
  let hi := convertP f p m sm (.fin s (v + err) 1 e)
  if v ≤ err ∨ lo ≠ hi then none else some lo

/-- The first precision of the list whose enclosure settles the result; else the last one's value. -/
def refine (f : Fmt) (p : Nat) (m : Rnd) (sm : Sat) (s : Bool) (enc : Nat → Nat × Int) (err : Nat) :
    List Nat → Nat × Flags
  | [] => (0, 0)
  | [w] => convertP f p m sm (.fin s (enc w).1 1 (enc w).2)
  | w :: ws =>
    match settle f p m sm s (enc w).1 err (enc w).2 with
    | some r => r
    | none => refine f p m sm s enc err ws

/-- |x| = n 2^e scaled by 2^w. -/
def fixOf (n : Nat) (e : Int) (w : Nat) : Nat := scaleNum n (e + w) / scaleDen 1 (e + w)

def precisions : List Nat := [240, 720, 1500]

/-- A positive number far below every format's range, standing for any such number. -/
def tinyVal (s : Bool) : Val := .fin s 1 1 (-4000)
/-- One less a positive number far below every format's precision. -/
def belowOne (s : Bool) : Val := .fin s (2 ^ 600 - 1) 1 (-600)

inductive SfFun where
  | exp2 | log2 | sin | cos | tanh | sigm | gelu
  deriving DecidableEq, Repr

/-- sin(π r) for r = n 2^e, as a sign and an enclosure, exact at its zeros and at ±1. -/
def sinPi (f : Fmt) (p : Nat) (m : Rnd) (sm : Sat) (neg : Bool) (n : Nat) (e : Int) : Nat × Flags :=
  let k : Nat := (-e).toNat
  let r := scaleNum n e % 2 ^ (k + 1)
  let s := neg != (2 ^ k ≤ r : Bool)
  let r := r % 2 ^ k
  let r := if 2 ^ k < 2 * r then 2 ^ k - r else r
  if 2 * r = 2 ^ k then convertP f p m sm (.fin s 1 1 0)
  else refine f p m sm s (fun w => (sinFix w (piFix w * r / 2 ^ k), -(w : Int))) (2 ^ 40) precisions

/-- The functions of R236 on a finite nonzero operand (-1)^s n 2^e, rounded to precision p. -/
def sfFinite (fn : SfFun) (f : Fmt) (p : Nat) (m : Rnd) (sm : Sat) (s : Bool) (n : Nat) (e : Int) : Nat × Flags :=
  let c := convertP f p m sm
  let big (k : Nat) : Bool := magLe k 1 0 n 1 e
  match fn with
  | .exp2 =>
    if big 1024 then (if s then c (tinyVal false) else c (.fin false 1 1 4000))
    else
      let k : Nat := (-e).toNat
      let x : Int := (if s then -1 else 1) * (scaleNum n e : Int)
      let i := x / (2 ^ k : Nat)
      let fr := (x % (2 ^ k : Nat)).toNat
      if fr = 0 then c (.fin false 1 1 i)
      else refine f p m sm false (fun w => (expFix w (ln2 w * fr / 2 ^ k), i - w)) (2 ^ 40) precisions
  | .log2 =>
    let l := n.log2
    if n = 2 ^ l then c (.ofInt (l + e))
    else
      let neg := l + e < 0
      refine f p m sm neg
        (fun w => (((l + e) * (2 ^ w : Nat) + log2Fix w (n * 2 ^ w / 2 ^ l)).natAbs, -(w : Int))) (2 ^ 40) precisions
  | .sin =>
    if scaleNum n e % 2 ^ (-e).toNat = 0 then c (.zero s)
    else sinPi f p m sm s n e
  | .cos =>
    let k : Nat := (-e).toNat + 1
    let x := scaleNum n e * 2 + 2 ^ (k - 1)
    if x % 2 ^ k = 0 then c (.zero false) else sinPi f p m sm false x (-(k : Int))
  | .tanh =>
    if big 256 then c (belowOne s)
    else refine f p m sm s
      (fun w =>
        let t := expNeg w (2 * fixOf n e w)
        ((2 ^ w - t) * 2 ^ w / (2 ^ w + t), -(w : Int))) (2 ^ 40) precisions
  | .sigm =>
    if big 256 then (if s then c (tinyVal false) else c (belowOne false))
    else refine f p m sm false
      (fun w =>
        let t := expNeg w (fixOf n e w)
        ((if s then t else 2 ^ w) * 2 ^ w / (2 ^ w + t), -(w : Int))) (2 ^ 40) precisions
  | .gelu =>
    if big 16 then (if s then c (tinyVal true) else c (.fin false (n * (2 ^ 600 - 1)) 1 (e - 600)))
    else refine f p m sm s
      (fun w =>
        let a := fixOf n e w
        let g := phiFix w a
        (a * (if s then 2 ^ (w - 1) - g else 2 ^ (w - 1) + g) / 2 ^ w, -(w : Int))) (2 ^ 240) [1000, 1600]

/-- FEXP2 to FGELU on a value: the special operands of Table 08-3, then R236. -/
def sfApply (fn : SfFun) (f : Fmt) (m : Rnd) (sm : Sat) (x : Val) : Nat × Flags :=
  let p := sfPrec f false
  let out (v : Val) (fl : Flags) : Nat × Flags := let r := convertP f p m sm v; (r.1, r.2 ||| fl)
  match x with
  | .nan .. => out (quietVal x) (when x.isSnan fNV)
  | .inf s =>
    match fn with
    | .exp2 => out (if s then .zero false else .inf false) 0
    | .log2 => if s then out .dflt fNV else out (.inf false) 0
    | .sin | .cos => out .dflt fNV
    | .tanh => out (.fin s 1 1 0) 0
    | .sigm => out (if s then .zero false else .fin false 1 1 0) 0
    | .gelu => out (if s then .zero true else .inf false) 0
  | .fin s n _ e =>
    if n = 0 then
      match fn with
      | .exp2 | .cos => out (.fin false 1 1 0) 0
      | .log2 => out (.inf true) fDZ
      | .sin | .tanh | .gelu => out (.zero s) 0
      | .sigm => out (.fin false 1 1 (-1)) 0
    else if s && fn == .log2 then out .dflt fNV
    else sfFinite fn f p m sm s n e

/-- FRCP (08 R236 to R238). -/
def frcpVal (f : Fmt) (m : Rnd) (sm : Sat) (x : Val) : Nat × Flags :=
  let p := sfPrec f true
  let out (v : Val) (fl : Flags) : Nat × Flags := let r := convertP f p m sm v; (r.1, r.2 ||| fl)
  match x with
  | .nan .. => out (quietVal x) (when x.isSnan fNV)
  | .inf s => out (.zero s) 0
  | .fin s n d e =>
    if n = 0 then out (.inf s) fDZ
    else
      let lg := largest f f.prec
      if magLe d n (-e) lg.1 1 lg.2 then out (.fin s d n (-e)) 0
      else out (.inf s) (fOF ||| fNX)

/-- FRSQ (08 R236, R237). -/
def frsqVal (f : Fmt) (m : Rnd) (sm : Sat) (x : Val) : Nat × Flags :=
  let p := sfPrec f true
  let out (v : Val) (fl : Flags) : Nat × Flags := let r := convertP f p m sm v; (r.1, r.2 ||| fl)
  match x with
  | .nan .. => out (quietVal x) (when x.isSnan fNV)
  | .inf s => if s then out .dflt fNV else out (.zero false) 0
  | .fin s n d e =>
    if n = 0 then out (.inf s) fDZ
    else if s then out .dflt fNV
    else out (sqrtFin d n (-e)) 0

/-- FSQRT (08 R235). -/
def fsqrtVal (f : Fmt) (m : Rnd) (sm : Sat) (x : Val) : Nat × Flags :=
  let out (v : Val) (fl : Flags) : Nat × Flags := let r := convert f m sm v; (r.1, r.2 ||| fl)
  match x with
  | .nan .. => out (quietVal x) (when x.isSnan fNV)
  | .inf s => if s then out .dflt fNV else out (.inf false) 0
  | .fin s n d e =>
    if n = 0 then out (.zero s) 0 else if s then out .dflt fNV else out (sqrtFin n d e) 0

/-- The refinements of R239: x(2 − dx), or x(3 − dxx)/2; a NaN, and a zero or an infinity of `x`, pass through, and every result is
delivered by convert, in the bundle's saturation (07 R195, R196; log 50). -/
def refineVal (rsq : Bool) (f : Fmt) (m : Rnd) (sm : Sat) (d x : Val) : Nat × Flags :=
  match firstNan [d, x] with
  | some n => ((convert f m sm (quietVal n)).1, when n.isSnan fNV)
  | none =>
    if x.isZero || x.isInf then convert f m sm x
    else
      let dx := (mulVal d x).1
      let t := if rsq then (mulVal dx x).1 else dx
      let u := (addVal m (.ofInt (if rsq then 3 else 2)) t.neg).1
      let v := (mulVal x u).1
      let v := if rsq then (mulVal v (.fin false 1 1 (-1))).1 else v
      convert f m sm v

end Sys2Proof.Machine
end

