-- ==== Sys2Proof/Machine/Flags.lean ====
section
/-! DEFINITION. Results with their flags: the lane arithmetic of the vector and special-function slots and
the division and conversion forms of the scalar slots. -/

namespace Sys2Proof.Machine

/-- An operation on two operands of a floating format: `f` on exact values, converted once (07 R196). -/
def fpBin (f : Fmt) (m : Rnd) (sm : Sat) (op : Rnd → Val → Val → Val × Flags) (a b : Nat) : Nat × Flags :=
  let x := op m (decodeVal f a) (decodeVal f b)
  let y := convert f m sm x.1
  (y.1, x.2 ||| y.2)

def addV (m : Rnd) (x y : Val) : Val × Flags := addVal m x y
/-- x − y: the sign of a NaN operand is not changed (07 R199). -/
def subV (m : Rnd) (x y : Val) : Val × Flags := addVal m x y.neg
def mulV (_ : Rnd) (x y : Val) : Val × Flags := mulVal x y
def divV (_ : Rnd) (x y : Val) : Val × Flags := divVal x y
/-- (x + y) / 2. -/
def avgV (m : Rnd) (x y : Val) : Val × Flags :=
  let z := addVal m x y
  (match z.1 with
    | .fin s n d e => .fin s n d (e - 1)
    | v => v, z.2)

/-- x y + z, and the forms with a negated product or addend. -/
def fpFma (f : Fmt) (m : Rnd) (sm : Sat) (np nc : Bool) (a b c : Nat) : Nat × Flags :=
  let x := decodeVal f a
  let z := decodeVal f c
  let r := fmaVal m (if np then x.neg else x) (decodeVal f b) (if nc then z.neg else z)
  let y := convert f m sm r.1
  (y.1, r.2 ||| y.2)

/-- The division forms (06 R152). -/
def divS (a b : Word) : Word × Flags :=
  if b = 0 then (BitVec.allOnes 64, fIDZ)
  else if a = BitVec.intMin 64 ∧ b = BitVec.allOnes 64 then (BitVec.intMin 64, fIOV)
  else (.ofInt 64 (a.toInt.tdiv b.toInt), 0)
def divU (a b : Word) : Word × Flags :=
  if b = 0 then (BitVec.allOnes 64, fIDZ) else (.ofNat 64 (a.toNat / b.toNat), 0)
def remS (a b : Word) : Word × Flags :=
  if b = 0 then (a, fIDZ)
  else if a = BitVec.intMin 64 ∧ b = BitVec.allOnes 64 then (0, fIOV)
  else (.ofInt 64 (a.toInt.tmod b.toInt), 0)
def remU (a b : Word) : Word × Flags :=
  if b = 0 then (a, fIDZ) else (.ofNat 64 (a.toNat % b.toNat), 0)

/-- A number format of FCVT, VCVT, VPACK, VUNPACK: floating or integer. -/
inductive NumFmt where
  | flt (f : Fmt)
  | int (f : IFmt)
  deriving DecidableEq, Repr

def cvtFmtNum : CvtFmt → NumFmt
  | .f32 => .flt fp32 | .f64 => .flt fp64 | .f16 => .flt fp16 | .bf16 => .flt bf16
  | .i32 => .int ⟨32, true⟩ | .n32 => .int ⟨32, false⟩ | .i64 => .int ⟨64, true⟩ | .n64 => .int ⟨64, false⟩
def elemNum (t : ElemType) : NumFmt := if t.isFloat then .flt (fmtOf t) else .int (ifmtOf t)

/-- The bits that quieting a NaN of format `f` gives: the value itself where it is no signalling NaN. -/
def quietBits (f : Fmt) (a : Nat) : Nat × Flags :=
  let a := a % 2 ^ f.bits
  match decodeVal f a with
  | .nan s q fr fb => if q then (a, 0) else (nanBits f s fr fb, fNV)
  | _ => (a, 0)

/-- A conversion between two formats (06 R158, 08 R229); a widening of an integer extends it in any saturation
(DEDUCED, log 23). -/
def cvtNum (dst src : NumFmt) (m : Rnd) (sm : Sat) (a : Nat) : Nat × Flags :=
  match src, dst with
  | .flt f, .flt g => if f = g then quietBits f a else convert g m sm (decodeVal f a)
  | .flt f, .int g => convertI g m sm true (decodeVal f a)
  | .int f, .flt g => convert g m sm (Val.ofInt (f.toInt a))
  | .int f, .int g => convertI g m (if f.w < g.w then .none else sm) false (Val.ofInt (f.toInt a))

/-- How an FCVT result fills its register (06 R156, R158). -/
def placeCvt (dst : CvtFmt) (x : Nat) : Word :=
  match dst with
  | .i32 => (BitVec.ofNat 32 x).signExtend 64
  | _ => .ofNat 64 x

end Sys2Proof.Machine
end

