-- ==== Sys2Proof/Machine/Scalar.lean ====
section
/-! DEFINITION. The integer, move and state-reading operations of the scalar slots (06 R150 to R155, R160 to
R165, R145). -/

namespace Sys2Proof.Machine

/-- An integer result of two registers, due next tick (06 R151). -/
def intOp (lat : Nat) (f : Word → Word → Word) (d a b : SReg) (s : State) : Out :=
  .next (s.postS lat d (f (s.core.s a) (s.core.s b)) 0)
/-- An integer result of one register. -/
def unOp (f : Word → Word) (d a : SReg) (s : State) : Out := .next (s.postS 1 d (f (s.core.s a)) 0)
/-- A division form: 18 ticks, with its flags (06 R152). -/
def divOp (f : Word → Word → Word × Flags) (d a b : SReg) (s : State) : Out :=
  let x := f (s.core.s a) (s.core.s b)
  .next (s.postS 18 d x.1 x.2)

def boolW (b : Bool) : Word := if b then 1 else 0
/-- Shift amount: s(b) mod 64. -/
def shAmt (b : Word) : Nat := b.toNat % 64

/-- ADD (06 Table 06-9). -/
def execAdd (d a b : SReg) (s : State) : Out := intOp 1 (fun x y => x + y) d a b s
/-- SUB (06 Table 06-9). -/
def execSub (d a b : SReg) (s : State) : Out := intOp 1 (fun x y => x - y) d a b s
/-- AND (06 Table 06-9). -/
def execAnd (d a b : SReg) (s : State) : Out := intOp 1 (fun x y => x &&& y) d a b s
/-- OR (06 Table 06-9). -/
def execOr (d a b : SReg) (s : State) : Out := intOp 1 (fun x y => x ||| y) d a b s
/-- XOR (06 Table 06-9). -/
def execXor (d a b : SReg) (s : State) : Out := intOp 1 (fun x y => x ^^^ y) d a b s
/-- ANDN (06 Table 06-9). -/
def execAndn (d a b : SReg) (s : State) : Out := intOp 1 (fun x y => x &&& ~~~y) d a b s
/-- SHL (06 Table 06-9). -/
def execShl (d a b : SReg) (s : State) : Out := intOp 1 (fun x y => x <<< shAmt y) d a b s
/-- SHR (06 Table 06-9). -/
def execShr (d a b : SReg) (s : State) : Out := intOp 1 (fun x y => x >>> shAmt y) d a b s
/-- SAR (06 Table 06-9). -/
def execSar (d a b : SReg) (s : State) : Out := intOp 1 (fun x y => x.sshiftRight (shAmt y)) d a b s
/-- ROL (06 Table 06-9). -/
def execRol (d a b : SReg) (s : State) : Out := intOp 1 (fun x y => x.rotateLeft (shAmt y)) d a b s
/-- MIN (06 Table 06-9). -/
def execMin (d a b : SReg) (s : State) : Out := intOp 1 (fun x y => if x.toInt ≤ y.toInt then x else y) d a b s
/-- MAX (06 Table 06-9). -/
def execMax (d a b : SReg) (s : State) : Out := intOp 1 (fun x y => if x.toInt ≤ y.toInt then y else x) d a b s
/-- MINN (06 Table 06-9). -/
def execMinn (d a b : SReg) (s : State) : Out := intOp 1 (fun x y => if x.toNat ≤ y.toNat then x else y) d a b s
/-- MAXN (06 Table 06-9). -/
def execMaxn (d a b : SReg) (s : State) : Out := intOp 1 (fun x y => if x.toNat ≤ y.toNat then y else x) d a b s
/-- MUL (06 Table 06-9). -/
def execMul (d a b : SReg) (s : State) : Out := intOp 3 (fun x y => x * y) d a b s
/-- MULH (06 Table 06-9). -/
def execMulh (d a b : SReg) (s : State) : Out := intOp 3 (fun x y => .ofInt 64 (x.toInt * y.toInt / 2 ^ 64)) d a b s
/-- MULHN (06 Table 06-9). -/
def execMulhn (d a b : SReg) (s : State) : Out := intOp 3 (fun x y => .ofNat 64 (x.toNat * y.toNat / 2 ^ 64)) d a b s
/-- DIV (06 R152). -/
def execDiv (d a b : SReg) (s : State) : Out := divOp divS d a b s
/-- DIVN (06 R152). -/
def execDivn (d a b : SReg) (s : State) : Out := divOp divU d a b s
/-- REM (06 R152). -/
def execRem (d a b : SReg) (s : State) : Out := divOp remS d a b s
/-- REMN (06 R152). -/
def execRemn (d a b : SReg) (s : State) : Out := divOp remU d a b s
/-- CMPEQ (06 Table 06-9). -/
def execCmpeq (d a b : SReg) (s : State) : Out := intOp 1 (fun x y => boolW (x == y)) d a b s
/-- CMPNE (06 Table 06-9). -/
def execCmpne (d a b : SReg) (s : State) : Out := intOp 1 (fun x y => boolW (x != y)) d a b s
/-- CMPLT (06 Table 06-9). -/
def execCmplt (d a b : SReg) (s : State) : Out := intOp 1 (fun x y => boolW (x.toInt < y.toInt)) d a b s
/-- CMPLE (06 Table 06-9). -/
def execCmple (d a b : SReg) (s : State) : Out := intOp 1 (fun x y => boolW (x.toInt ≤ y.toInt)) d a b s
/-- CMPLTN (06 Table 06-9). -/
def execCmpltn (d a b : SReg) (s : State) : Out := intOp 1 (fun x y => boolW (x.toNat < y.toNat)) d a b s
/-- CMPLEN (06 Table 06-9). -/
def execCmplen (d a b : SReg) (s : State) : Out := intOp 1 (fun x y => boolW (x.toNat ≤ y.toNat)) d a b s
/-- SEL (06 Table 06-9). -/
def execSel (d a b c : SReg) (s : State) : Out :=
  .next (s.postS 1 d (if s.core.s c ≠ 0 then s.core.s a else s.core.s b) 0)

/-- Leading zeros of the low `n` bits of `x`. -/
def leadingZeros (x : Nat) : Nat → Nat
  | 0 => 0
  | n + 1 => if bitAt x n then 0 else 1 + leadingZeros x n
/-- Trailing zeros of `x`, at most `n`. -/
def trailingZeros (x : Nat) : Nat → Nat
  | 0 => 0
  | n + 1 => if bitAt x 0 then 0 else 1 + trailingZeros (x / 2) n
/-- The low `n` bits of `x` in reverse order. -/
def reverseBits (x : Nat) : Nat → Nat
  | 0 => 0
  | n + 1 => x % 2 * 2 ^ n + reverseBits (x / 2) n

/-- CLZ (06 Table 06-9). -/
def execClz (d a : SReg) (s : State) : Out := unOp (fun x => .ofNat 64 (leadingZeros x.toNat 64)) d a s
/-- CTZ (06 Table 06-9). -/
def execCtz (d a : SReg) (s : State) : Out := unOp (fun x => .ofNat 64 (trailingZeros x.toNat 64)) d a s
/-- POPC (06 Table 06-9). -/
def execPopc (d a : SReg) (s : State) : Out := unOp (fun x => .ofNat 64 (onesBelow 64 x.toNat)) d a s
/-- BREV (06 Table 06-9). -/
def execBrev (d a : SReg) (s : State) : Out := unOp (fun x => .ofNat 64 (reverseBits x.toNat 64)) d a s
/-- BSWAP (06 Table 06-9). -/
def execBswap (d a : SReg) (s : State) : Out :=
  unOp (fun x => .ofNat 64 (bytesNat (natBytes x.toNat 8).reverse)) d a s

/-- Bit position and width of EXTB and INSB (06 R153). -/
def bfLo (b : Word) : Nat := bitsAt b.toNat 0 6
def bfWidth (b : Word) : Nat := min (bitsAt b.toNat 8 7) 64
/-- EXTB (06 R153). -/
def extbVal (sx : Bool) (a b : Word) : Word :=
  let w := bfWidth b
  let f := bitsAt a.toNat (bfLo b) w
  if sx && 0 < w && bitAt f (w - 1) then .ofInt 64 ((f : Int) - (2 ^ w : Nat)) else .ofNat 64 f
def execExtb (d a b : SReg) (sx : Bool) (s : State) : Out := intOp 1 (extbVal sx) d a b s
/-- INSB: bits lo to lo + w − 1 of `r` replaced by the low bits of `a` (06 R153). -/
def insbVal (r a b : Word) : Word :=
  let mask : Word := .ofNat 64 ((2 ^ bfWidth b - 1) * 2 ^ bfLo b)
  (r &&& ~~~mask) ||| ((a <<< bfLo b) &&& mask)
def execInsb (d a b : SReg) (s : State) : Out := intOp 1 (insbVal (s.core.s d)) d a b s
/-- ADDSH (06 Table 06-9). -/
def execAddsh (d a b : SReg) (sh : BitVec 6) (s : State) : Out := intOp 1 (fun x y => x + y <<< sh.toNat) d a b s

/-- sext(imm13) (06 R154). -/
def imm13 (i : BitVec 13) : Word := i.signExtend 64
/-- ADDI (06 Table 06-10). -/
def execAddi (d a : SReg) (i : BitVec 13) (s : State) : Out := unOp (fun x => x + imm13 i) d a s
/-- ANDI (06 Table 06-10). -/
def execAndi (d a : SReg) (i : BitVec 13) (s : State) : Out := unOp (fun x => x &&& imm13 i) d a s
/-- ORI (06 Table 06-10). -/
def execOri (d a : SReg) (i : BitVec 13) (s : State) : Out := unOp (fun x => x ||| imm13 i) d a s
/-- XORI (06 Table 06-10). -/
def execXori (d a : SReg) (i : BitVec 13) (s : State) : Out := unOp (fun x => x ^^^ imm13 i) d a s
/-- SHLI (06 Table 06-10). -/
def execShli (d a : SReg) (n : BitVec 6) (s : State) : Out := unOp (fun x => x <<< n.toNat) d a s
/-- SHRI (06 Table 06-10). -/
def execShri (d a : SReg) (n : BitVec 6) (s : State) : Out := unOp (fun x => x >>> n.toNat) d a s
/-- SARI (06 Table 06-10). -/
def execSari (d a : SReg) (n : BitVec 6) (s : State) : Out := unOp (fun x => x.sshiftRight n.toNat) d a s
/-- CMPEQI (06 Table 06-10). -/
def execCmpeqi (d a : SReg) (i : BitVec 13) (s : State) : Out := unOp (fun x => boolW (x == imm13 i)) d a s
/-- CMPLTI (06 Table 06-10). -/
def execCmplti (d a : SReg) (i : BitVec 13) (s : State) : Out := unOp (fun x => boolW (x.toInt < (imm13 i).toInt)) d a s
/-- MOVW (06 R155). -/
def execMovw (d : SReg) (imm : BitVec 19) (s : State) : Out := .next (s.postS 1 d (imm.signExtend 64) 0)
/-- MOVK (06 R155). -/
def movkVal (r : Word) (pos : BitVec 2) (imm : BitVec 16) : Word :=
  (r &&& ~~~((0xFFFF : Word) <<< (16 * pos.toNat))) ||| (imm.setWidth 64 <<< (16 * pos.toNat))
def execMovk (d : SReg) (pos : BitVec 2) (imm : BitVec 16) (s : State) : Out :=
  .next (s.postS 1 d (movkVal (s.core.s d) pos imm) 0)

/-- PTOS (06 R160). -/
def execPtos (d : SReg) (a : PReg) (c : BitVec 2) (s : State) : Out :=
  .next (s.postMove 1 (.s d ((s.core.p a).extractLsb' (64 * c.toNat) 64)))
/-- MPSET (06 R160). -/
def execMpset (d : MpReg) (a : SReg) (s : State) : Out := .next (s.postMove 1 (.mp d (s.core.s a)))
/-- MPGET (06 R160). -/
def execMpget (d : SReg) (a : MpReg) (s : State) : Out := .next (s.postMove 1 (.s d (s.core.mp a)))
/-- CNTSET (06 R161). -/
def execCntset (d : Reg16) (a : SReg) (s : State) : Out :=
  .next (s.postMove 1 (.kSet d ((s.core.s a).setWidth 32)))
/-- CNTADD: the addition is made on the due tick (06 R161, R162). -/
def execCntadd (d : Reg16) (a : SReg) (s : State) : Out :=
  .next (s.postMove 1 (.kAdd d ((s.core.s a).setWidth 32)))
/-- CNTRD (06 R161). -/
def execCntrd (d : SReg) (a : Reg16) (s : State) : Out := .next (s.postMove 1 (.s d ((s.core.k a).setWidth 64)))
/-- CSRRD (06 R145). -/
def execCsrrd (d : SReg) (n : BitVec 13) (s : State) : Out :=
  match s.core.csr n.toNat with
  | some x => .next (s.postV 2 (.s d x) 0 false)
  | none => .next (s.issueTrap .illegalCsr n.toNat 0)
/-- CSRWR (06 R145). -/
def execCsrwr (n : BitVec 13) (a : SReg) (s : State) : Out :=
  if csrWritable n.toNat then .next (s.postV 1 (.csr n.toNat (s.core.s a)) 0 false)
  else .next (s.issueTrap .illegalCsr n.toNat 0)

/-- Entry of virtual die `v` in the map of context `ctx` (04 Table 04-3): its physical die, none where it
is not valid. -/
def cfgReg (s : State) (off : Nat) : Nat :=
  match s.rhoath.regs.find? (·.1 == off) with
  | some x => x.2.toNat
  | none => if 0x2000 ≤ off && off < 0x2100 && off % 16 = 0 then 0x83828180 else 0
def vdieOf (s : State) (ctx v : Nat) : Option DieId :=
  let e := bitsAt (cfgReg s (0x2000 + ctx % 16 * 16)) (8 * v) 8
  if v < 4 && bitAt e 7 then DieId.ofCode (e % 8) else none
/-- The route length between two dies (01 R29). -/
def routeLen (a b : DieId) : Nat :=
  if a = b then 0
  else if (a.code + 2 = b.code) || (b.code + 2 = a.code) || a.twin = b then 1 else 2
/-- VDQRY (06 R164). -/
def vdqryVal (s : State) (a b : Word) : Nat :=
  let ctx := match s.core.strand with | some st => st.ctx | none => 0
  match vdieOf s ctx a.toNat, vdieOf s ctx b.toNat with
  | some x, some y => routeLen x y
  | _, _ => 255
def execVdqry (d a b : SReg) (s : State) : Out :=
  .next (s.postV 2 (.s d (.ofNat 64 (vdqryVal s (s.core.s a) (s.core.s b)))) 0 false)

/-- LIX (06 R163): the loop stack is held innermost first. -/
def execLix (d : SReg) (n : BitVec 13) (s : State) : Out :=
  .next (s.postMove 1 (.s d (match s.core.loops[n.toNat]? with | some e => e.index.setWidth 64 | none => 0)))
/-- FRAMEQ (06 R165): the frame counter as it stands when the bundle issues (log 5). -/
def execFrameq (d : SReg) (s : State) : Out :=
  .next (s.postV 2 (.s d (s.frame.setWidth 64)) 0 false)

end Sys2Proof.Machine
end

