-- ==== Sys2Proof/Machine/Control.lean ====
section
/-! DEFINITION. The control slot: transfers, loops, waits, commits, signals, launches, traps (06 R166 to R184,
13 R377, R384, R390). -/

namespace Sys2Proof.Machine

/-! ## Transfers (06 R142, R167, R168) -/

/-- The core goes on at `target` on the third tick from this one. -/
def Core.goTo (c : Core) (target : Nat) : Core :=
  { c with pc := target, dead := c.dead + 2, ictx := { c.ictx with moved := true } }

/-- A taken transfer to `target`; one that is odd traps at issue. -/
def State.transfer (s : State) (target : Nat) : State :=
  if target % 2 = 1 then s.issueTrap .fetchRange 0x1F0 0 else s.onCore (·.goTo target)

/-- A taken transfer that links s63 to the following bundle. -/
def State.transferLink (s : State) (target : Nat) : State :=
  if target % 2 = 1 then s.issueTrap .fetchRange 0x1F0 0
  else (s.postV 1 (.link (.ofNat 64 s.core.ictx.npc)) 0 false).onCore (·.goTo target)

/-- s(a) + 2 × sext(imm14). -/
def regTarget (s : State) (a : SReg) (imm : BitVec 14) : Nat :=
  (s.core.s a + 2 * imm.signExtend 64).toNat

/-- NOP (06 R172). -/
def execNop (s : State) : Out := .next s
/-- BR (06 R167). -/
def execBr (off : BitVec 20) (s : State) : Out := .next (s.transfer (relTarget s.core.pc off.toInt))
/-- BRZ (06 R167). -/
def execBrz (a : SReg) (off : BitVec 20) (s : State) : Out :=
  .next (if s.core.s a = 0 then s.transfer (relTarget s.core.pc off.toInt) else s)
/-- BRNZ (06 R167). -/
def execBrnz (a : SReg) (off : BitVec 20) (s : State) : Out :=
  .next (if s.core.s a ≠ 0 then s.transfer (relTarget s.core.pc off.toInt) else s)
/-- JMP (06 R167). -/
def execJmp (a : SReg) (imm : BitVec 14) (s : State) : Out := .next (s.transfer (regTarget s a imm))
/-- CALL (06 R167). -/
def execCall (off : BitVec 20) (s : State) : Out := .next (s.transferLink (relTarget s.core.pc off.toInt))
/-- CALLR (06 R167). -/
def execCallr (a : SReg) (imm : BitVec 14) (s : State) : Out := .next (s.transferLink (regTarget s a imm))
/-- RET (06 R167). -/
def execRet (s : State) : Out := .next (s.transfer (s.core.s 63).toNat)

/-! ## Loops (06 R169 to R171) -/

/-- The address of the bundle after the one at `pc`, by its header's LENGTH; an end bundle that cannot be
read counts as empty (log 13). -/
def State.afterBundle (s : State) (pc : Nat) : Nat :=
  match s.core.strand with
  | some st =>
    if st.codeSize < pc + 4 then pc
    else
      let va := st.codeVa + pc
      match (s.lookup s.core.id st.ctx va).leaf with
      | some l =>
        let pa := s.route (l.base + va % pageBytes l.size)
        if (s.outOfReach pa).isSome then pc else pc + 2 * bitsAt (s.rd pa 2) 0 9
      | none => pc
  | none => pc
/-- The record of an entry that the walk of the bundle at `pc` rejects (09 R243). -/
def State.endRec (s : State) (pc : Nat) : State :=
  match s.core.strand with
  | some st =>
    if st.codeSize < pc + 4 then s
    else
      let va := st.codeVa + pc
      s.badPteRec s.core.id.die st.ctx va (s.lookup s.core.id st.ctx va) (s.coreMaster s.core.id 0)
  | none => s

/-- LOOP and LOOPI with count `cnt` and end offset `last` in halfwords. -/
def loopOp (cnt last : Nat) (s : State) : State :=
  let c := s.core
  let e := c.pc + 2 * last
  if 2 ^ 32 ≤ cnt then s.issueTrap .loopCount 0 0
  else if cnt = 0 then (s.endRec e).onCore (·.goTo (s.afterBundle e))
  else if 6 ≤ c.loops.length then s.issueTrap .loopOverflow 0 0
  else s.onCore fun c =>
    { c with loops := { index := 0, limit := .ofNat 32 cnt, start := c.ictx.npc, last := e } :: c.loops }
/-- LOOP (06 R169). -/
def execLoop (a : SReg) (last : BitVec 20) (s : State) : Out := .next (loopOp (s.core.s a).toNat last.toNat s)
/-- LOOPI (06 R169). -/
def execLoopi (cnt : BitVec 12) (last : BitVec 14) (s : State) : Out := .next (loopOp cnt.toNat last.toNat s)

/-- LBREAK (06 R171). -/
def execLbreak (a : SReg) (z : Bool) (s : State) : Out :=
  match s.core.loops with
  | [] => .next (s.issueTrap .loopEmpty 0 0)
  | e :: r =>
    if (s.core.s a == 0) == z then
      .next ((s.endRec e.last).onCore fun c => { c.goTo (s.afterBundle e.last) with loops := r })
    else .next s

/-- DISARM (06 R172, 05 R129): the slots of the mask lose their latches. -/
def execDisarm (mask : BitVec 8) (s : State) : Out :=
  .next (s.onCore fun c => { c with latch := c.latch.filter fun x => !(disarmSlots mask).contains x.1 })

/-! ## Commits (13 R384, 06 R177 to R180) -/

/-- The commit of the open region begins: its drain ticks, then its wait; every slot is disarmed (05 R129).
In a handler it is a HANDLER_FAULT (13 R376). -/
def State.commitThen (s : State) (after : AfterCommit) : State :=
  if s.core.snap.isSome then s.issueTrap .handlerFault 0 0
  else s.onCore fun c =>
    { c with dead := c.dead + (c.inst.horizon - c.tick), wait := some (.commit after), latch := [] }

/-- COMMIT (13 R384). -/
def execCommit (s : State) : Out := .next (s.commitThen .next)
/-- BAR (06 R177). -/
def execBar (s : State) : Out := .next (s.commitThen (.barrier false))
/-- SSTEP (06 R178): over the whole task where it is a superstep task. -/
def execSstep (s : State) : Out :=
  .next (s.commitThen (.barrier (match s.core.strand with | some st => st.superstep | none => false)))
/-- EXIT (06 R180). -/
def execExit (s : State) : Out := .next (s.commitThen .exit)

/-! ## Stops (13 R390, R393) -/

/-- Slots of the pool of die `d` that nothing holds (13 R393). -/
def State.slotsFree (s : State) (d : DieId) : Nat :=
  bitsAt (s.reg d 0xA500) 0 8 - (s.die d).slots.length
/-- The lowest free slots, `n` of them. -/
def freeSlots (d : Die) (n : Nat) : List Nat :=
  ((List.range (bitsAt (d.nat 0xA500) 0 8)).filter fun i => !d.slots.any (·.1 == i)).take n

/-- The strands of a gang that have not ended and hold no slot. -/
def State.slotless (s : State) (st : Strand) : List Nat :=
  let done := match (s.findTask st.task).bind fun t => t.gangs.find? (·.idx == st.gang) with
    | some g => g.ended
    | none => []
  (List.range st.gangSize).filter fun l =>
    !done.contains l && !(s.die s.core.id.die).slots.any fun x => x.2.1 == st.task && x.2.2.1 == st.gang && x.2.2.2 == l
/-- A slot for each strand `l` of the gang of the focus core; none where the pool holds too few (13 R390). -/
def State.takeSlots (s : State) (st : Strand) (l : List Nat) : Option State :=
  let d := s.die s.core.id.die
  if s.slotsFree d.id < l.length then none
  else
    some (s.setDie { d with slots := d.slots ++ ((freeSlots d l.length).zip l).map fun x => (x.1, st.task, st.gang, x.2) })

/-- Slots of the pool taken for every strand of the gang of the focus core, when its first strand stops; none
where the pool holds too few (13 R390, log 14). -/
def State.reserveSlots (s : State) : Option State :=
  match s.core.strand with
  | none => none
  | some st => s.takeSlots st (s.slotless st)

/-- Ticks until every pending write has fallen due. -/
def Core.pendEnd (c : Core) : Nat := (c.pend.map fun p => p.due - c.tick).foldl max 0
/-- YIELD (06 R179, 13 R390): the strand stops once the writes of the bundle have fallen due. No bundle has issued since the last COMMIT
in the first bundle of a strand, and in the one at which a discarded instance begins again: DESIGN CHOICE (log 112). -/
def execYield (s : State) : Out :=
  if s.core.snap.isSome then .next (s.issueTrap .handlerFault 0 0)
  else if s.core.atCommit && s.core.stop then
    match s.reserveSlots with
    | some s' => .next (s'.onCore fun c =>
        if c.pend.isEmpty then { c with stopping := some 1 } else { c with dead := c.dead + c.pendEnd, wait := some .yield })
    | none => .next s
  else .next s

/-! ## Waits (06 R173 to R176) -/

def State.waitOn (s : State) (w : Wait) : State := s.onCore fun c => { c with wait := some w }

/-- WAITLT (06 R173). -/
def execWaitlt (k : Reg16) (b : SReg) (imm : BitVec 14) (s : State) : Out :=
  .next (s.waitOn (.lt k ((s.core.s b).setWidth 32 + imm.setWidth 32)))
/-- The tokens that WAITTK names (06 R174). -/
def waitTokens (tk : BitVec 6) (mask : BitVec 8) : List (BitVec 6) :=
  tk :: (List.range 8).filterMap fun i => if mask.getLsbD i then some (tk + 1 + .ofNat 6 i) else none
/-- WAITTK (06 R174). -/
def execWaittk (tk : BitVec 6) (mask : BitVec 8) (s : State) : Out := .next (s.waitOn (.tokens (waitTokens tk mask)))
/-- FLAGWT (06 R175). -/
def execFlagwt (mask : BitVec 8) (s : State) : Out := .next (s.waitOn (.flags mask))
/-- WFE (06 R176). -/
def execWfe (s : State) : Out := .next (s.waitOn (.wfe false))

/-! ## Signals, launches, traps, handles (06 R181 to R184) -/

/-- SIGNAL (06 R181). -/
def execSignal (h : Reg16) (b : SReg) (dec : BitVec 14) (s : State) : Out :=
  let off := (s.core.s b).toNat
  .next (s.postOp h .a (.dec dec.toNat) ⟨.rel, .package⟩
    [{ off := off, len := 8, pos := 0, data := dec.toNat, cmp := 0 }] (off % 8 == 0) false 1 true)

/-- Do the 64 bytes at `off` lie within the page of handle `h`, as far as the handle knows it? -/
def inPage (h : HWord) (off n : Nat) : Bool :=
  off + n ≤ 2 ^ 27 && (!hPresent h || !hValid h || off + n ≤ pageBytes (hSize h))

/-- LAUNCH (06 R182). BAD_VDIE is taken before the re-walk of a handle that is not valid, and before PAGE_RIGHTS: DESIGN CHOICE
(log 113). -/
def execLaunch (h : Reg16) (b : SReg) (q : BitVec 6) (vd : BitVec 2) (s : State) : Out :=
  let off := (s.core.s b).toNat
  let ctx := match s.core.strand with | some st => st.ctx | none => 0
  if hInit (s.core.h h) && off % 64 == 0 && inPage (s.core.h h) off 64 && (vdieOf s ctx vd.toNat).isNone then
    .next (s.issueTrap .badVdie vd.toNat 0)
  else
    .next (s.postOp h .r (.launch q.toNat vd.toNat) plain
      [{ off := off, len := 64, pos := 0, data := 0, cmp := 0 }] (off % 64 == 0) false 1 true)

/-- TRAP (06 R183). -/
def execTrap (a : SReg) (code : BitVec 14) (s : State) : Out :=
  .next (s.afterTrap .soft (code.setWidth 64) (s.core.s a))
/-- EBREAK (06 R183). -/
def execEbreak (s : State) : Out := .next (s.afterTrap .brk 0 0)
/-- ERET (13 R377): two ticks without issue, then the return of `Core.resume`. -/
def execEret (s : State) : Out :=
  if s.core.snap.isSome then
    .next (s.onCore fun c =>
      { c with dead := c.dead + 2, wait := some .eret, ictx := { c.ictx with moved := true } })
  else .next (s.issueTrap .badEret 0 0)
/-- HINVALL (06 R184). -/
def execHinvall (s : State) : Out := .next (s.postMove 1 .hInvAll)

end Sys2Proof.Machine
end

