-- ==== Sys2Proof/Machine/MemSlot.lean ====
section
/-! DEFINITION. The memory slots MA and MB but for the atomics: near scratchpad, handles, handle-based loads and
stores, accumulator accesses, DRAIN and FENCE (09 R248, R262 to R266). -/

namespace Sys2Proof.Machine

/-! ## The near scratchpad (09 R262) -/

/-- The checks of an M1 access of `n` bytes aligned to `al` at `off`, then `k`. -/
def State.m1 (s : State) (off n al : Nat) (k : State) : State :=
  if off % al ≠ 0 then s.issueTrap .misaligned 0 0
  else if nspSize s.core.id < off + n then s.issueTrap .scratchRange 0 0
  else k

/-- A scalar value of `n` bytes extended to a register. -/
def extendN (n : Nat) (signed : Bool) (x : Nat) : Word :=
  if signed then .ofInt 64 ((IFmt.mk (8 * n) true).toInt x) else .ofNat 64 (x % 2 ^ (8 * n))

/-- LD (09 R262). -/
def execLd (sz : PReg) (t a : SReg) (imm : BitVec 18) (_ : Bool) (_ : BitVec 7) (s : State) : Out :=
  let n := sizeOf sz
  let off := s.addrM1 a imm
  .next (s.m1 off n n (((s.nspSeen s.core.id).postV 5
    (.s t (extendN n (sizeSigned sz) (bytesNat (s.nspRead s.core.id false off n)))) 0 false).injNsp s.core.id off n))
/-- ST (09 R262, R259). -/
def execSt (sz : PReg) (t a : SReg) (imm : BitVec 18) (_ : Bool) (_ : BitVec 7) (s : State) : Out :=
  let n := sizeOf sz
  let off := s.addrM1 a imm
  .next (s.m1 off n n ((s.noteDuring s.core.id (granules off n)).nspWrite s.core.id false off (natBytes (s.core.s t).toNat n)))

/-- The 256 bytes of a VLD or VLDW. -/
def State.nspVec (s : State) (swz : Bool) (off : Nat) : VWord :=
  if swz then
    .ofNat 2048 (packLanes 64 ((List.range 32).map fun g => bytesNat (s.nspRead s.core.id true (swizzle (off + 8 * g)) 8)))
  else .ofNat 2048 (bytesNat (s.nspRead s.core.id false off 256))
/-- The near scratchpad with the bytes of `x` that `p` names written at `off`. -/
def State.nspPutVec (s : State) (swz : Bool) (off : Nat) (p : PWord) (x : VWord) : State :=
  (List.range 32).foldl (fun s g =>
    let at' := if swz then swizzle (off + 8 * g) else off + 8 * g
    if (List.range 8).any fun i => p.getLsbD (8 * g + i) then
      s.nspGranule s.core.id swz (at' / 8) (fun i => p.getLsbD (8 * g + i)) (laneOf x 64 g)
    else s) s

def vldOp (swz : Bool) (al : Nat) (t : VRegN) (a : SReg) (p : PReg) (imm : BitVec 18) (s : State) : Out :=
  let off := s.addrM1 a imm
  .next (s.m1 off 256 al
    (((s.nspSeen s.core.id).postV 5 (.v t (s.nspVec swz off) (activeMask (s.core.p p) 8)) 0 false).injNsp s.core.id off 256))
def vstOp (swz : Bool) (al : Nat) (t : VRegN) (a : SReg) (p : PReg) (imm : BitVec 18) (s : State) : Out :=
  let off := s.addrM1 a imm
  let gs := if swz then (List.range 32).map fun g => swizzle (off + 8 * g) / 8 else granules off 256
  .next (s.m1 off 256 al ((s.noteDuring s.core.id gs).nspPutVec swz off (s.core.p p) (s.core.v t)))
/-- VLD (09 R262). -/
def execVld (t : VRegN) (a : SReg) (p : PReg) (imm : BitVec 18) (_ : Bool) (_ : BitVec 7) (s : State) : Out :=
  vldOp false 8 t a p imm s
/-- VST (09 R262). -/
def execVst (t : VRegN) (a : SReg) (p : PReg) (imm : BitVec 18) (_ : Bool) (_ : BitVec 7) (s : State) : Out :=
  vstOp false 8 t a p imm s
/-- VLDW: the swizzled view (09 R258, R262). -/
def execVldw (t : VRegN) (a : SReg) (p : PReg) (imm : BitVec 18) (_ : Bool) (_ : BitVec 7) (s : State) : Out :=
  vldOp true 256 t a p imm s
/-- VSTW: the swizzled view (09 R258, R262). -/
def execVstw (t : VRegN) (a : SReg) (p : PReg) (imm : BitVec 18) (_ : Bool) (_ : BitVec 7) (s : State) : Out :=
  vstOp true 256 t a p imm s

/-! ## Handles (09 R248) -/

/-- A pending write that waits for walk `w`. -/
def Core.postWalk (c : Core) (lat : Nat) (wr : Wr) (w : Nat) : Core :=
  { c with
    pend := c.pend ++ [{ due := c.tick + lat, no := c.issueNo, wr := wr, fl := 0, walk := some w }]
    inst := { c.inst with horizon := max c.inst.horizon (c.tick + lat + 16) } }

/-- XLT (09 R248). -/
def execXlt (h : Reg16) (a : SReg) (s : State) : Out :=
  let va := (s.core.s a).toNat
  if !isCanon va then .next (s.issueTrap .vaCanon 0 va)
  else
    let ctx := match s.core.strand with | some st => st.ctx | none => 0
    let w : Walk := { id := s.nextId, core := s.core.id, ctx := ctx, va := canonVa va, h := h, why := .xlt,
                      stale := false }
    .next { s with
      nextId := s.nextId + 1, walks := s.walks ++ [w]
      core := s.core.postWalk 6 (.h h (mkHandle (bitsAt va 15 41) ctx ⟨none, none⟩ true)) w.id }
/-- HINV (09 R248). -/
def execHinv (h : Reg16) (s : State) : Out := .next (s.postMove 1 (.hInv h))
/-- HQRY (09 R248, R249): a handle that is not valid is walked again and rewritten. One that is valid has a pending write too, which
keeps it (05 R119; log 107). -/
def execHqry (d : SReg) (h : Reg16) (s : State) : Out :=
  let hw := s.core.h h
  if !hInit hw then .next (s.postV 6 (.s d 0) 0 false)
  else if hValid hw then .next ((s.postV 6 (.s d (hw.setWidth 64)) 0 false).postMove 6 (.hKeep h))
  else
    let w := s.startWalk h .hqry
    .next (w.2.onCore fun c => (c.postWalk 6 (.s d (hw.setWidth 64)) w.1).postWalk 6 (.h h hw) w.1)

/-! ## Handle-based loads (09 R263) -/

def one (off len data : Nat) : List Elem := [{ off := off, len := len, pos := 0, data := data, cmp := 0 }]
def allAligned (al : Nat) (es : List Elem) : Bool := es.all fun e => e.off % al == 0

/-- LDL (09 R263). -/
def execLdl (sz : PReg) (t : SReg) (h : Reg16) (a : SReg) (off : BitVec 4) (land : BitVec 12) (_ : Bool)
    (_ : BitVec 5) (s : State) : Out :=
  let n := sizeOf sz
  let o := s.addrM2 a off n
  .next (s.landOp h .r .load plain (one o n 0) (o % n == 0) (.s t n (sizeSigned sz)) 1 land.toNat)
/-- VLDL (09 R263). -/
def execVldl (t : VRegN) (h : Reg16) (a : SReg) (p : PReg) (off : BitVec 4) (land : BitVec 12) (_ : Bool)
    (_ : BitVec 5) (s : State) : Out :=
  let o := s.addrM2 a off 256
  .next (s.landOp h .r .load plain (byteRuns (s.core.p p).getLsbD o 0) (o % 8 == 0)
    (.v t (activeMask (s.core.p p) 8)) 1 land.toNat)

/-- Elements of width `n` at a stride, for the active ones; `x` holds their data (09 R263). -/
def strideElems (p : PWord) (n base : Nat) (stride : Word) (x : VWord) : List Elem :=
  (List.range (256 / n)).filterMap fun i =>
    if activeLane p (8 * n) i then
      some { off := (BitVec.ofNat 64 base + stride * .ofNat 64 i).toNat, len := n, pos := n * i
             data := laneOf x (8 * n) i, cmp := 0 }
    else none
/-- The stride register s(a + 1). -/
def strideOf (s : State) (a : SReg) : Word := s.core.s (a + 1)
/-- VLDLX (09 R263). -/
def execVldlx (e : BitVec 2) (t : VRegN) (h : Reg16) (a : SReg) (p : PReg) (land : BitVec 12) (_ : Bool)
    (_ : BitVec 5) (s : State) : Out :=
  let n := 2 ^ e.toNat
  let es := strideElems (s.core.p p) n (s.addrM2 a 0 n) (strideOf s a) 0
  .next (s.landOp h .r .load plain es (allAligned n es) (.v t (activeMask (s.core.p p) (8 * n))) 1 land.toNat)

/-- The lanes of a gather or scatter: lane(va, i) + sext(off) × 4, with the latched vector of a re-issue. -/
def gatherElems (s : State) (va : VRegN) (p : PWord) (off : BitVec 4) (x : VWord) : List Elem :=
  let v := match s.core.ictx.addr with | some y => y.2.2 | none => s.core.v va
  let d : Word := match s.core.ictx.addr with | some y => y.1 | none => off.signExtend 64 * 4
  (List.range 64).filterMap fun i =>
    if activeLane p 32 i then
      some { off := (BitVec.ofNat 64 (laneOf v 32 i) + d).toNat, len := 4, pos := 4 * i, data := laneOf x 32 i, cmp := 0 }
    else none
/-- VGATH (09 R263). -/
def execVgath (t : VRegN) (h : Reg16) (va : VRegN) (p : PReg) (off : BitVec 4) (land : BitVec 12) (_ : Bool)
    (_ : BitVec 5) (s : State) : Out :=
  let es := gatherElems s va (s.core.p p) off 0
  .next (s.landOp h .r .load plain es (allAligned 4 es) (.v t (activeMask (s.core.p p) 32)) 1 land.toNat)

/-! ## Handle-based stores (09 R263, R261) -/

/-- STH (09 R263). -/
def execSth (sz : PReg) (t : SReg) (h : Reg16) (a : SReg) (off : BitVec 4) (_ : Bool) (_ : BitVec 5) (s : State) : Out :=
  let n := sizeOf sz
  let o := s.addrM2 a off n
  let es := one o n ((s.core.s t).toNat % 2 ^ (8 * n))
  .next (s.postOp h .w .store plain es (o % n == 0) false (linesOf es) false)
/-- VSTH (09 R263). -/
def execVsth (t : VRegN) (h : Reg16) (a : SReg) (p : PReg) (off : BitVec 4) (_ : Bool) (_ : BitVec 5) (s : State) : Out :=
  let o := s.addrM2 a off 256
  let es := byteRuns (s.core.p p).getLsbD o (s.core.v t)
  .next (s.postOp h .w .store plain es (o % 8 == 0) false (linesOf es) false)
/-- VSTHX (09 R263). -/
def execVsthx (e : BitVec 2) (t : VRegN) (h : Reg16) (a : SReg) (p : PReg) (_ : Bool) (_ : BitVec 5) (s : State) : Out :=
  let n := 2 ^ e.toNat
  let es := strideElems (s.core.p p) n (s.addrM2 a 0 n) (strideOf s a) (s.core.v t)
  .next (s.postOp h .w .store plain es (allAligned n es) false (linesOf es) false)
/-- VSCAT (09 R263). -/
def execVscat (t : VRegN) (h : Reg16) (va : VRegN) (p : PReg) (off : BitVec 4) (_ : Bool) (_ : BitVec 5) (s : State) : Out :=
  let es := gatherElems s va (s.core.p p) off (s.core.v t)
  .next (s.postOp h .w .store plain es (allAligned 4 es) true (linesOf es) false)

/-- PLD: a hint; the caches hold nothing that a program can tell from memory (09 R263). Through a handle that is not valid it starts the
re-walk, for which it does not wait (R247). -/
def execPld (h : Reg16) (_ : SReg) (_ : BitVec 4) (s : State) : Out :=
  .next (if hInit (s.core.h h) then s.rewalk h else s.issueTrap .badHandle 0 0)

/-! ## Accumulator accesses (09 R264) -/

/-- The checks of VLDA and VSTA on entry `e`, then the landing write `wr`. -/
def State.accOp (s : State) (e land : Nat) (reg : LandDst) (wr : Wr) : State :=
  if e % 64 ≠ 0 || accEntries s.core.id < e + 64 then s.issueTrap .accRange 0 0
  else if 64 < s.core.arbUsed + 1 then s.issueTrap .arbourFull 0 0
  else (s.addLanding 1 land reg (some wr) none false).2
/-- VLDA (09 R264). -/
def execVlda (int : Bool) (t : VRegN) (a : SReg) (p : PReg) (off : BitVec 4) (land : BitVec 12) (_ : Bool)
    (_ : BitVec 5) (s : State) : Out :=
  let e := s.addrM2 a off 64
  let m := activeMask (s.core.p p) 32
  .next (s.accOp e land.toNat (.v t m) (.vlda int t e m s.core.ictx.rnd s.core.ictx.sm []))
/-- VSTA (09 R264). -/
def execVsta (int : Bool) (t : VRegN) (a : SReg) (p : PReg) (off : BitVec 4) (land : BitVec 12) (_ : Bool)
    (_ : BitVec 5) (s : State) : Out :=
  let e := s.addrM2 a off 64
  .next (s.accOp e land.toNat .none (.vsta int e (s.core.v t) (activeMask (s.core.p p) 32)))

/-! ## Ordering (09 R266) -/

/-- DRAIN (09 R266). -/
def execDrain (s : State) : Out := .next (s.commitThen .drain)
/-- FENCE (09 R266): what it orders is read when an access leaves the strand (`waitsFor`); the earlier fences of a strand that
has nothing on its way order nothing more. -/
def execFence (scope : Scope) (pr pw sr sw : Bool) (s : State) : Out :=
  .next (s.onCore fun c =>
    let mine (a : Access) : Bool := match c.strand with
      | some st => a.task = some st.task && a.gang == st.gang && a.lcore == st.lcore
      | none => a.core == c.id
    let puts := match c.strand with
      | some st => s.effects.any fun e => e.task = some st.task && e.gang == st.gang && e.lcore == st.lcore
      | none => false
    let old := if c.trellis.isEmpty && !s.flight.any mine && !puts then [] else c.fences
    { c with fences := old ++ [(c.seq, pr, pw, sr, sw, scope)] })

end Sys2Proof.Machine
end

