-- ==== Sys2Proof/Machine/Atomics.lean ====
section
/-! DEFINITION. The atomics of the memory slots as they issue (09 R265, 12 R338 to R340). -/

namespace Sys2Proof.Machine

/-- Bytes of an atomic access: `w` chooses 64-bit integers, or BF16 in the float forms (12 R339). -/
def atomSize (op : AtomOp) (w : Bool) : Nat :=
  match op with
  | .fadd => if w then 2 else 4
  | _ => if w then 8 else 4

/-- The elements of a scalar or vector form. `t` names the compare value. -/
def atomElems (s : State) (op : AtomOp) (w v : Bool) (t a b : BitVec 6) : List Elem :=
  let n := atomSize op w
  if v then
    (List.range 64).map fun i =>
      { off := laneOf (s.core.v (vOf a)) 32 i, len := n, pos := 4 * i, data := laneOf (s.core.v (vOf b)) 32 i % 2 ^ (8 * n)
        cmp := laneOf (s.core.v (vOf t)) 32 i % 2 ^ (8 * n) }
  else
    [{ off := (s.core.s a).toNat, len := n, pos := 0, data := (s.core.s b).toNat % 2 ^ (8 * n)
       cmp := (s.core.s t).toNat % 2 ^ (8 * n) }]

/-- A returning atomic: it is sent once, whatever the replays of its instance (09 R265), and not in a handler. -/
def amoOp (op : AtomOp) (w v : Bool) (o : Ord) (sc : Scope) (t : BitVec 6) (h : Reg16) (a b : BitVec 6)
    (land : BitVec 12) (s : State) : Out :=
  let c := s.core
  let es := atomElems s op w v t a b
  if c.snap.isSome then .next (s.issueTrap .handlerFault 0 0)
  else if c.inst.amoSeen < c.inst.amoSent then
    .next (s.onCore fun c => { c with inst := { c.inst with amoSeen := c.inst.amoSeen + 1 } })
  else
    .next (s.landOp h .a (.amo op w) ⟨o, sc⟩ es (allAligned (atomSize op w) es)
      (if v then .v (vOf t) fullMask else .s t (atomSize op w) false) (if v then 2 else 1) land.toNat)

/-- A posted reduction, held until COMMIT (09 R261, R265). -/
def redOpM (op : AtomOp) (w v : Bool) (o : Ord) (sc : Scope) (h : Reg16) (a b : BitVec 6) (s : State) : Out :=
  let es := atomElems s op w v 0 a b
  .next (s.postOp h .a (.red op w) ⟨o, sc⟩ es (allAligned (atomSize op w) es) v 1 false)

/-- AMOADD (12 R340). -/
def execAmoadd (w v : Bool) (o : Ord) (sc : Scope) (t : BitVec 6) (h : Reg16) (a b : BitVec 6) (land : BitVec 12) (s : State) : Out :=
  amoOp .add w v o sc t h a b land s
/-- AMOMIN (12 R340). -/
def execAmomin (w v : Bool) (o : Ord) (sc : Scope) (t : BitVec 6) (h : Reg16) (a b : BitVec 6) (land : BitVec 12) (s : State) : Out :=
  amoOp .min w v o sc t h a b land s
/-- AMOMAX (12 R340). -/
def execAmomax (w v : Bool) (o : Ord) (sc : Scope) (t : BitVec 6) (h : Reg16) (a b : BitVec 6) (land : BitVec 12) (s : State) : Out :=
  amoOp .max w v o sc t h a b land s
/-- AMOAND (12 R340). -/
def execAmoand (w v : Bool) (o : Ord) (sc : Scope) (t : BitVec 6) (h : Reg16) (a b : BitVec 6) (land : BitVec 12) (s : State) : Out :=
  amoOp .and w v o sc t h a b land s
/-- AMOOR (12 R340). -/
def execAmoor (w v : Bool) (o : Ord) (sc : Scope) (t : BitVec 6) (h : Reg16) (a b : BitVec 6) (land : BitVec 12) (s : State) : Out :=
  amoOp .or w v o sc t h a b land s
/-- AMOXOR (12 R340). -/
def execAmoxor (w v : Bool) (o : Ord) (sc : Scope) (t : BitVec 6) (h : Reg16) (a b : BitVec 6) (land : BitVec 12) (s : State) : Out :=
  amoOp .xor w v o sc t h a b land s
/-- AMOSWP (12 R340). -/
def execAmoswp (w v : Bool) (o : Ord) (sc : Scope) (t : BitVec 6) (h : Reg16) (a b : BitVec 6) (land : BitVec 12) (s : State) : Out :=
  amoOp .swp w v o sc t h a b land s
/-- AMOCAS (12 R340). -/
def execAmocas (w v : Bool) (o : Ord) (sc : Scope) (t : BitVec 6) (h : Reg16) (a b : BitVec 6) (land : BitVec 12) (s : State) : Out :=
  amoOp .cas w v o sc t h a b land s
/-- AMOFADD (12 R340). -/
def execAmofadd (w v : Bool) (o : Ord) (sc : Scope) (t : BitVec 6) (h : Reg16) (a b : BitVec 6) (land : BitVec 12) (s : State) : Out :=
  amoOp .fadd w v o sc t h a b land s
/-- REDADD (12 R340). -/
def execRedadd (w v : Bool) (o : Ord) (sc : Scope) (h : Reg16) (a b : BitVec 6) (s : State) : Out :=
  redOpM .add w v o sc h a b s
/-- REDMIN (12 R340). -/
def execRedmin (w v : Bool) (o : Ord) (sc : Scope) (h : Reg16) (a b : BitVec 6) (s : State) : Out :=
  redOpM .min w v o sc h a b s
/-- REDMAX (12 R340). -/
def execRedmax (w v : Bool) (o : Ord) (sc : Scope) (h : Reg16) (a b : BitVec 6) (s : State) : Out :=
  redOpM .max w v o sc h a b s
/-- REDFADD (12 R340). -/
def execRedfadd (w v : Bool) (o : Ord) (sc : Scope) (h : Reg16) (a b : BitVec 6) (s : State) : Out :=
  redOpM .fadd w v o sc h a b s

end Sys2Proof.Machine
end

