-- ==== Sys2Proof/Machine/EngineIssue.lean ====
section
/-! DEFINITION. The engine slots as they issue: matrix operations into the XM queue and copy-engine operations
into the CE queue (05 R116, R124, 07 R201, R202, 11 R332 to R336, 10 R270, 13 R382). -/

namespace Sys2Proof.Machine

/-! ## Queues (05 R124) -/

/-- The tokens that an entry consumes (05 R111). -/
def consumed (tk : Tok) : List (BitVec 6) :=
  (List.range 3).filterMap fun i => if tk.cm.getLsbD i then some (tk.cb + .ofNat 6 i) else none
/-- Entries queued and started, and not complete. -/
def Core.openEntries (c : Core) : List QEntry :=
  c.xmq ++ c.ceq ++ c.xmDrain.map (·.ent) ++ c.xmRun.toList.map (·.ent) ++ c.ceRun.map (·.ent)
/-- Is token `t` pending (06 R174)? -/
def Core.tokPending (c : Core) (t : BitVec 6) : Bool := c.openEntries.any (·.tok.pt == t)
/-- The core after entry `e` has gone: a token that stops pending wakes a WFE (06 R174, R176). -/
def Core.tokenOver (c : Core) (e : QEntry) : Core := if c.tokPending e.tok.pt then c else c.wake
/-- The producers that an entry of this tick waits for: those that entered on an earlier tick. -/
def Core.depsOf (c : Core) (tk : Tok) : List Nat :=
  (c.openEntries.filter fun e => e.entered < c.issueNo && (consumed tk).contains e.tok.pt).map (·.id)

/-- A queue entry of the focus core. -/
def State.entry (s : State) (op : Instr) (tk : Tok) (mp0 a b : Word) (desc : VWord) (k : Reg16) : QEntry :=
  { id := s.nextId, seq := s.core.seq, op := op, tok := tk, deps := s.core.depsOf tk, mp := s.core.mpreg.set 0 mp0, efmt := s.core.efmt
    a := a, b := b, desc := desc, k := k, inst := s.core.inst.id, entered := s.core.issueNo }
/-- A bundle that finds its queue full, the XM queue or the CE queue, waits before it issues. -/
def State.noRoom (s : State) (xm : Bool) : State :=
  s.onCore fun c => { c with ictx := { c.ictx with stall := some (.room xm) } }
def State.enqXm (s : State) (e : QEntry) : State :=
  if 16 ≤ s.core.xmq.length then s.noRoom true
  else { s with nextId := s.nextId + 1, core := { s.core with xmq := s.core.xmq ++ [e], seq := s.core.seq + 1 } }
def State.enqCe (s : State) (e : QEntry) : State :=
  if 16 ≤ s.core.ceq.length then s.noRoom false
  else { s with nextId := s.nextId + 1, core := { s.core with ceq := s.core.ceq ++ [e], seq := s.core.seq + 1 } }

/-! ## The matrix slot -/

/-- EFMT in force at the core's present issue (07 R202). -/
def Core.efmtNow (c : Core) : Word :=
  (c.efmtPend.filter (·.1 ≤ c.issueNo)).foldl (fun _ x => x.2) c.efmt

/-- A value that EFMT can hold (07 R201). -/
def efmtField (x : Nat) : Bool :=
  let int := bitAt x 0
  let uns := bitAt x 1
  let wid := bitAt x 2
  let sub := bitsAt x 3 2
  bitsAt x 5 3 == 0 && (int || (!uns && !wid && sub == 0)) && !(uns && sub != 0)
def efmtOk (x : Word) : Bool :=
  bitsAt x.toNat 13 51 == 0 && efmtField (bitsAt x.toNat 0 8) && efmtField (bitsAt x.toNat 8 5)

/-- Does ACCEPT pass an EFMT (11 Table 11-3)? -/
def acceptOk (accept : Nat) (e : Word) : Bool :=
  let x := e.toNat
  bitAt accept 3 || (bitAt accept 0 && x % 2 ^ 16 == 0) ||
    (bitAt accept 1 && bitAt x 0 && bitAt x 8 && !bitAt x 2 && !bitAt x 10) ||
    (bitAt accept 2 && bitAt x 2 && bitAt x 10)

/-- MCALL (11 R333). -/
def execMcall (r : BitVec 6) (tk : Tok) (sb : Bool) (st : BitVec 6) (s : State) : Out :=
  let c := s.core
  let e := c.efmtNow
  match c.store.find? (·.1 == r.toNat) with
  | none => .next (s.issueTrap .noRoutine r.toNat 0)
  | some (_, _, accept) =>
    if !acceptOk accept e then .next (s.issueTrap .badEfmt (e.toNat % 2 ^ 16) 0)
    else
      let mp0 := match c.ictx.addr with | some x => x.1 | none => c.mp 0
      .next (s.enqXm { s.entry (.mcall r tk sb st) tk mp0 0 0 0 0 with efmt := e })
/-- MFMT (11 R334, 07 R201, R202): in force from the third issue after this one. -/
def execMfmt (f : SReg) (tk : Tok) (s : State) : Out :=
  let x := s.core.s f
  if !efmtOk x then .next (s.issueTrap .badEfmt (x.toNat % 2 ^ 16) 0)
  else
    .next ((s.enqXm (s.entry (.mfmt f tk) tk (s.core.mp 0) x 0 0 0)).onCore fun c =>
      { c with efmtPend := c.efmtPend ++ [(c.issueNo + 3, x)] })
/-- MCHK (11 R335). -/
def execMchk (f : SReg) (tk : Tok) (s : State) : Out :=
  .next (s.enqXm (s.entry (.mchk f tk) tk (s.core.mp 0) (s.core.s f) 0 0 0))
/-- MCLR (11 R335). -/
def execMclr (f : SReg) (tk : Tok) (s : State) : Out :=
  .next (s.enqXm (s.entry (.mclr f tk) tk (s.core.mp 0) (s.core.s f) 0 0 0))
/-- MLDSTORE (11 R336). -/
def execMldstore (f : SReg) (tk : Tok) (s : State) : Out :=
  .next (s.enqXm (s.entry (.mldstore f tk) tk (s.core.mp 0) (s.core.s f) 0 0 0))

/-! ## Descriptors (10 R275, R277) -/

/-- Lane Dn. -/
def descD (d : VWord) (n : Nat) : Nat := bitsAt d.toNat (64 * n) 64
def descDims (d : VWord) : Nat := bitsAt (descD d 2) 10 3
def descCnt (d : VWord) : Nat := bitsAt (descD d 2) 8 2
def descDstSpace (d : VWord) : Nat := bitsAt (descD d 2) 4 3
def descSrcSpace (d : VWord) : Nat := bitsAt (descD d 2) 0 3
def descN0 (d : VWord) : Nat := bitsAt (descD d 3) 0 24
/-- N1 to N6. -/
def descN (d : VWord) (i : Nat) : Nat :=
  if i ≤ 4 then bitsAt (descD d 4) (16 * (i - 1)) 16 else bitsAt (descD d 5) (16 * (i - 5)) 16
def descRuns (d : VWord) : Nat :=
  (List.range (descDims d - 1)).foldl (fun acc i => acc * descN d (i + 1)) 1
def descTotal (d : VWord) : Nat := descN0 d * descRuns d

/-- The cluster of a core (01 R21). -/
def clusterOf (c : CoreId) : Nat := c.num / 4
/-- Is `pa` in a bank of the core's own cluster that is in SCRATCH mode (04 R93)? -/
def State.ownScratch (s : State) (c : CoreId) (pa : Nat) : Bool :=
  match placeOf pa with
  | .bank cl b _ =>
    paDie pa == some c.die && cl == clusterOf c &&
      bitsAt (s.reg c.die (0x3000 + cl * 0x10 + b / 32 * 8)) (2 * (b % 32)) 2 == 1
  | _ => false

/-- The index of dimension `i` in run number `r`, dimension 1 varying fastest. -/
def runIndex (d : VWord) : Nat → Nat → Nat
  | 0, _ => 0
  | 1, r => r % descN d 1
  | i + 1, r => r / (List.range i).foldl (fun acc k => acc * descN d (k + 1)) 1 % descN d (i + 1)

/-- Source and destination of run `r`, modulo 2^64 (10 R277). -/
def runAt (d : VWord) (src dst r : Nat) : Nat × Nat :=
  (List.range (descDims d - 1)).foldl (fun acc k =>
    let i := k + 1
    let x := runIndex d i r
    ((acc.1 + x * descD d (4 + 2 * i)) % 2 ^ 64, (acc.2 + x * descD d (5 + 2 * i)) % 2 ^ 64)) (src, dst)

/-- Does a copy write at `pa` perform at once: in the near scratchpad of core `c`, or a SCRATCH bank of its own cluster (10
R274)? -/
def State.writesNow (s : State) (c : CoreId) (pa : Nat) : Bool :=
  s.ownScratch c pa ||
    match placeOf pa with
    | .nsp n _ => paDie pa == some c.die && n == c.num
    | _ => false

/-- Is every write of the copy performed at once (10 R274, 13 R385)? In the virtual space every page of every run is asked. -/
def State.localCopy (s : State) (op : Instr) (d : VWord) (dst : Nat) : Bool :=
  match op, s.core.strand with
  | .cpy .., some st | .cpysig .., some st =>
    descDstSpace d ≠ 0 || (List.range (descRuns d)).all fun r =>
      let a := (runAt d 0 dst r).2
      (List.range ((a % 0x8000 + descN0 d + 0x7FFF) / 0x8000)).all fun i =>
        (s.translate st.ctx (if i = 0 then a else a - a % 0x8000 + 0x8000 * i)).any fun x => s.writesNow s.core.id x.2
  | _, _ => false

/-- The budget units of a copy command at issue (13 R382). -/
def State.copyUnits (s : State) (op : Instr) (d : VWord) (dst : Nat) : Nat :=
  let lines := descRuns d * ((descN0 d + 63) / 64 + 1)
  let sig := match op with | .cpysig .. => 1 | _ => 0
  match op with
  | .psend .. => (descTotal d + 63) / 64
  | _ => (if s.localCopy op d dst then 0 else lines) + sig

/-- A copy command enters the CE queue, charged against the region's budget; `a` and `b` of its entry are SRC'
and DST' (10 R277, R282). -/
def copyOp (op : Instr) (tk : Tok) (v : VRegN) (a : SReg) (b : Option SReg) (k : Reg16) (s : State) : State :=
  let c := s.core
  let d := c.v v
  let src := match c.ictx.addr with | some x => x.1 | none => .ofNat 64 (descD d 0) + c.s a
  let dst := match c.ictx.addr with
    | some x => x.2.1
    | none => .ofNat 64 (descD d 1) + match b with | some r => c.s r | none => 0
  let n := s.copyUnits op d dst.toNat
  if c.overBudget n then s.issueTrap .regionBudget 0 0
  else (s.enqCe (s.entry op tk (c.mp 0) src dst d k)).onCore (·.charge n)

/-- CPY (10 R279). -/
def execCpy (tk : Tok) (v : VRegN) (a b : SReg) (k : Reg16) (sb : Bool) (st : BitVec 21) (s : State) : Out :=
  .next (copyOp (.cpy tk v a b k sb st) tk v a (some b) k s)
/-- CPYSIG (10 R281). -/
def execCpysig (tk : Tok) (v : VRegN) (a b : SReg) (k : Reg16) (sb : Bool) (st : BitVec 21) (s : State) : Out :=
  .next (copyOp (.cpysig tk v a b k sb st) tk v a (some b) k s)
/-- CPEER (10 R283). -/
def execCpeer (tk : Tok) (v : VRegN) (a b : SReg) (k : Reg16) (sb : Bool) (st : BitVec 21) (s : State) : Out :=
  .next (copyOp (.cpeer tk v a b k sb st) tk v a (some b) k s)
/-- PSEND (10 R288); an invalid virtual die is a trap (04 R91). -/
def execPsend (tk : Tok) (v : VRegN) (a : SReg) (k : Reg16) (s : State) : Out :=
  let vd := bitsAt (descD (s.core.v v) 21) 8 2
  let ctx := match s.core.strand with | some st => st.ctx | none => 0
  if (vdieOf s ctx vd).isNone then .next (s.issueTrap .badVdie vd 0)
  else .next (copyOp (.psend tk v a k) tk v a none k s)
/-- A command without a descriptor. -/
def plainCe (op : Instr) (tk : Tok) (a b : Word) (k : Reg16) (s : State) : State :=
  s.enqCe (s.entry op tk (s.core.mp 0) a b 0 k)
/-- BANKCFG (10 R286). -/
def execBankcfg (tk : Tok) (a b : SReg) (s : State) : Out :=
  .next (plainCe (.bankcfg tk a b) tk (s.core.s a) (s.core.s b) 0 s)
/-- STRMBIND (10 R297). -/
def execStrmbind (tk : Tok) (a : SReg) (k : Reg16) (s : State) : Out :=
  .next (plainCe (.strmbind tk a k) tk (s.core.s a) 0 k s)
/-- STRMREL (10 R297). -/
def execStrmrel (tk : Tok) (a b : SReg) (s : State) : Out :=
  .next (plainCe (.strmrel tk a b) tk (s.core.s a) (s.core.s b) 0 s)
/-- PGLOAD (10 R302). -/
def execPgload (tk : Tok) (a b : SReg) (s : State) : Out :=
  .next (plainCe (.pgload tk a b) tk (s.core.s a) (s.core.s b) 0 s)
/-- PGRUN (10 R302). -/
def execPgrun (tk : Tok) (b : SReg) (s : State) : Out := .next (plainCe (.pgrun tk b) tk 0 (s.core.s b) 0 s)
/-- PGSTOP (10 R302). -/
def execPgstop (tk : Tok) (b : SReg) (s : State) : Out := .next (plainCe (.pgstop tk b) tk 0 (s.core.s b) 0 s)
/-- PGRANT (10 R289). -/
def execPgrant (tk : Tok) (a : SReg) (s : State) : Out := .next (plainCe (.pgrant tk a) tk (s.core.s a) 0 0 s)
/-- CFLUSH (10 R303). -/
def execCflush (tk : Tok) (a b : SReg) (s : State) : Out :=
  .next (plainCe (.cflush tk a b) tk (s.core.s a) (s.core.s b) 0 s)
/-- CINV (10 R303). -/
def execCinv (tk : Tok) (a b : SReg) (s : State) : Out :=
  .next (plainCe (.cinv tk a b) tk (s.core.s a) (s.core.s b) 0 s)

end Sys2Proof.Machine
end

