-- ==== Sys2Proof/Machine/ScalarFp.lean ====
section
/-! DEFINITION. The floating-point operations of the scalar slots (06 R156 to R159). -/

namespace Sys2Proof.Machine

def widthFmt : Width → Fmt | .f32 => fp32 | .f64 => fp64
/-- The operand of width `w` in a register (06 R156). -/
def fpArg (w : Width) (x : Word) : Nat := x.toNat % 2 ^ (widthFmt w).bits

/-- A floating-point result of the focus core in the bundle's rounding and saturation, due in 4 ticks. -/
def fpOp (op : Rnd → Val → Val → Val × Flags) (w : Width) (d a b : SReg) (s : State) : Out :=
  let x := fpBin (widthFmt w) s.core.ictx.rnd s.core.ictx.sm op (fpArg w (s.core.s a)) (fpArg w (s.core.s b))
  .next (s.postS 4 d (.ofNat 64 x.1) x.2)

/-- FADD (06 Table 06-11). -/
def execFadd (w : Width) (d a b : SReg) (s : State) : Out := fpOp addV w d a b s
/-- FSUB (06 Table 06-11). -/
def execFsub (w : Width) (d a b : SReg) (s : State) : Out := fpOp subV w d a b s
/-- FMUL (06 Table 06-11). -/
def execFmul (w : Width) (d a b : SReg) (s : State) : Out := fpOp mulV w d a b s
/-- FFMA: s(d) is the addend (06 Table 06-11). -/
def execFfma (w : Width) (d a b : SReg) (s : State) : Out :=
  let x := fpFma (widthFmt w) s.core.ictx.rnd s.core.ictx.sm false false (fpArg w (s.core.s a))
    (fpArg w (s.core.s b)) (fpArg w (s.core.s d))
  .next (s.postS 4 d (.ofNat 64 x.1) x.2)
def fpMinMax (isMax : Bool) (w : Width) (d a b : SReg) (s : State) : Out :=
  let x := minMaxBits isMax (widthFmt w) (fpArg w (s.core.s a)) (fpArg w (s.core.s b))
  .next (s.postS 4 d (.ofNat 64 x.1) x.2)
/-- FMIN (06 R156). -/
def execFmin (w : Width) (d a b : SReg) (s : State) : Out := fpMinMax false w d a b s
/-- FMAX (06 R156). -/
def execFmax (w : Width) (d a b : SReg) (s : State) : Out := fpMinMax true w d a b s
/-- FCMP (06 R157). -/
def execFcmp (w : Width) (cc : Rel) (d a b : SReg) (s : State) : Out :=
  let x := relVal cc (decodeVal (widthFmt w) (fpArg w (s.core.s a)))
    (decodeVal (widthFmt w) (fpArg w (s.core.s b)))
  .next (s.postS 4 d (if x.1 then 1 else 0) x.2)
/-- FCVT (06 R158). -/
def execFcvt (dst src : CvtFmt) (d a : SReg) (s : State) : Out :=
  let x := cvtNum (cvtFmtNum dst) (cvtFmtNum src) s.core.ictx.rnd s.core.ictx.sm (s.core.s a).toNat
  .next (s.postS 4 d (placeCvt dst x.1) x.2)
/-- FCLASS (06 R159). -/
def execFclass (w : Width) (d a : SReg) (s : State) : Out :=
  .next (s.postS 4 d (.ofNat 64 (classBits (widthFmt w) (fpArg w (s.core.s a)))) 0)

end Sys2Proof.Machine
end

