-- ==== Sys2Proof/Machine/Vector.lean ====
section
/-! DEFINITION. The vector slots: arithmetic, compares, moves, permutes, reductions, conversions, predicates
(08 R212 to R233). -/

namespace Sys2Proof.Machine

/-! ## Forms -/

/-- A result for each active element of type `t`, due in `lat` ticks (08 R214, R215). -/
def vecOp (t : ElemType) (lat : Nat) (arith : Bool) (vd : VRegN) (p : PReg) (f : Nat → Nat × Flags) (s : State) : Out :=
  let pw := s.core.p p
  let l := (List.range t.lanes).map fun i => if activeLane pw t.width i then f i else (0, 0)
  .next (s.postV lat (.v vd (ofLanes t.width (l.map (·.1))) (activeMask pw t.width)) (orFlags (l.map (·.2))) arith)

def vec1 (t : ElemType) (lat : Nat) (arith : Bool) (f : Nat → Nat × Flags) (vd va : VRegN) (p : PReg) (s : State) : Out :=
  vecOp t lat arith vd p (fun i => f (laneOf (s.core.v va) t.width i)) s
def vec2 (t : ElemType) (lat : Nat) (arith : Bool) (f : Nat → Nat → Nat × Flags) (vd va vb : VRegN) (p : PReg)
    (s : State) : Out :=
  vecOp t lat arith vd p (fun i => f (laneOf (s.core.v va) t.width i) (laneOf (s.core.v vb) t.width i)) s
def vec3 (t : ElemType) (lat : Nat) (f : Nat → Nat → Nat → Nat × Flags) (vd va vb vc : VRegN) (p : PReg)
    (s : State) : Out :=
  vecOp t lat true vd p
    (fun i => f (laneOf (s.core.v va) t.width i) (laneOf (s.core.v vb) t.width i) (laneOf (s.core.v vc) t.width i)) s

/-- An integer function of two elements, taken modulo 2^w (08 R219). -/
def intF2 (t : ElemType) (f : Int → Int → Int) (a b : Nat) : Nat × Flags :=
  ((ifmtOf t).wrap (f ((ifmtOf t).toInt a) ((ifmtOf t).toInt b)), 0)
/-- A function of two bit patterns. -/
def bitF2 (t : ElemType) (f : Nat → Nat → Nat) (a b : Nat) : Nat × Flags := (f a b % 2 ^ t.width, 0)

/-- An operation that has a floating and an integer form (08 R218, R219). -/
def arith2 (t : ElemType) (fop : Rnd → Val → Val → Val × Flags) (iop : Int → Int → Int) (vd va vb : VRegN)
    (p : PReg) (s : State) : Out :=
  if t.isFlt then vec2 t 4 true (fpBin (fmtOf t) s.core.ictx.rnd s.core.ictx.sm fop) vd va vb p s
  else vec2 t 2 true (intF2 t iop) vd va vb p s
def fma3 (t : ElemType) (np nc : Bool) (iop : Int → Int → Int → Int) (vd va vb vc : VRegN) (p : PReg) (s : State) : Out :=
  if t.isFlt then vec3 t 4 (fpFma (fmtOf t) s.core.ictx.rnd s.core.ictx.sm np nc) vd va vb vc p s
  else
    let g := ifmtOf t
    vec3 t 2 (fun a b c => (g.wrap (iop (g.toInt a) (g.toInt b) (g.toInt c)), 0)) vd va vb vc p s
def minMax2 (t : ElemType) (isMax : Bool) (a b : Nat) : Nat × Flags :=
  if t.isFlt then minMaxBits isMax (fmtOf t) a b
  else intF2 t (fun x y => if isMax then max x y else min x y) a b

/-! ## Element-wise arithmetic (08 R218, R219) -/

/-- VADD (08 R218, R219). -/
def execVadd (t : ElemType) (vd va vb : VRegN) (p : PReg) (_ : Bool) (s : State) : Out :=
  arith2 t addV (fun x y => x + y) vd va vb p s
/-- VSUB (08 R218, R219). -/
def execVsub (t : ElemType) (vd va vb : VRegN) (p : PReg) (_ : Bool) (s : State) : Out :=
  arith2 t subV (fun x y => x - y) vd va vb p s
/-- VMUL (08 R218, R219). -/
def execVmul (t : ElemType) (vd va vb : VRegN) (p : PReg) (_ : Bool) (s : State) : Out :=
  arith2 t mulV (fun x y => x * y) vd va vb p s
/-- VFMA (08 R218, R219). -/
def execVfma (t : ElemType) (vd va vb vc : VRegN) (p : PReg) (_ : Bool) (s : State) : Out :=
  fma3 t false false (fun x y z => x * y + z) vd va vb vc p s
/-- VFMS (08 R218, R219). -/
def execVfms (t : ElemType) (vd va vb vc : VRegN) (p : PReg) (_ : Bool) (s : State) : Out :=
  fma3 t false true (fun x y z => x * y - z) vd va vb vc p s
/-- VFNMA (08 R218, R219). -/
def execVfnma (t : ElemType) (vd va vb vc : VRegN) (p : PReg) (_ : Bool) (s : State) : Out :=
  fma3 t true false (fun x y z => z - x * y) vd va vb vc p s
/-- VMIN (08 R218, R219). -/
def execVmin (t : ElemType) (vd va vb : VRegN) (p : PReg) (_ : Bool) (s : State) : Out :=
  vec2 t 2 true (minMax2 t false) vd va vb p s
/-- VMAX (08 R218, R219). -/
def execVmax (t : ElemType) (vd va vb : VRegN) (p : PReg) (_ : Bool) (s : State) : Out :=
  vec2 t 2 true (minMax2 t true) vd va vb p s
/-- VABS (08 R218, R219). -/
def execVabs (t : ElemType) (vd va : VRegN) (p : PReg) (_ : Bool) (s : State) : Out :=
  vec1 t 2 true (fun a =>
    if t.isFlt then (a % 2 ^ (t.width - 1), 0) else ((ifmtOf t).wrap ((ifmtOf t).toInt a).natAbs, 0)) vd va p s
/-- VNEG (08 R218, R219). -/
def execVneg (t : ElemType) (vd va : VRegN) (p : PReg) (_ : Bool) (s : State) : Out :=
  vec1 t 2 true (fun a =>
    if t.isFlt then ((a + 2 ^ (t.width - 1)) % 2 ^ t.width, 0)
    else ((ifmtOf t).wrap (-(ifmtOf t).toInt a), 0)) vd va p s
/-- VAND (08 R219). -/
def execVand (t : ElemType) (vd va vb : VRegN) (p : PReg) (_ : Bool) (s : State) : Out :=
  vec2 t 2 true (bitF2 t (fun a b => a &&& b)) vd va vb p s
/-- VOR (08 R219). -/
def execVor (t : ElemType) (vd va vb : VRegN) (p : PReg) (_ : Bool) (s : State) : Out :=
  vec2 t 2 true (bitF2 t (fun a b => a ||| b)) vd va vb p s
/-- VXOR (08 R219). -/
def execVxor (t : ElemType) (vd va vb : VRegN) (p : PReg) (_ : Bool) (s : State) : Out :=
  vec2 t 2 true (bitF2 t (fun a b => a ^^^ b)) vd va vb p s
/-- VANDN (08 R219). -/
def execVandn (t : ElemType) (vd va vb : VRegN) (p : PReg) (_ : Bool) (s : State) : Out :=
  vec2 t 2 true (bitF2 t (fun a b => a &&& (b ^^^ (2 ^ t.width - 1)))) vd va vb p s
/-- VSHL (08 R219). -/
def execVshl (t : ElemType) (vd va vb : VRegN) (p : PReg) (_ : Bool) (s : State) : Out :=
  vec2 t 2 true (bitF2 t (fun a b => a * 2 ^ (b % t.width))) vd va vb p s
/-- VSHR (08 R219). -/
def execVshr (t : ElemType) (vd va vb : VRegN) (p : PReg) (_ : Bool) (s : State) : Out :=
  vec2 t 2 true (bitF2 t (fun a b => a / 2 ^ (b % t.width))) vd va vb p s
/-- VSAR: the sign bit of the pattern fills, on unsigned types too (08 R219). -/
def execVsar (t : ElemType) (vd va vb : VRegN) (p : PReg) (_ : Bool) (s : State) : Out :=
  vec2 t 2 true (fun a b =>
    ((IFmt.mk t.width true).wrap ((IFmt.mk t.width true).toInt a / (2 ^ (b % t.width) : Nat)), 0)) vd va vb p s
/-- VMULH (08 R219). -/
def execVmulh (t : ElemType) (vd va vb : VRegN) (p : PReg) (_ : Bool) (s : State) : Out :=
  vec2 t 2 true (intF2 t (fun x y => x * y / (2 ^ t.width : Nat))) vd va vb p s
/-- VAVG (08 R218, R219). -/
def execVavg (t : ElemType) (vd va vb : VRegN) (p : PReg) (_ : Bool) (s : State) : Out :=
  arith2 t avgV (fun x y => (x + y + 1) / 2) vd va vb p s
/-- VCLZ (08 R219). -/
def execVclz (t : ElemType) (vd va : VRegN) (p : PReg) (_ : Bool) (s : State) : Out :=
  vec1 t 2 true (fun a => (leadingZeros a t.width, 0)) vd va p s
/-- The number of ones among the low `n` bits. -/
def onesOf (x : Nat) : Nat → Nat
  | 0 => 0
  | n + 1 => x % 2 + onesOf (x / 2) n
/-- VPOPC (08 R219). -/
def execVpopc (t : ElemType) (vd va : VRegN) (p : PReg) (_ : Bool) (s : State) : Out :=
  vec1 t 2 true (fun a => (onesOf a t.width, 0)) vd va p s

/-! ## Compare, select, moves (08 R220 to R222) -/

def relLane (t : ElemType) (cc : Rel) (a b : Nat) : Bool × Flags :=
  if t.isFlt then relVal cc (decodeVal (fmtOf t) a) (decodeVal (fmtOf t) b)
  else (relInt cc ((ifmtOf t).toInt a) ((ifmtOf t).toInt b), 0)
/-- VCMP (08 R220). -/
def execVcmp (t : ElemType) (cc : Rel) (pd : PReg) (va vb : VRegN) (p : PReg) (_ : Bool) (s : State) : Out :=
  let pw := s.core.p p
  let r (i : Nat) : Bool × Flags :=
    relLane t cc (laneOf (s.core.v va) t.width i) (laneOf (s.core.v vb) t.width i)
  let fl := orFlags ((List.range t.lanes).map fun i => if activeLane pw t.width i then (r i).2 else 0)
  .next (s.postV 2 (.p pd (byteMask t.width fun i => (r i).1) (byteMask t.width (activeLane pw t.width))) fl true)
/-- VSEL (08 R221). -/
def execVsel (t : ElemType) (vd va vb : VRegN) (p : PReg) (_ : Bool) (s : State) : Out :=
  let m := activeMask (s.core.p p) t.width
  .next (s.postV 2 (.v vd ((s.core.v va &&& m) ||| (s.core.v vb &&& ~~~m)) fullMask) 0 false)
/-- VMOV (08 R221). -/
def execVmov (t : ElemType) (vd va : VRegN) (p : PReg) (_ : Bool) (s : State) : Out :=
  vec1 t 2 false (fun a => (a, 0)) vd va p s
/-- VBCAST (08 R221). -/
def execVbcast (t : ElemType) (vd : VRegN) (n : SReg) (p : PReg) (_ : Bool) (s : State) : Out :=
  vecOp t 3 false vd p (fun _ => ((s.core.s n).toNat % 2 ^ t.width, 0)) s
/-- VEXT (08 R222). -/
def execVext (t : ElemType) (d : SReg) (va : VRegN) (idx : BitVec 10) (_ : Bool) (s : State) : Out :=
  let x := laneOf (s.core.v va) t.width idx.toNat
  let y : Word := if t.isSgn then .ofInt 64 ((ifmtOf t).toInt x) else .ofNat 64 x
  .next (s.postV 3 (.s d y) 0 false)
/-- VINS (08 R222). -/
def execVins (t : ElemType) (vd : VRegN) (n : SReg) (idx : BitVec 10) (_ : Bool) (s : State) : Out :=
  let m : VWord := .ofNat 2048 ((2 ^ t.width - 1) * 2 ^ (t.width * idx.toNat))
  .next (s.postV 3 (.v vd (.ofNat 2048 ((s.core.s n).toNat % 2 ^ t.width * 2 ^ (t.width * idx.toNat))) m) 0 false)
/-- The active elements below `i` (08 R221). -/
def activeBelow (p : PWord) (w : Nat) : Nat → Nat
  | 0 => 0
  | i + 1 => activeBelow p w i + b2n (activeLane p w i)
/-- VIOTA (08 R221). -/
def execViota (t : ElemType) (vd : VRegN) (p : PReg) (_ : Bool) (s : State) : Out :=
  vecOp t 2 false vd p (fun i => (activeBelow (s.core.p p) t.width i % 2 ^ t.width, 0)) s

/-! ## Permutes (08 R223) -/

/-- VPERM (08 R223). -/
def execVperm (t : ElemType) (vd va vb : VRegN) (p : PReg) (_ : Bool) (s : State) : Out :=
  vecOp t 3 false vd p
    (fun i => (laneOf (s.core.v va) t.width (laneOf (s.core.v vb) t.width i % t.lanes), 0)) s
/-- VROT (08 R223). -/
def execVrot (t : ElemType) (vd va : VRegN) (n : SReg) (p : PReg) (_ : Bool) (s : State) : Out :=
  vecOp t 3 false vd p
    (fun i => (laneOf (s.core.v va) t.width ((i + (s.core.s n).toNat % t.lanes) % t.lanes), 0)) s
/-- VSLIDE (08 R223). -/
def slideLane (t : ElemType) (a b : VWord) (up : Bool) (k i : Nat) : Nat :=
  let n := t.lanes
  if up then
    if k ≤ i then laneOf a t.width (i - k) else if k ≤ n + i then laneOf b t.width (n + i - k) else 0
  else
    if i + k < n then laneOf a t.width (i + k)
    else if i + k < 2 * n then laneOf b t.width (i + k - n) else 0
def execVslide (t : ElemType) (vd va vb : VRegN) (n : SReg) (up : Bool) (p : PReg) (_ : Bool) (s : State) : Out :=
  vecOp t 3 false vd p
    (fun i => (slideLane t (s.core.v va) (s.core.v vb) up (min (s.core.s n).toNat (2 * t.lanes)) i, 0)) s
/-- VZIP (08 R223). -/
def execVzip (t : ElemType) (vd va vb : VRegN) (hi : Bool) (p : PReg) (_ : Bool) (s : State) : Out :=
  vecOp t 3 false vd p
    (fun i => (laneOf (s.core.v (if i % 2 = 0 then va else vb)) t.width (b2n hi * (t.lanes / 2) + i / 2), 0)) s
/-- VUNZIP (08 R223). -/
def execVunzip (t : ElemType) (vd va vb : VRegN) (hi : Bool) (p : PReg) (_ : Bool) (s : State) : Out :=
  let h := t.lanes / 2
  vecOp t 3 false vd p
    (fun i => (laneOf (s.core.v (if i < h then va else vb)) t.width (2 * (i % h) + b2n hi), 0)) s

/-! ## Reductions, scans, dot products (07 R210, R211, 08 R224 to R227) -/

/-- One step of the pairwise tree: two halves of a list combined, an absent element giving the other. -/
def treeStep (f : Nat → Nat → Nat × Flags) (a b : Option Nat) : Option Nat × Flags :=
  match a, b with
  | none, y => (y, 0)
  | some x, none => (some x, 0)
  | some x, some y => (some (f x y).1, (f x y).2)
/-- The tree of 07 R210 over a list of 2^k elements. -/
def treeSum (f : Nat → Nat → Nat × Flags) : Nat → List (Option Nat) → Option Nat × Flags
  | 0, l => (l.headD none, 0)
  | k + 1, l =>
    let z := (List.zip (l.take (2 ^ k)) (l.drop (2 ^ k))).map fun x => treeStep f x.1 x.2
    let r := treeSum f k (z.map (·.1))
    (r.1, orFlags (z.map (·.2)) ||| r.2)

def redOp (t : ElemType) (f : Nat → Nat → Nat × Flags) (dflt : Nat) (vd va : VRegN) (p : PReg) (s : State) : Out :=
  let l := (List.range t.lanes).map fun i =>
    if activeLane (s.core.p p) t.width i then some (laneOf (s.core.v va) t.width i) else none
  let r := treeSum f t.lanes.log2 l
  .next (s.postV 8 (.v vd (.ofNat 2048 (r.1.getD dflt % 2 ^ t.width)) fullMask) r.2 true)
/-- One addition of VREDADD and VSCAN. -/
def addLane (t : ElemType) (s : State) (a b : Nat) : Nat × Flags :=
  if t.isFlt then fpBin (fmtOf t) s.core.ictx.rnd s.core.ictx.sm addV a b else intF2 t (fun x y => x + y) a b
/-- VREDADD (08 R224). -/
def execVredadd (t : ElemType) (vd va : VRegN) (p : PReg) (_ : Bool) (s : State) : Out :=
  redOp t (addLane t s) 0 vd va p s
/-- VREDMAX (08 R224). -/
def execVredmax (t : ElemType) (vd va : VRegN) (p : PReg) (_ : Bool) (s : State) : Out :=
  redOp t (minMax2 t true) (if t.isFlt then infBits (fmtOf t) true else (ifmtOf t).wrap (ifmtOf t).min) vd va p s
/-- VREDMIN (08 R224). -/
def execVredmin (t : ElemType) (vd va : VRegN) (p : PReg) (_ : Bool) (s : State) : Out :=
  redOp t (minMax2 t false) (if t.isFlt then infBits (fmtOf t) false else (ifmtOf t).wrap (ifmtOf t).max) vd va p s
/-- Running sums: the list of sums and the flags. -/
def scanLanes (f : Nat → Nat → Nat × Flags) : Option Nat → List (Option Nat) → List Nat × Flags
  | _, [] => ([], 0)
  | acc, x :: r =>
    let z := treeStep f acc x
    let y := scanLanes f z.1 r
    (z.1.getD 0 :: y.1, z.2 ||| y.2)
/-- VSCAN (08 R225). -/
def execVscan (t : ElemType) (vd va : VRegN) (p : PReg) (_ : Bool) (s : State) : Out :=
  let r := scanLanes (addLane t s) none ((List.range t.lanes).map fun i =>
    if activeLane (s.core.p p) t.width i then some (laneOf (s.core.v va) t.width i) else none)
  .next (s.postV 8 (.v vd (ofLanes t.width r.1) fullMask) r.2 true)

/-- The exact sum of VDOT4 on E4M3 and E5M2 elements (08 R226). -/
def dot4F (f : Fmt) (m : Rnd) (sm : Sat) (c : Nat) (a b : List Nat) : Nat × Flags :=
  let cv := decodeVal fp32 c
  let av := a.map (decodeVal f)
  let bv := b.map (decodeVal f)
  let all := cv :: av ++ bv
  let x : Val × Flags := match firstNan all with
    | some n => (quietVal n, when (all.any Val.isSnan) fNV)
    | none => (av.zip bv).foldl (fun acc ab =>
        let q := mulVal ab.1 ab.2
        let r := addVal m acc.1 q.1
        (r.1, acc.2 ||| q.2 ||| r.2)) (cv, 0)
  let y := convert fp32 m sm x.1
  (y.1, x.2 ||| y.2)
/-- VDOT4 (08 R226). -/
def execVdot4 (t : ElemType) (vd va vb vc : VRegN) (p : PReg) (_ : Bool) (s : State) : Out :=
  let a (i : Nat) : List Nat := (List.range 4).map fun j => laneOf (s.core.v va) 8 (4 * i + j)
  let b (i : Nat) : List Nat := (List.range 4).map fun j => laneOf (s.core.v vb) 8 (4 * i + j)
  let c (i : Nat) : Nat := laneOf (s.core.v vc) 32 i
  vecOp .i32 8 true vd p (fun i =>
    if t.isF8 then dot4F (fmtOf t) s.core.ictx.rnd s.core.ictx.sm (c i) (a i) (b i)
    else
      ((ifmtOf .i32).wrap (((a i).zip (b i)).foldl
        (fun acc ab => acc + (ifmtOf t).toInt ab.1 * (ifmtOf t).toInt ab.2) ((ifmtOf .i32).toInt (c i))), 0)) s

/-- One lane of VABSMAX: the vc lane against the magnitudes of its block (08 R227). -/
def absmaxLane (f : Fmt) (c : Nat) (l : List Nat) : Nat × Flags :=
  let vals := decodeVal fp32 c :: l.map (decodeVal f)
  match firstNan vals with
  | some n => ((convert fp32 .rne .none (quietVal n)).1, when n.isSnan fNV)
  | none => (l.foldl (fun acc e => (minMaxBits true fp32 acc (convert fp32 .rne .none (decodeVal f e).abs).1).1) c, 0)
/-- VABSMAX (08 R227). -/
def execVabsmax (t : ElemType) (vd va vc : VRegN) (p : PReg) (_ : Bool) (s : State) : Out :=
  let n := t.lanes
  let l := (List.range 64).map fun j =>
    let els := (List.range 128).filterMap fun i =>
      if 128 * j + i < n && activeLane (s.core.p p) t.width (128 * j + i) then
        some (laneOf (s.core.v va) t.width (128 * j + i))
      else none
    let c := laneOf (s.core.v vc) 32 j
    if 128 * j < n then absmaxLane (fmtOf t) c els else (c, 0)
  .next (s.postV 8 (.v vd (ofLanes 32 (l.map (·.1))) fullMask) (orFlags (l.map (·.2))) true)

/-! ## Conversions (08 R228 to R232) -/

/-- The destination and source index pairs of VCVT and VSCALE for destination element `j`: none where the
operation does not write `j` (08 R229). -/
def cvtSource (t u : ElemType) (part j : Nat) : Option Nat :=
  if t.width < u.width then
    let n := u.lanes
    if part * n ≤ j && j < part * n + n then some (j - part * n) else none
  else some (part * t.lanes + j)

/-- A result for each active element that the operation names. -/
def vecSome (t : ElemType) (lat : Nat) (vd : VRegN) (p : PReg) (f : Nat → Option (Nat × Flags)) (s : State) : Out :=
  let pw := s.core.p p
  let l := (List.range t.lanes).map fun i => if activeLane pw t.width i then f i else none
  .next (s.postV lat (.v vd (ofLanes t.width (l.map fun x => (x.map (·.1)).getD 0))
    (laneMask t.width fun i => (l.getD i none).isSome)) (orFlags (l.map fun x => (x.map (·.2)).getD 0)) true)

/-- VCVT (08 R229). -/
def execVcvt (t src : ElemType) (vd va : VRegN) (part : BitVec 4) (p : PReg) (_ : Bool) (s : State) : Out :=
  vecSome t 3 vd p (fun j => (cvtSource t src part.toNat j).map fun g =>
    cvtNum (elemNum t) (elemNum src) s.core.ictx.rnd s.core.ictx.sm (laneOf (s.core.v va) src.width g)) s
/-- VPACK (08 R230). -/
def execVpack (t src : ElemType) (vd va vb : VRegN) (p : PReg) (_ : Bool) (s : State) : Out :=
  let n := src.lanes
  vecOp t 3 true vd p (fun i =>
    cvtNum (elemNum t) (elemNum src) s.core.ictx.rnd s.core.ictx.sm
      (laneOf (s.core.v (if i < n then va else vb)) src.width (i % n))) s
/-- VUNPACK (08 R231). Where the destination has no exact value of an N4, which the spec says it has, the element is free
(log 97). -/
def execVunpack (t src : ElemType) (vd va : VRegN) (hi : Bool) (p : PReg) (_ : Bool) (s : State) : Out :=
  let open' : Bool := t == .e5m2 && src == .n4
  vecOp t 3 true vd p (fun i =>
    let r := cvtNum (elemNum t) (elemNum src) .rne .none (laneOf (s.core.v va) src.width (b2n hi * t.lanes + i))
    if open' && r.2 != 0 then ((Config.freeWord (s.free + i)).toNat % 2 ^ t.width, 0) else r)
    (if open' then { s with free := s.free + t.lanes } else s)
/-- The scale lane of source element `g` (08 R232). -/
def scaleIndex (b : Blk) (g : Nat) : Nat :=
  match b with
  | .b128 => g / 128
  | .b32 => g / 32
  | .all => 0
/-- VSCALE (08 R232). -/
def execVscale (t src : ElemType) (vd va vb : VRegN) (part : BitVec 4) (blk : Blk) (p : PReg) (_ : Bool) (s : State) : Out :=
  vecSome t 4 vd p (fun j => (cvtSource t src part.toNat j).map fun g =>
    let x := scaledVal (decodeVal (fmtOf src) (laneOf (s.core.v va) src.width g))
      (decodeVal fp32 (laneOf (s.core.v vb) 32 (scaleIndex blk g)))
    let y := convert (fmtOf t) s.core.ictx.rnd s.core.ictx.sm x.1
    (y.1, x.2 ||| y.2)) s

/-! ## Predicates (08 R233) -/

def predOp (pd : PReg) (x : PWord) (s : State) : Out := .next (s.postV 1 (.p pd x (BitVec.allOnes 256)) 0 true)
/-- PAND (08 R233). -/
def execPand (pd pa pb : PReg) (_ : Bool) (s : State) : Out := predOp pd (s.core.p pa &&& s.core.p pb) s
/-- POR (08 R233). -/
def execPor (pd pa pb : PReg) (_ : Bool) (s : State) : Out := predOp pd (s.core.p pa ||| s.core.p pb) s
/-- PXOR (08 R233). -/
def execPxor (pd pa pb : PReg) (_ : Bool) (s : State) : Out := predOp pd (s.core.p pa ^^^ s.core.p pb) s
/-- PNOT (08 R233). -/
def execPnot (pd pa : PReg) (_ : Bool) (s : State) : Out := predOp pd (~~~s.core.p pa) s
/-- PSET (08 R233). -/
def execPset (t : ElemType) (pd : PReg) (cnt : BitVec 10) (_ : Bool) (s : State) : Out :=
  predOp pd (byteMask t.width fun i => i < cnt.toNat) s
/-- PCOUNT (08 R233). -/
def execPcount (t : ElemType) (d : SReg) (pa : PReg) (_ : Bool) (s : State) : Out :=
  .next (s.postS 1 d (.ofNat 64 (activeBelow (s.core.p pa) t.width t.lanes)) 0)
/-- The lowest active element from `i`, among the last `n`. -/
def firstActive (p : PWord) (w i : Nat) : Nat → Nat
  | 0 => i
  | n + 1 => if activeLane p w i then i else firstActive p w (i + 1) n
/-- PFIRST (08 R233). -/
def execPfirst (t : ElemType) (d : SReg) (pa : PReg) (_ : Bool) (s : State) : Out :=
  .next (s.postS 1 d (.ofNat 64 (firstActive (s.core.p pa) t.width 0 t.lanes)) 0)

end Sys2Proof.Machine
end

