-- ==== Sys2Proof/Machine/Sfu.lean ====
section
/-! DEFINITION. The special-function slot (08 R234 to R240). -/

namespace Sys2Proof.Machine

/-- A function of one element in the bundle's rounding and saturation. -/
def sf1 (f : Fmt → Rnd → Sat → Val → Nat × Flags) (lat : Nat) (t : ElemType) (vd va : VRegN) (p : PReg) (s : State) : Out :=
  vec1 t lat true (fun a => f (fmtOf t) s.core.ictx.rnd s.core.ictx.sm (decodeVal (fmtOf t) a)) vd va p s

/-- FRCP (08 R236 to R238). -/
def execFrcp (t : ElemType) (vd va : VRegN) (p : PReg) (_ : Bool) (s : State) : Out := sf1 frcpVal 12 t vd va p s
/-- FRSQ (08 R236, R237). -/
def execFrsq (t : ElemType) (vd va : VRegN) (p : PReg) (_ : Bool) (s : State) : Out := sf1 frsqVal 12 t vd va p s
/-- A refinement of R239. -/
def refineOp (rsq : Bool) (t : ElemType) (vd va vb : VRegN) (p : PReg) (s : State) : Out :=
  vec2 t 12 true (fun a b => refineVal rsq (fmtOf t) s.core.ictx.rnd s.core.ictx.sm (decodeVal (fmtOf t) a)
    (decodeVal (fmtOf t) b)) vd va vb p s
/-- FRCPS (08 R239). -/
def execFrcps (t : ElemType) (vd va vb : VRegN) (p : PReg) (_ : Bool) (s : State) : Out :=
  refineOp false t vd va vb p s
/-- FRSQS (08 R239). -/
def execFrsqs (t : ElemType) (vd va vb : VRegN) (p : PReg) (_ : Bool) (s : State) : Out :=
  refineOp true t vd va vb p s
/-- FSQRT (08 R235). -/
def execFsqrt (t : ElemType) (vd va : VRegN) (p : PReg) (_ : Bool) (s : State) : Out := sf1 fsqrtVal 24 t vd va p s
/-- FDIV (08 R235). -/
def execFdiv (t : ElemType) (vd va vb : VRegN) (p : PReg) (_ : Bool) (s : State) : Out :=
  vec2 t 24 true (fpBin (fmtOf t) s.core.ictx.rnd s.core.ictx.sm divV) vd va vb p s
/-- FEXP2 (08 R236). -/
def execFexp2 (t : ElemType) (vd va : VRegN) (p : PReg) (_ : Bool) (s : State) : Out :=
  sf1 (sfApply .exp2) 12 t vd va p s
/-- FLOG2 (08 R236). -/
def execFlog2 (t : ElemType) (vd va : VRegN) (p : PReg) (_ : Bool) (s : State) : Out :=
  sf1 (sfApply .log2) 12 t vd va p s
/-- FSIN (08 R236). -/
def execFsin (t : ElemType) (vd va : VRegN) (p : PReg) (_ : Bool) (s : State) : Out :=
  sf1 (sfApply .sin) 12 t vd va p s
/-- FCOS (08 R236). -/
def execFcos (t : ElemType) (vd va : VRegN) (p : PReg) (_ : Bool) (s : State) : Out :=
  sf1 (sfApply .cos) 12 t vd va p s
/-- FTANH (08 R236). -/
def execFtanh (t : ElemType) (vd va : VRegN) (p : PReg) (_ : Bool) (s : State) : Out :=
  sf1 (sfApply .tanh) 12 t vd va p s
/-- FSIGM (08 R236). -/
def execFsigm (t : ElemType) (vd va : VRegN) (p : PReg) (_ : Bool) (s : State) : Out :=
  sf1 (sfApply .sigm) 12 t vd va p s
/-- FGELU (08 R236). -/
def execFgelu (t : ElemType) (vd va : VRegN) (p : PReg) (_ : Bool) (s : State) : Out :=
  sf1 (sfApply .gelu) 12 t vd va p s
/-- FCLASSV (08 R240). -/
def execFclassv (t : ElemType) (vd va : VRegN) (p : PReg) (_ : Bool) (s : State) : Out :=
  vec1 t 12 true (fun a => (classBits (fmtOf t) a, 0)) vd va p s

end Sys2Proof.Machine
end

