-- ==== Sys2Proof/Machine/Issue.lean ====
section
/-! DEFINITION. The issue of a bundle: fetch, decode and group checks, hazards, the operations of the slots, armed
re-issues, loops and ticks (05 R101 to R133, 06 R142, R143, R170, 13 R373, R384, R389). -/

namespace Sys2Proof.Machine

/-- The meaning of a slot operation inside its bundle: the same as in `exec`. -/
def runOp (i : Instr) (s : State) : Out :=
  match i with
  | .add x0 x1 x2 => execAdd x0 x1 x2 s
  | .sub x0 x1 x2 => execSub x0 x1 x2 s
  | .and x0 x1 x2 => execAnd x0 x1 x2 s
  | .or x0 x1 x2 => execOr x0 x1 x2 s
  | .xor x0 x1 x2 => execXor x0 x1 x2 s
  | .andn x0 x1 x2 => execAndn x0 x1 x2 s
  | .shl x0 x1 x2 => execShl x0 x1 x2 s
  | .shr x0 x1 x2 => execShr x0 x1 x2 s
  | .sar x0 x1 x2 => execSar x0 x1 x2 s
  | .rol x0 x1 x2 => execRol x0 x1 x2 s
  | .min x0 x1 x2 => execMin x0 x1 x2 s
  | .max x0 x1 x2 => execMax x0 x1 x2 s
  | .minn x0 x1 x2 => execMinn x0 x1 x2 s
  | .maxn x0 x1 x2 => execMaxn x0 x1 x2 s
  | .mul x0 x1 x2 => execMul x0 x1 x2 s
  | .mulh x0 x1 x2 => execMulh x0 x1 x2 s
  | .mulhn x0 x1 x2 => execMulhn x0 x1 x2 s
  | .div x0 x1 x2 => execDiv x0 x1 x2 s
  | .divn x0 x1 x2 => execDivn x0 x1 x2 s
  | .rem x0 x1 x2 => execRem x0 x1 x2 s
  | .remn x0 x1 x2 => execRemn x0 x1 x2 s
  | .cmpeq x0 x1 x2 => execCmpeq x0 x1 x2 s
  | .cmpne x0 x1 x2 => execCmpne x0 x1 x2 s
  | .cmplt x0 x1 x2 => execCmplt x0 x1 x2 s
  | .cmple x0 x1 x2 => execCmple x0 x1 x2 s
  | .cmpltn x0 x1 x2 => execCmpltn x0 x1 x2 s
  | .cmplen x0 x1 x2 => execCmplen x0 x1 x2 s
  | .sel x0 x1 x2 x3 => execSel x0 x1 x2 x3 s
  | .clz x0 x1 => execClz x0 x1 s
  | .ctz x0 x1 => execCtz x0 x1 s
  | .popc x0 x1 => execPopc x0 x1 s
  | .brev x0 x1 => execBrev x0 x1 s
  | .bswap x0 x1 => execBswap x0 x1 s
  | .extb x0 x1 x2 x3 => execExtb x0 x1 x2 x3 s
  | .insb x0 x1 x2 => execInsb x0 x1 x2 s
  | .addsh x0 x1 x2 x3 => execAddsh x0 x1 x2 x3 s
  | .addi x0 x1 x2 => execAddi x0 x1 x2 s
  | .andi x0 x1 x2 => execAndi x0 x1 x2 s
  | .ori x0 x1 x2 => execOri x0 x1 x2 s
  | .xori x0 x1 x2 => execXori x0 x1 x2 s
  | .shli x0 x1 x2 => execShli x0 x1 x2 s
  | .shri x0 x1 x2 => execShri x0 x1 x2 s
  | .sari x0 x1 x2 => execSari x0 x1 x2 s
  | .cmpeqi x0 x1 x2 => execCmpeqi x0 x1 x2 s
  | .cmplti x0 x1 x2 => execCmplti x0 x1 x2 s
  | .movw x0 x1 => execMovw x0 x1 s
  | .movk x0 x1 x2 => execMovk x0 x1 x2 s
  | .fadd x0 x1 x2 x3 => execFadd x0 x1 x2 x3 s
  | .fsub x0 x1 x2 x3 => execFsub x0 x1 x2 x3 s
  | .fmul x0 x1 x2 x3 => execFmul x0 x1 x2 x3 s
  | .ffma x0 x1 x2 x3 => execFfma x0 x1 x2 x3 s
  | .fmin x0 x1 x2 x3 => execFmin x0 x1 x2 x3 s
  | .fmax x0 x1 x2 x3 => execFmax x0 x1 x2 x3 s
  | .fcmp x0 x1 x2 x3 x4 => execFcmp x0 x1 x2 x3 x4 s
  | .fcvt x0 x1 x2 x3 => execFcvt x0 x1 x2 x3 s
  | .fclass x0 x1 x2 => execFclass x0 x1 x2 s
  | .ptos x0 x1 x2 => execPtos x0 x1 x2 s
  | .mpset x0 x1 => execMpset x0 x1 s
  | .mpget x0 x1 => execMpget x0 x1 s
  | .cntset x0 x1 => execCntset x0 x1 s
  | .cntadd x0 x1 => execCntadd x0 x1 s
  | .cntrd x0 x1 => execCntrd x0 x1 s
  | .csrrd x0 x1 => execCsrrd x0 x1 s
  | .csrwr x0 x1 => execCsrwr x0 x1 s
  | .vdqry x0 x1 x2 => execVdqry x0 x1 x2 s
  | .lix x0 x1 => execLix x0 x1 s
  | .frameq x0 => execFrameq x0 s
  | .nop => execNop s
  | .br x0 => execBr x0 s
  | .brz x0 x1 => execBrz x0 x1 s
  | .brnz x0 x1 => execBrnz x0 x1 s
  | .jmp x0 x1 => execJmp x0 x1 s
  | .call x0 => execCall x0 s
  | .callr x0 x1 => execCallr x0 x1 s
  | .ret => execRet s
  | .loop x0 x1 => execLoop x0 x1 s
  | .loopi x0 x1 => execLoopi x0 x1 s
  | .lbreak x0 x1 => execLbreak x0 x1 s
  | .disarm x0 => execDisarm x0 s
  | .commit => execCommit s
  | .waitlt x0 x1 x2 => execWaitlt x0 x1 x2 s
  | .waittk x0 x1 => execWaittk x0 x1 s
  | .bar => execBar s
  | .sstep => execSstep s
  | .yield => execYield s
  | .exit => execExit s
  | .signal x0 x1 x2 => execSignal x0 x1 x2 s
  | .launch x0 x1 x2 x3 => execLaunch x0 x1 x2 x3 s
  | .trap x0 x1 => execTrap x0 x1 s
  | .ebreak => execEbreak s
  | .eret => execEret s
  | .flagwt x0 => execFlagwt x0 s
  | .wfe => execWfe s
  | .hinvall => execHinvall s
  | .vadd x0 x1 x2 x3 x4 x5 => execVadd x0 x1 x2 x3 x4 x5 s
  | .vsub x0 x1 x2 x3 x4 x5 => execVsub x0 x1 x2 x3 x4 x5 s
  | .vmul x0 x1 x2 x3 x4 x5 => execVmul x0 x1 x2 x3 x4 x5 s
  | .vfma x0 x1 x2 x3 x4 x5 x6 => execVfma x0 x1 x2 x3 x4 x5 x6 s
  | .vfms x0 x1 x2 x3 x4 x5 x6 => execVfms x0 x1 x2 x3 x4 x5 x6 s
  | .vfnma x0 x1 x2 x3 x4 x5 x6 => execVfnma x0 x1 x2 x3 x4 x5 x6 s
  | .vmin x0 x1 x2 x3 x4 x5 => execVmin x0 x1 x2 x3 x4 x5 s
  | .vmax x0 x1 x2 x3 x4 x5 => execVmax x0 x1 x2 x3 x4 x5 s
  | .vabs x0 x1 x2 x3 x4 => execVabs x0 x1 x2 x3 x4 s
  | .vneg x0 x1 x2 x3 x4 => execVneg x0 x1 x2 x3 x4 s
  | .vand x0 x1 x2 x3 x4 x5 => execVand x0 x1 x2 x3 x4 x5 s
  | .vor x0 x1 x2 x3 x4 x5 => execVor x0 x1 x2 x3 x4 x5 s
  | .vxor x0 x1 x2 x3 x4 x5 => execVxor x0 x1 x2 x3 x4 x5 s
  | .vandn x0 x1 x2 x3 x4 x5 => execVandn x0 x1 x2 x3 x4 x5 s
  | .vshl x0 x1 x2 x3 x4 x5 => execVshl x0 x1 x2 x3 x4 x5 s
  | .vshr x0 x1 x2 x3 x4 x5 => execVshr x0 x1 x2 x3 x4 x5 s
  | .vsar x0 x1 x2 x3 x4 x5 => execVsar x0 x1 x2 x3 x4 x5 s
  | .vmulh x0 x1 x2 x3 x4 x5 => execVmulh x0 x1 x2 x3 x4 x5 s
  | .vavg x0 x1 x2 x3 x4 x5 => execVavg x0 x1 x2 x3 x4 x5 s
  | .vclz x0 x1 x2 x3 x4 => execVclz x0 x1 x2 x3 x4 s
  | .vpopc x0 x1 x2 x3 x4 => execVpopc x0 x1 x2 x3 x4 s
  | .vcmp x0 x1 x2 x3 x4 x5 x6 => execVcmp x0 x1 x2 x3 x4 x5 x6 s
  | .vsel x0 x1 x2 x3 x4 x5 => execVsel x0 x1 x2 x3 x4 x5 s
  | .vmov x0 x1 x2 x3 x4 => execVmov x0 x1 x2 x3 x4 s
  | .vbcast x0 x1 x2 x3 x4 => execVbcast x0 x1 x2 x3 x4 s
  | .vext x0 x1 x2 x3 x4 => execVext x0 x1 x2 x3 x4 s
  | .vins x0 x1 x2 x3 x4 => execVins x0 x1 x2 x3 x4 s
  | .viota x0 x1 x2 x3 => execViota x0 x1 x2 x3 s
  | .vperm x0 x1 x2 x3 x4 x5 => execVperm x0 x1 x2 x3 x4 x5 s
  | .vrot x0 x1 x2 x3 x4 x5 => execVrot x0 x1 x2 x3 x4 x5 s
  | .vslide x0 x1 x2 x3 x4 x5 x6 x7 => execVslide x0 x1 x2 x3 x4 x5 x6 x7 s
  | .vzip x0 x1 x2 x3 x4 x5 x6 => execVzip x0 x1 x2 x3 x4 x5 x6 s
  | .vunzip x0 x1 x2 x3 x4 x5 x6 => execVunzip x0 x1 x2 x3 x4 x5 x6 s
  | .vredadd x0 x1 x2 x3 x4 => execVredadd x0 x1 x2 x3 x4 s
  | .vredmax x0 x1 x2 x3 x4 => execVredmax x0 x1 x2 x3 x4 s
  | .vredmin x0 x1 x2 x3 x4 => execVredmin x0 x1 x2 x3 x4 s
  | .vscan x0 x1 x2 x3 x4 => execVscan x0 x1 x2 x3 x4 s
  | .vdot4 x0 x1 x2 x3 x4 x5 x6 => execVdot4 x0 x1 x2 x3 x4 x5 x6 s
  | .vcvt x0 x1 x2 x3 x4 x5 x6 => execVcvt x0 x1 x2 x3 x4 x5 x6 s
  | .vpack x0 x1 x2 x3 x4 x5 x6 => execVpack x0 x1 x2 x3 x4 x5 x6 s
  | .vunpack x0 x1 x2 x3 x4 x5 x6 => execVunpack x0 x1 x2 x3 x4 x5 x6 s
  | .vscale x0 x1 x2 x3 x4 x5 x6 x7 x8 => execVscale x0 x1 x2 x3 x4 x5 x6 x7 x8 s
  | .vabsmax x0 x1 x2 x3 x4 x5 => execVabsmax x0 x1 x2 x3 x4 x5 s
  | .pand x0 x1 x2 x3 => execPand x0 x1 x2 x3 s
  | .por x0 x1 x2 x3 => execPor x0 x1 x2 x3 s
  | .pxor x0 x1 x2 x3 => execPxor x0 x1 x2 x3 s
  | .pnot x0 x1 x2 => execPnot x0 x1 x2 s
  | .pset x0 x1 x2 x3 => execPset x0 x1 x2 x3 s
  | .pcount x0 x1 x2 x3 => execPcount x0 x1 x2 x3 s
  | .pfirst x0 x1 x2 x3 => execPfirst x0 x1 x2 x3 s
  | .frcp x0 x1 x2 x3 x4 => execFrcp x0 x1 x2 x3 x4 s
  | .frsq x0 x1 x2 x3 x4 => execFrsq x0 x1 x2 x3 x4 s
  | .frcps x0 x1 x2 x3 x4 x5 => execFrcps x0 x1 x2 x3 x4 x5 s
  | .frsqs x0 x1 x2 x3 x4 x5 => execFrsqs x0 x1 x2 x3 x4 x5 s
  | .fsqrt x0 x1 x2 x3 x4 => execFsqrt x0 x1 x2 x3 x4 s
  | .fdiv x0 x1 x2 x3 x4 x5 => execFdiv x0 x1 x2 x3 x4 x5 s
  | .fexp2 x0 x1 x2 x3 x4 => execFexp2 x0 x1 x2 x3 x4 s
  | .flog2 x0 x1 x2 x3 x4 => execFlog2 x0 x1 x2 x3 x4 s
  | .fsin x0 x1 x2 x3 x4 => execFsin x0 x1 x2 x3 x4 s
  | .fcos x0 x1 x2 x3 x4 => execFcos x0 x1 x2 x3 x4 s
  | .ftanh x0 x1 x2 x3 x4 => execFtanh x0 x1 x2 x3 x4 s
  | .fsigm x0 x1 x2 x3 x4 => execFsigm x0 x1 x2 x3 x4 s
  | .fgelu x0 x1 x2 x3 x4 => execFgelu x0 x1 x2 x3 x4 s
  | .fclassv x0 x1 x2 x3 x4 => execFclassv x0 x1 x2 x3 x4 s
  | .ld x0 x1 x2 x3 x4 x5 => execLd x0 x1 x2 x3 x4 x5 s
  | .st x0 x1 x2 x3 x4 x5 => execSt x0 x1 x2 x3 x4 x5 s
  | .vld x0 x1 x2 x3 x4 x5 => execVld x0 x1 x2 x3 x4 x5 s
  | .vst x0 x1 x2 x3 x4 x5 => execVst x0 x1 x2 x3 x4 x5 s
  | .vldw x0 x1 x2 x3 x4 x5 => execVldw x0 x1 x2 x3 x4 x5 s
  | .vstw x0 x1 x2 x3 x4 x5 => execVstw x0 x1 x2 x3 x4 x5 s
  | .xlt x0 x1 => execXlt x0 x1 s
  | .hinv x0 => execHinv x0 s
  | .hqry x0 x1 => execHqry x0 x1 s
  | .ldl x0 x1 x2 x3 x4 x5 x6 x7 => execLdl x0 x1 x2 x3 x4 x5 x6 x7 s
  | .vldl x0 x1 x2 x3 x4 x5 x6 x7 => execVldl x0 x1 x2 x3 x4 x5 x6 x7 s
  | .vldlx x0 x1 x2 x3 x4 x5 x6 x7 => execVldlx x0 x1 x2 x3 x4 x5 x6 x7 s
  | .vgath x0 x1 x2 x3 x4 x5 x6 x7 => execVgath x0 x1 x2 x3 x4 x5 x6 x7 s
  | .sth x0 x1 x2 x3 x4 x5 x6 => execSth x0 x1 x2 x3 x4 x5 x6 s
  | .vsth x0 x1 x2 x3 x4 x5 x6 => execVsth x0 x1 x2 x3 x4 x5 x6 s
  | .vsthx x0 x1 x2 x3 x4 x5 x6 => execVsthx x0 x1 x2 x3 x4 x5 x6 s
  | .vscat x0 x1 x2 x3 x4 x5 x6 => execVscat x0 x1 x2 x3 x4 x5 x6 s
  | .vlda x0 x1 x2 x3 x4 x5 x6 x7 => execVlda x0 x1 x2 x3 x4 x5 x6 x7 s
  | .vsta x0 x1 x2 x3 x4 x5 x6 x7 => execVsta x0 x1 x2 x3 x4 x5 x6 x7 s
  | .pld x0 x1 x2 => execPld x0 x1 x2 s
  | .drain => execDrain s
  | .fence x0 x1 x2 x3 x4 => execFence x0 x1 x2 x3 x4 s
  | .amoadd x0 x1 x2 x3 x4 x5 x6 x7 x8 => execAmoadd x0 x1 x2 x3 x4 x5 x6 x7 x8 s
  | .amomin x0 x1 x2 x3 x4 x5 x6 x7 x8 => execAmomin x0 x1 x2 x3 x4 x5 x6 x7 x8 s
  | .amomax x0 x1 x2 x3 x4 x5 x6 x7 x8 => execAmomax x0 x1 x2 x3 x4 x5 x6 x7 x8 s
  | .amoand x0 x1 x2 x3 x4 x5 x6 x7 x8 => execAmoand x0 x1 x2 x3 x4 x5 x6 x7 x8 s
  | .amoor x0 x1 x2 x3 x4 x5 x6 x7 x8 => execAmoor x0 x1 x2 x3 x4 x5 x6 x7 x8 s
  | .amoxor x0 x1 x2 x3 x4 x5 x6 x7 x8 => execAmoxor x0 x1 x2 x3 x4 x5 x6 x7 x8 s
  | .amoswp x0 x1 x2 x3 x4 x5 x6 x7 x8 => execAmoswp x0 x1 x2 x3 x4 x5 x6 x7 x8 s
  | .amocas x0 x1 x2 x3 x4 x5 x6 x7 x8 => execAmocas x0 x1 x2 x3 x4 x5 x6 x7 x8 s
  | .amofadd x0 x1 x2 x3 x4 x5 x6 x7 x8 => execAmofadd x0 x1 x2 x3 x4 x5 x6 x7 x8 s
  | .redadd x0 x1 x2 x3 x4 x5 x6 => execRedadd x0 x1 x2 x3 x4 x5 x6 s
  | .redmin x0 x1 x2 x3 x4 x5 x6 => execRedmin x0 x1 x2 x3 x4 x5 x6 s
  | .redmax x0 x1 x2 x3 x4 x5 x6 => execRedmax x0 x1 x2 x3 x4 x5 x6 s
  | .redfadd x0 x1 x2 x3 x4 x5 x6 => execRedfadd x0 x1 x2 x3 x4 x5 x6 s
  | .mcall x0 x1 x2 x3 => execMcall x0 x1 x2 x3 s
  | .mfmt x0 x1 => execMfmt x0 x1 s
  | .mchk x0 x1 => execMchk x0 x1 s
  | .mclr x0 x1 => execMclr x0 x1 s
  | .mldstore x0 x1 => execMldstore x0 x1 s
  | .cpy x0 x1 x2 x3 x4 x5 x6 => execCpy x0 x1 x2 x3 x4 x5 x6 s
  | .cpysig x0 x1 x2 x3 x4 x5 x6 => execCpysig x0 x1 x2 x3 x4 x5 x6 s
  | .cpeer x0 x1 x2 x3 x4 x5 x6 => execCpeer x0 x1 x2 x3 x4 x5 x6 s
  | .bankcfg x0 x1 x2 => execBankcfg x0 x1 x2 s
  | .strmbind x0 x1 x2 => execStrmbind x0 x1 x2 s
  | .strmrel x0 x1 x2 => execStrmrel x0 x1 x2 s
  | .pgload x0 x1 x2 => execPgload x0 x1 x2 s
  | .pgrun x0 x1 => execPgrun x0 x1 s
  | .pgstop x0 x1 => execPgstop x0 x1 s
  | .psend x0 x1 x2 x3 => execPsend x0 x1 x2 x3 s
  | .pgrant x0 x1 => execPgrant x0 x1 s
  | .cflush x0 x1 x2 => execCflush x0 x1 x2 s
  | .cinv x0 x1 x2 => execCinv x0 x1 x2 s
  | .mmFp8 .. => .fault (.notEnabled "MM_FP8")
  | .mmInt8 .. => .fault (.notEnabled "MM_INT8")
  | .mmInt4 .. => .fault (.notEnabled "MM_INT4")
  | .mmBf16x3 .. => .fault (.notEnabled "MM_BF16X3")
  | .mmFp8Accskip .. => .fault (.notEnabled "MM_FP8_ACCSKIP")
  | .accZero .. => .fault (.notEnabled "ACC_ZERO")
  | .accDrainF32 .. => .fault (.notEnabled "ACC_DRAIN_F32")
  | .accDrainBf16 .. => .fault (.notEnabled "ACC_DRAIN_BF16")
  | .accDrainI32 .. => .fault (.notEnabled "ACC_DRAIN_I32")
  | .accDrainFp8 .. => .fault (.notEnabled "ACC_DRAIN_FP8")
  | .accToa .. => .fault (.notEnabled "ACC_TOA")
  | .accScalerow .. => .fault (.notEnabled "ACC_SCALEROW")
  | .wbLoad .. => .fault (.notEnabled "WB_LOAD")
  | .corrLoad .. => .fault (.notEnabled "CORR_LOAD")
  | .chkRead .. => .fault (.notEnabled "CHK_READ")
  | .nopRoutine .. => .fault (.notEnabled "NOP_ROUTINE")
  | .xmEntryStart .. => .fault (.notEnabled "XM_ENTRY_START")
  | .routineComplete .. => .fault (.notEnabled "ROUTINE_COMPLETE")
  | .tileCompletionCheck .. => .fault (.notEnabled "TILE_COMPLETION_CHECK")
  | .routineInstall .. => .fault (.notEnabled "ROUTINE_INSTALL")
  | .bundleIssue .. => .fault (.notEnabled "BUNDLE_ISSUE")
  | .landingArrival .. => .fault (.notEnabled "LANDING_ARRIVAL")
  | .walkComplete .. => .fault (.notEnabled "WALK_COMPLETE")
  | .waitConditionMet .. => .fault (.notEnabled "WAIT_CONDITION_MET")
  | .wfeTimeout .. => .fault (.notEnabled "WFE_TIMEOUT")
  | .queueRoom .. => .fault (.notEnabled "QUEUE_ROOM")
  | .syncRelease .. => .fault (.notEnabled "SYNC_RELEASE")
  | .commitRelease .. => .fault (.notEnabled "COMMIT_RELEASE")
  | .strandExitComplete .. => .fault (.notEnabled "STRAND_EXIT_COMPLETE")
  | .asyncTrapArrival .. => .fault (.notEnabled "ASYNC_TRAP_ARRIVAL")
  | .trapEntry .. => .fault (.notEnabled "TRAP_ENTRY")
  | .fatalTrap .. => .fault (.notEnabled "FATAL_TRAP")
  | .detectorEvent .. => .fault (.notEnabled "DETECTOR_EVENT")
  | .stopRequest .. => .fault (.notEnabled "STOP_REQUEST")
  | .stopDeadline .. => .fault (.notEnabled "STOP_DEADLINE")
  | .saveAreaWrite .. => .fault (.notEnabled "SAVE_AREA_WRITE")
  | .strandResume .. => .fault (.notEnabled "STRAND_RESUME")
  | .strandLoad .. => .fault (.notEnabled "STRAND_LOAD")
  | .trellisReplay .. => .fault (.notEnabled "TRELLIS_REPLAY")
  | .homeSliceAccess .. => .fault (.notEnabled "HOME_SLICE_ACCESS")
  | .localCausalRelease .. => .fault (.notEnabled "LOCAL_CAUSAL_RELEASE")
  | .atomicPerform .. => .fault (.notEnabled "ATOMIC_PERFORM")
  | .replayOrderRelease .. => .fault (.notEnabled "REPLAY_ORDER_RELEASE")
  | .diverge .. => .fault (.notEnabled "DIVERGE")
  | .epochClose .. => .fault (.notEnabled "EPOCH_CLOSE")
  | .counterDecrement .. => .fault (.notEnabled "COUNTER_DECREMENT")
  | .cacheUe .. => .fault (.notEnabled "CACHE_UE")
  | .dramWriteback .. => .fault (.notEnabled "DRAM_WRITEBACK")
  | .bankSwitchComplete .. => .fault (.notEnabled "BANK_SWITCH_COMPLETE")
  | .flitReceive .. => .fault (.notEnabled "FLIT_RECEIVE")
  | .flitDeliver .. => .fault (.notEnabled "FLIT_DELIVER")
  | .creditSend .. => .fault (.notEnabled "CREDIT_SEND")
  | .creditReceive .. => .fault (.notEnabled "CREDIT_RECEIVE")
  | .ceCommandStart .. => .fault (.notEnabled "CE_COMMAND_START")
  | .packetLand .. => .fault (.notEnabled "PACKET_LAND")
  | .ceCommandComplete .. => .fault (.notEnabled "CE_COMMAND_COMPLETE")
  | .cpysigSignal .. => .fault (.notEnabled "CPYSIG_SIGNAL")
  | .peerPutReceive .. => .fault (.notEnabled "PEER_PUT_RECEIVE")
  | .psendDelivery .. => .fault (.notEnabled "PSEND_DELIVERY")
  | .permitArrive .. => .fault (.notEnabled "PERMIT_ARRIVE")
  | .lineFrame .. => .fault (.notEnabled "LINE_FRAME")
  | .controlFrame .. => .fault (.notEnabled "CONTROL_FRAME")
  | .plateSwitch .. => .fault (.notEnabled "PLATE_SWITCH")
  | .pcieDmaWrite .. => .fault (.notEnabled "PCIE_DMA_WRITE")
  | .pcieDmaRead .. => .fault (.notEnabled "PCIE_DMA_READ")
  | .qtailWrite .. => .fault (.notEnabled "QTAIL_WRITE")
  | .ringSlotRead .. => .fault (.notEnabled "RING_SLOT_READ")
  | .launchPacketArrive .. => .fault (.notEnabled "LAUNCH_PACKET_ARRIVE")
  | .waitingPacketAccept .. => .fault (.notEnabled "WAITING_PACKET_ACCEPT")
  | .qcfgWrite .. => .fault (.notEnabled "QCFG_WRITE")
  | .qttWrite .. => .fault (.notEnabled "QTT_WRITE")
  | .timetableUnbind .. => .fault (.notEnabled "TIMETABLE_UNBIND")
  | .frameStart .. => .fault (.notEnabled "FRAME_START")
  | .degradedSwitch .. => .fault (.notEnabled "DEGRADED_SWITCH")
  | .taskRelease .. => .fault (.notEnabled "TASK_RELEASE")
  | .counterWatch .. => .fault (.notEnabled "COUNTER_WATCH")
  | .counterPoll .. => .fault (.notEnabled "COUNTER_POLL")
  | .admissionPass .. => .fault (.notEnabled "ADMISSION_PASS")
  | .signatureCheck .. => .fault (.notEnabled "SIGNATURE_CHECK")
  | .superstepBindRequest .. => .fault (.notEnabled "SUPERSTEP_BIND_REQUEST")
  | .agingReservation .. => .fault (.notEnabled "AGING_RESERVATION")
  | .reservationPreempt .. => .fault (.notEnabled "RESERVATION_PREEMPT")
  | .starvationYield .. => .fault (.notEnabled "STARVATION_YIELD")
  | .deadlineMiss .. => .fault (.notEnabled "DEADLINE_MISS")
  | .taskRetire .. => .fault (.notEnabled "TASK_RETIRE")
  | .ctxcfgWrite .. => .fault (.notEnabled "CTXCFG_WRITE")
  | .ctxmmuWrite .. => .fault (.notEnabled "CTXMMU_WRITE")
  | .revoke .. => .fault (.notEnabled "REVOKE")
  | .revokeComplete .. => .fault (.notEnabled "REVOKE_COMPLETE")
  | .pfdone .. => .fault (.notEnabled "PFDONE")
  | .accessTableWrite .. => .fault (.notEnabled "ACCESS_TABLE_WRITE")
  | .ppcfgWrite .. => .fault (.notEnabled "PPCFG_WRITE")
  | .portcfgWrite .. => .fault (.notEnabled "PORTCFG_WRITE")
  | .qtraceWrite .. => .fault (.notEnabled "QTRACE_WRITE")
  | .ctxordWrite .. => .fault (.notEnabled "CTXORD_WRITE")
  | .detquotaWrite .. => .fault (.notEnabled "DETQUOTA_WRITE")
  | .mirrorcfgWrite .. => .fault (.notEnabled "MIRRORCFG_WRITE")
  | .savepoolWrite .. => .fault (.notEnabled "SAVEPOOL_WRITE")
  | .registerWrite .. => .fault (.notEnabled "REGISTER_WRITE")
  | .qfaultRead .. => .fault (.notEnabled "QFAULT_READ")
  | .accviolRead .. => .fault (.notEnabled "ACCVIOL_READ")
  | .violog1Read .. => .fault (.notEnabled "VIOLOG1_READ")
  | .detcntRead .. => .fault (.notEnabled "DETCNT_READ")
  | .portcntRead .. => .fault (.notEnabled "PORTCNT_READ")
  | .fabcntRead .. => .fault (.notEnabled "FABCNT_READ")
  | .ctxKey .. => .fault (.notEnabled "CTX_KEY")
  | .clearRetired .. => .fault (.notEnabled "CLEAR_RETIRED")
  | .recover .. => .fault (.notEnabled "RECOVER")
  | .spdm .. => .fault (.notEnabled "SPDM")
  | .powerCap .. => .fault (.notEnabled "POWER_CAP")
  | .mbueRead => .fault (.notEnabled "MBUE_READ")
  | .getVersion .. => .fault (.notEnabled "GET_VERSION")
  | .getCapabilities .. => .fault (.notEnabled "GET_CAPABILITIES")
  | .negotiateAlgorithms .. => .fault (.notEnabled "NEGOTIATE_ALGORITHMS")
  | .getDigests .. => .fault (.notEnabled "GET_DIGESTS")
  | .getCertificate .. => .fault (.notEnabled "GET_CERTIFICATE")
  | .challenge .. => .fault (.notEnabled "CHALLENGE")
  | .getMeasurements .. => .fault (.notEnabled "GET_MEASUREMENTS")
  | .keyExchange .. => .fault (.notEnabled "KEY_EXCHANGE")
  | .finish .. => .fault (.notEnabled "FINISH")
  | .endSession .. => .fault (.notEnabled "END_SESSION")
  | .unsupportedRequest .. => .fault (.notEnabled "UNSUPPORTED_REQUEST")
  | .powerGoodBoot .. => .fault (.notEnabled "POWER_GOOD_BOOT")
  | .uncoreResetRequest .. => .fault (.notEnabled "UNCORE_RESET_REQUEST")
  | .uncoreLeaveReset .. => .fault (.notEnabled "UNCORE_LEAVE_RESET")
  | .coreDomainLeaveReset .. => .fault (.notEnabled "CORE_DOMAIN_LEAVE_RESET")
  | .rhoathUe => .fault (.notEnabled "RHOATH_UE")
  | .dieFailover .. => .fault (.notEnabled "DIE_FAILOVER")
  | .linkRetrain .. => .fault (.notEnabled "LINK_RETRAIN")
  | .thermal .. => .fault (.notEnabled "THERMAL")
  | .thermalShutdown => .fault (.notEnabled "THERMAL_SHUTDOWN")
  | .peerAck .. => .fault (.notEnabled "PEER_ACK")
/-! ## Fetch (05 R101, R105) -/

inductive Fetched where
  | bytes (l : List Byte)
  | absent (va : Nat) (w : WalkRes)
  | noRead
  | refused (v : Verdict) (pa : Nat)
  | held
  deriving DecidableEq, Repr

/-- `n` bytes of code at `pa`, in one page: refused where no access reaches them (01 R33, 09 R268, 14 R409, R413), held while their bank
is being switched (04 R96). -/
def State.fetchAt (s : State) (pa n : Nat) : Fetched :=
  match [pa, pa + n - 1].findSome? s.outOfReach with
  | some v => .refused v pa
  | none => if s.switching pa || s.switching (pa + n - 1) then .held else .bytes (s.rdBytes pa n)

/-- `n` bytes of code from `va`, over at most `fuel` pages. -/
def State.fetchRun (s : State) (ctx : Nat) : Nat → Nat → Nat → Fetched
  | 0, _, _ => .bytes []
  | fuel + 1, va, n =>
    let w := s.lookup s.core.id ctx va
    if (s.directReads s.core.id.die (s.lookupDies s.core.id ctx va)).isNone then .held
    else match w.leaf with
    | none => .absent va w
    | some l =>
      if !l.r then .noRead
      else
        let room := pageBytes l.size - va % pageBytes l.size
        match s.fetchAt (s.route (l.base + va % pageBytes l.size)) (min n room) with
        | .bytes x =>
          if n ≤ room then .bytes x
          else
            (match s.fetchRun ctx fuel (va + room) (n - room) with
            | .bytes r => .bytes (x ++ r)
            | y => y)
        | y => y

/-- What the sequencer finds at the pc: a bundle, a trap with its detail, an absent page, bytes that no access reaches, or bytes of a
bank that is being switched, or behind a walk that waits for a write that causally precedes it (12 R349). -/
inductive Found where
  | bundle (b : Bundle)
  | trap (n : TrapName) (detail : Nat)
  | absent (w : WalkRes)
  | refused (v : Verdict) (pa : Nat)
  | held
  deriving DecidableEq, Repr

/-- What a failed fetch of code is to the sequencer. -/
def Fetched.found : Fetched → Found
  | .absent _ w => .absent w
  | .refused v pa => .refused v pa
  | .held => .held
  | .noRead | .bytes _ => .trap .fetchRange 0x02F0

/-- Orders 1 to 12 of 05 Table 05-8 at the pc of the focus core. -/
def State.find (s : State) (st : Strand) : Found :=
  let pc := s.core.pc
  let va := st.codeVa + pc
  if st.codeSize < pc + 4 then .trap .fetchRange 0x00F0
  else
    match s.fetchRun st.ctx 2 va 4 with
    | .bytes h =>
      let hdr := bytesNat h
      let len := 2 * bitsAt hdr 0 9
      if st.codeSize < pc + len then .trap .fetchRange 0x00F0
      else
        match if len ≤ 4 then .bytes [] else s.fetchRun st.ctx 2 (va + 4) (min len 64 - 4) with
        | .bytes l =>
          (match decodeBundle st.priv hdr (bytesNat l) with
          | .error (e, i) => .trap .illegalEncoding (e.cause * 2 ^ 8 + i * 2 ^ 4)
          | .ok b => .bundle b)
        | x => x.found
    | x => x.found
/-- The VA of the last byte of the bundle at the pc, as far as its header can be read (05 R105). -/
def State.bundleEnd (s : State) (st : Strand) : Nat :=
  let va := st.codeVa + s.core.pc
  match s.fetchRun st.ctx 2 va 4 with
  | .bytes h => va + max 4 (min (2 * bitsAt (bytesNat h) 0 9) 64) - 1
  | _ => va + 3

/-! ## Armed slots (05 R127 to R131) -/

/-- The address that an operation latches, with the second address of a copy and the vector of a gather
(05 Table 05-9b). -/
def latchAddr (s : State) (i : Instr) : Word × Word × VWord :=
  let m1 (a : SReg) (imm : BitVec 18) : Word × Word × VWord := (s.core.s a + imm.signExtend 64, 0, 0)
  let m2 (a : SReg) (off : BitVec 4) (u : Nat) : Word × Word × VWord :=
    (s.core.s a + off.signExtend 64 * .ofNat 64 u, 0, 0)
  let ce (v : VRegN) (a b : SReg) : Word × Word × VWord :=
    (.ofNat 64 (descD (s.core.v v) 0) + s.core.s a, .ofNat 64 (descD (s.core.v v) 1) + s.core.s b, 0)
  match i with
  | .ld _ _ a imm _ _ | .st _ _ a imm _ _ | .vld _ a _ imm _ _ | .vst _ a _ imm _ _ | .vldw _ a _ imm _ _
  | .vstw _ a _ imm _ _ => m1 a imm
  | .ldl sz _ _ a off _ _ _ | .sth sz _ _ a off _ _ => m2 a off (sizeOf sz)
  | .vldl _ _ a _ off _ _ _ | .vsth _ _ a _ off _ _ => m2 a off 256
  | .vldlx _ _ _ a _ _ _ _ | .vsthx _ _ _ a _ _ _ => (s.core.s a, 0, 0)
  | .vgath _ _ va _ off _ _ _ | .vscat _ _ va _ off _ _ => (off.signExtend 64 * 4, 0, s.core.v va)
  | .vlda _ _ a _ off _ _ _ | .vsta _ _ a _ off _ _ _ => m2 a off 64
  | .mcall .. => (s.core.mp 0, 0, 0)
  | .cpy _ v a b _ _ _ | .cpysig _ v a b _ _ _ | .cpeer _ v a b _ _ _ => ce v a b
  | _ => (0, 0, 0)

/-- The step that each re-issue adds to the latched address (05 Table 05-9b). -/
def latchStep (i : Instr) : Word :=
  match i with
  | .ld sz _ _ _ _ st | .st sz _ _ _ _ st => st.signExtend 64 * .ofNat 64 (sizeOf sz)
  | .vld _ _ _ _ _ st | .vst _ _ _ _ _ st | .vldw _ _ _ _ _ st | .vstw _ _ _ _ _ st => st.signExtend 64 * 256
  | .ldl sz _ _ _ _ _ _ st | .sth sz _ _ _ _ _ st => st.signExtend 64 * .ofNat 64 (sizeOf sz)
  | .vldl _ _ _ _ _ _ _ st | .vsth _ _ _ _ _ _ st => st.signExtend 64 * 256
  | .vldlx e _ _ _ _ _ _ st | .vsthx e _ _ _ _ _ st => st.signExtend 64 * .ofNat 64 (2 ^ e.toNat)
  | .vgath _ _ _ _ _ _ _ st | .vscat _ _ _ _ _ _ st => st.signExtend 64 * 4
  | .vlda _ _ _ _ _ _ _ st | .vsta _ _ _ _ _ _ _ st => st.signExtend 64 * 64
  | .mcall _ _ _ st => st.signExtend 64 * 64
  | .cpy _ _ _ _ _ _ st | .cpysig _ _ _ _ _ _ st | .cpeer _ _ _ _ _ _ st => st.signExtend 64 * 64
  | _ => 0

def isCopy : Instr → Bool
  | .cpy .. | .cpysig .. | .cpeer .. => true
  | _ => false

/-- An operation of a bundle: its slot, and the latch it is re-issued from. -/
structure SlotOp where
  slot : Slot
  op : Instr
  re : Option Latch
  deriving DecidableEq, Repr

/-- The latch of a re-issue, stepped. -/
def stepLatch (l : Latch) : Latch :=
  { l with addr := l.addr + latchStep l.op, addr2 := if isCopy l.op then l.addr2 + latchStep l.op else l.addr2 }

/-- The slots that the bundle's DISARM names. -/
def bundleDisarms (b : Bundle) : List Slot :=
  match b.op .ct with
  | some (.disarm m) => disarmSlots m
  | _ => []

/-- The operations of issue `k` of a bundle, in slot order (05 R128, R129, R131): one written with .S re-issues only while its slot is
armed. -/
def slotOps (b : Bundle) (latch : List (Slot × Latch)) (k : Nat) : List SlotOp :=
  Slot.all.filterMap fun s =>
    let l := (latch.find? (·.1 == s)).map (·.2)
    match b.op s with
    | some i =>
      if k = 0 || !i.armed then some ⟨s, i, none⟩
      else l.map fun x => ⟨s, i, some (stepLatch x)⟩
    | none => if (bundleDisarms b).contains s then none else l.map fun x => ⟨s, x.op, some (stepLatch x)⟩

def SlotOp.reads (o : SlotOp) : List RegName := readsOf o.re.isSome o.op
def SlotOp.writes (o : SlotOp) : List RegName := writesOf o.op

/-! ## Group checks (05 R114, R120 to R122, 09 R265) -/

/-- A CT operation that may stand in a bundle without STOP (05 R122). -/
def openCt : Instr → Bool
  | .nop | .disarm .. | .signal .. | .launch .. | .hinvall | .loop .. | .loopi .. => true
  | _ => false
def isDrain : Instr → Bool | .drain => true | _ => false

/-- The first slot that writes a register which an earlier slot writes: the later of the two offends, a DESIGN CHOICE (log 109). -/
def writeClash : List RegName → List SlotOp → Option Slot
  | _, [] => none
  | seen, o :: r => if o.writes.any seen.contains then some o.slot else writeClash (seen ++ o.writes) r

/-- Orders 13 to 17 of 05 Table 05-8: the trap's detail. -/
def groupCheck (c : Core) (b : Bundle) (ops : List SlotOp) : Option Nat :=
  match writeClash [] ops with
  | some s => some (0x100 + s.index * 2 ^ 4)
  | none =>
    match ops.find? fun o => (o.reads ++ o.writes).any c.grp.written.contains with
    | some o => some (0x200 + o.slot.index * 2 ^ 4)
    | none =>
      let must := (match b.op .ct with | some i => !openCt i | none => false) || ops.any (fun o => isDrain o.op) ||
        (match c.loops with | e :: _ => e.last == c.pc | [] => false)
      if 8 ≤ c.grp.count then some 0x3F0
      else if must && !b.stop then some 0x4F0
      else if 0 < c.grp.count && ops.any (fun o => isAmo o.op) then some 0x5F0
      else none

/-! ## Hazards (05 R118, R119) -/

/-- Registers with a pending write. -/
def Core.pendingRegs (c : Core) : List RegName :=
  c.pend.flatMap (·.wr.reg) ++ c.arb.filterMap (·.reg)
def hazard (c : Core) (ops : List SlotOp) : Bool :=
  let p := c.pendingRegs
  ops.any fun o => (o.reads ++ o.writes).any p.contains

/-! ## Running the slots -/

def isNspStore : Instr → Bool
  | .st .. | .vst .. | .vstw .. => true
  | _ => false
def isHandleStore : Instr → Bool
  | .sth .. | .vsth .. | .vsthx .. | .vscat .. => true
  | _ => false
def afterOthers : Instr → Bool
  | .trap .. | .ebreak => true
  | _ => false

/-- The order in which the operations of a bundle are performed: loads before stores (09 R259), CT last. Of several traps at issue the
first in this order is taken (log 4). -/
def runOrder (ops : List SlotOp) : List SlotOp :=
  let late (o : SlotOp) : Bool := isNspStore o.op || isHandleStore o.op
  ops.filter (fun o => !late o && o.slot != .ct) ++ ops.filter (fun o => late o && o.slot != .ct)

/-- The latch after an operation in its slot (05 R127, R129). -/
def relatch (s : State) (o : SlotOp) (l : List (Slot × Latch)) : List (Slot × Latch) :=
  let rest := l.filter fun x => x.1 != o.slot
  match o.re with
  | some x => (o.slot, x) :: rest
  | none =>
    if o.op.armed then
      let a := latchAddr s o.op
      (o.slot, { op := o.op, rnd := s.core.ictx.rnd, sm := s.core.ictx.sm, addr := a.1, addr2 := a.2.1, vec := a.2.2 }) :: rest
    else rest

/-- An operation whose horizon counts in strand ticks: no landing and no engine operation (13 R384, 05 R116). -/
def lockStep : Instr → Bool
  | .ldl .. | .vldl .. | .vldlx .. | .vgath .. | .vlda .. | .vsta .. => false
  | .mcall .. | .mfmt .. | .mchk .. | .mclr .. | .mldstore .. | .cpy .. | .cpysig .. | .cpeer .. | .bankcfg .. | .strmbind ..
  | .strmrel .. | .pgload .. | .pgrun .. | .pgstop .. | .psend .. | .pgrant .. | .cflush .. | .cinv .. => false
  | i => !isAmo i

/-- A result with bit `b` inverted, where it has such a bit. -/
def flipWr (b : Nat) : Wr → Wr
  | .s r x => .s r (x ^^^ .ofNat 64 (2 ^ b))
  | .v r x m => .v r (x ^^^ .ofNat 2048 (2 ^ b)) m
  | .p r x m => .p r (x ^^^ .ofNat 256 (2 ^ b)) m
  | .h r x => .h r (x ^^^ .ofNat 128 (2 ^ b))
  | .mp r x => .mp r (x ^^^ .ofNat 64 (2 ^ b))
  | .kSet r x => .kSet r (x ^^^ .ofNat 32 (2 ^ b))
  | .kAdd r x => .kAdd r (x ^^^ .ofNat 32 (2 ^ b))
  | .csr n x => .csr n (x ^^^ .ofNat 64 (2 ^ b))
  | .link x => .link (x ^^^ .ofNat 64 (2 ^ b))
  | .vlda int r e m rnd sm olds => .vlda int r e m rnd sm olds
  | .vsta int e x m => .vsta int e x m
  | .hInv r => .hInv r
  | .hKeep r => .hKeep r
  | .hInvAll => .hInvAll
  | .none => .none
/-- Targets 1 to 3 of an armed injection meet the operation `o`; its pending writes take the flipped
bit (13 R389). -/
def State.injectOp (s : State) (o : SlotOp) (before : Nat) : State :=
  let c := s.core
  let sl := o.slot
  let sca := sl == .sa || sl == .sb
  let vec := sl == .va || sl == .vb || sl == .vc
  let t := c.injTarget
  if !c.injArmed then s
  else if (t == 1 && sca) || (t == 2 && vec) then
    let s := s.onCore fun c =>
      { c with pend := c.pend.take before ++ (c.pend.drop before).map fun p => { p with wr := flipWr c.injBit p.wr } }
    s.inject c.id t
  else if t == 3 && lockStep o.op then s.inject c.id 3
  else s

/-- One operation of a bundle with its rounding, saturation and latched address. -/
def runSlot (o : SlotOp) (s : State) : Out :=
  let ic := s.core.ictx
  let s1 := s.onCore fun c =>
    match o.re with
    | some l => { c with ictx := { ic with rnd := l.rnd, sm := l.sm, addr := some (l.addr, l.addr2, l.vec) } }
    | none => { c with ictx := { ic with addr := none } }
  match runOp o.op s1 with
  | .next s2 =>
    let s3 := s2.onCore fun c =>
      { c with
        latch := if o.slot == .ct then c.latch else relatch s o c.latch
        ictx := { c.ictx with rnd := ic.rnd, sm := ic.sm, addr := none } }
    .next (s3.injectOp o s.core.pend.length)
  | x => x

/-- The operations in order, up to one that traps or waits. -/
def runSlots : List SlotOp → State → Out
  | [], s => .next s
  | o :: r, s =>
    match runSlot o s with
    | .next s' => if s'.core.ictx.trap.isSome || s'.core.ictx.stall.isSome then .next s' else runSlots r s'
    | x => x

/-! ## After the operations -/

/-- One unfrozen tick passes. -/
def Core.tickOn (c : Core) : Core :=
  { c with tick := c.tick + 1, wall := c.wall + 1, issueCnt := c.issueCnt + 1 }

/-- The group after the last issue of a bundle (05 R120, R121). -/
def nextGroup (g : Group) (b : Bundle) (ops : List SlotOp) : Group :=
  if b.stop then ⟨0, []⟩ else ⟨g.count + 1, g.written ++ ops.flatMap (·.writes)⟩

/-- Where the strand goes after the last issue of the bundle at `pc` (06 R142, R170). -/
def Core.advance (c : Core) (pc : Nat) : Core :=
  if c.ictx.moved then { c with issue := 0 }
  else
    match c.loops with
    | e :: r =>
      if e.last = pc then
        (if e.index.toNat + 1 < e.limit.toNat then
          { c with loops := { e with index := e.index + 1 } :: r, pc := e.start, issue := 0 }
        else { c with loops := r, pc := c.ictx.npc, issue := 0 })
      else { c with pc := c.ictx.npc, issue := 0 }
    | [] => { c with pc := c.ictx.npc, issue := 0 }

/-- The core after issue `k` of bundle `b`. -/
def Core.afterIssue (c : Core) (b : Bundle) (ops : List SlotOp) (pc k : Nat) : Core :=
  let c := if k < b.rep then { c with issue := k + 1 }
    else { c.advance pc with grp := nextGroup c.grp b ops, implied := c.implied && c.snap.isSome }
  { c with
    efmt := c.efmtNow
    efmtPend := c.efmtPend.filter fun x => c.issueNo < x.1
    issueNo := c.issueNo + 1
    atCommit := false }

/-- A commit or its like does not extend its own drain (13 R384). -/
def commits : Instr → Bool
  | .commit | .bar | .sstep | .exit | .drain => true
  | _ => false

/-- The bundle is held back: the state before it, with the walks that its operations wait for. One that finds a queue full has begun
nothing (05 R124). -/
def holdBack (pre post : State) (w : Wait) : State :=
  let pre : State := match w with | .room _ => pre | _ => { pre with walks := post.walks, nextId := post.nextId, free := post.free }
  pre.onCore fun c => { c with wait := some w, frozen := true }

/-- A trap after issue (13 R373): HAZARD enters first, and SOFT or BREAK waits for its turn if both are raised: a DESIGN CHOICE (log 16). -/
def afterIssueTraps (s : State) (hz : Bool) (ct : Option Instr) : Out :=
  let s := s.onCore fun c => { c with ictx := { c.ictx with npc := c.pc } }
  let t := s.core.tick
  if !hz && ct.isNone then .next (s.onCore (·.tickOn))
  else
  let s := s.onCore fun c => { c with wall := c.wall + 1, issueCnt := c.issueCnt + 1 }
  if hz then
    match ct with
    | some (.trap a code) =>
      .next ((s.onCore fun c => { c with syncq := ⟨.soft, code.setWidth 64, c.s a⟩ :: c.syncq }).takeTrap
        ⟨.hazard, 0, 0⟩ false s.core.pc s.core.issue t)
    | some .ebreak =>
      .next ((s.onCore fun c => { c with syncq := ⟨.brk, 0, 0⟩ :: c.syncq }).takeTrap
        ⟨.hazard, 0, 0⟩ false s.core.pc s.core.issue t)
    | _ => .next (s.takeTrap ⟨.hazard, 0, 0⟩ false s.core.pc s.core.issue t)
  else
    match ct with
    | some i => runOp i s
    | none => .next s

/-- Runs the operations of issue `k` of bundle `b` at the focus core, whose checks have passed. -/
def State.runBundle (pre : State) (b : Bundle) (ops : List SlotOp) : Out :=
  let c := pre.core
  let pc := c.pc
  let k := c.issue
  let hz := c.contract == 1 && hazard c ops
  let ct := ops.find? (·.slot == .ct)
  let last := (ct.map fun o => afterOthers o.op).getD false
  let s := pre.onCore fun c =>
    { c with
      stale := if b.join then [] else c.stale
      ictx := { rnd := b.rnd, sm := b.sm, addr := none, npc := pc + 2 * b.len, moved := false, trap := none, stall := none } }
  let body := runOrder ops
  let out : Out :=
    match runSlots (body.filter fun o => !isDrain o.op) s with
    | .next s1 =>
      if s1.core.ictx.trap.isSome || s1.core.ictx.stall.isSome then .next s1
      else
        let s2 := s1.onCore fun c =>
          if (ops.filter fun o => lockStep o.op && !commits o.op).isEmpty then c
          else { c with inst := { c.inst with horizon := max c.inst.horizon (c.tick + 16) } }
        runSlots (body.filter (fun o => isDrain o.op) ++ (if last then [] else ct.toList)) s2
    | x => x
  match out with
  | .next s3 =>
    match s3.core.ictx.trap, s3.core.ictx.stall with
    | some r, _ => .next ((pre.onCore fun c => { c with ictx := ICtx.reset }).takeTrap r false pc k (c.tick - 1))
    | none, some w => .next (holdBack pre s3 w)
    | none, none =>
      if s3.core.strand.isNone then .next s3
      else
        let tlb := match c.strand with
          | some st => (c.keepWalk st.ctx (st.codeVa + pc) (pre.lookup c.id st.ctx (st.codeVa + pc))).tlb
          | none => c.tlb
        let s4 := s3.onCore fun c => { c.afterIssue b ops pc k with tlb := tlb }
        afterIssueTraps s4 hz (if last then ct.map (·.op) else none)
  | x => x

/-! ## Before the operations -/

/-- Is `pc` a pause point of the strand (02 R52)? -/
def pausePoint (c : Core) (st : Strand) : Option Pause :=
  st.pauses.find? fun p => bitsAt p.q0.toNat 0 32 == c.pc

/-- The record of a listed address that is no pause point, once per launch (02 R52). -/
def State.noteSkip (s : State) (st : Strand) : State :=
  if (s.findTask st.task).any (·.noted) then s
  else
    (s.faultRec s.core.id.die st.ctx 0x07 (st.codeVa + s.core.pc) 0 s.core.pc (s.coreMaster s.core.id 0)).updTask st.task
      fun t => { t with noted := true }

/-- A fetch that finds its page absent holds the strand (05 R105). -/
def State.fetchHold (s : State) (st : Strand) (w : WalkRes) : State :=
  let d := s.core.id.die
  let m := s.coreMaster s.core.id 0
  let va := st.codeVa + s.core.pc
  let s := s.badPteRec d st.ctx va w m
  (s.faultRec d st.ctx 0x01 va 0 st.lcore m).onCore fun c =>
    { c with wait := some (.fetch va), frozen := true }

/-- A fetch that no access reaches is recorded and traps as a load would (log 53). -/
def State.fetchRefused (s : State) (st : Strand) (v : Verdict) (pa : Nat) : State :=
  let c := s.core
  let va := st.codeVa + c.pc
  let w : Who := { chip := s.rhoath.chip, die := c.id.die.code, kind := 0, unit := c.id.num, ctx := st.ctx }
  (s.refusal c.id.die w needR va pa v).issueTrap v.trap 0 va

/-- The issue of the bundle at the pc of the focus core, on a tick whose writes have fallen due. -/
def State.issueBundle (s : State) (st : Strand) : Out :=
  let s := s.onCore fun c => { c with ictx := ICtx.reset }
  let c := s.core
  match s.find st with
  | .absent w => .next (s.fetchHold st w)
  | .trap n d => .next (s.issueTrap n d 0)
  | .refused v pa => .next (s.fetchRefused st v pa)
  | .held => .fault (.notEnabled "BUNDLE_ISSUE")
  | .bundle b =>
    let ops := slotOps b (if c.issue = 0 && b.ops.any (fun x => isAmo x.2) then [] else c.latch) c.issue
    match if c.issue = 0 then groupCheck c b ops else none with
    | some d => .next (s.issueTrap .illegalGroup d 0)
    | none =>
      if c.issue = 0 && b.sync && !(c.xmq.isEmpty && c.ceq.isEmpty) then
        .next (s.onCore fun c => { c with wait := some .sync, frozen := true })
      else if c.contract = 2 && hazard c ops then .next (s.onCore (·.tickOn))
      else if b.ops.any (fun x => isAmo x.2) && !c.implied && c.snap.isNone then
        .next (s.onCore fun c =>
          { c with dead := c.inst.horizon + 1 - c.tick, wait := some (.commit .atomic), latch := [] })
      else s.runBundle b ops

/-- The strand of the focus core stops at its pc with a reason (13 R390). -/
def State.stopHere (s : State) (reason : Nat) : State := s.onCore fun c => { c with stopping := some reason }

/-- A pause point is taken, noted or neither (02 R52, 13 R390); none where the bundle issues. -/
def State.pauseCheck (s : State) (st : Strand) : Option State × State :=
  let c := s.core
  if c.snap.isSome || c.issue ≠ 0 then (none, s)
  else
    match pausePoint c st with
    | none => (none, s)
    | some _ =>
      if !c.atCommit then (none, s.noteSkip st)
      else if c.stop then
        match s.reserveSlots with
        | some s' => (some (s'.stopHere 0), s)
        | none => (none, s)
      else (none, s)

/-! ## Waits (06 R143, R173 to R178, 09 R266) -/

/-- Has every external effect that a strand has committed, but for its log, performed (06 R177, 09 R266, 12 R354, R364)? A
PSEND counts once it is held, a deterministic reduction once its hold has accepted it. -/
def State.strandPerformed (s : State) (t : TaskId) (g l : Nat) : Bool :=
  !s.flight.any (fun a => a.task == some t && a.gang == g && a.lcore == l && !a.held && isWrite a.act && a.stage != .reply) &&
    !s.effects.any (fun e => e.task == some t && e.gang == g && e.lcore == l && e.committed && !e.acked &&
      (match e.kind with | .psend .. => false | _ => true))
def State.performed (s : State) (c : Core) : Bool :=
  !c.trellis.any (·.committed) &&
    match c.strand with
    | none => true
    | some st => s.strandPerformed st.task st.gang st.lcore

/-- Does the condition of a waiting operation hold? -/
def State.waitHolds (s : State) (c : Core) : Wait → Bool
  | .lt k thr => (c.k k).toNat < thr.toNat
  | .tokens l => l.all fun t => !c.tokPending t
  | .flags m => c.rx &&& m == m
  | .wfe w => w
  | .barrier _ n => n == 0
  | .drain => s.performed c
  | .room xm => (if xm then c.xmq else c.ceq).length < 16
  | .sync => c.xmq.isEmpty && c.ceq.isEmpty
  | .walk id => !s.walks.any (·.id == id)
  | .trellis => c.trellis.length < 256
  | .fetch va => match c.strand with | some st => (s.translate st.ctx va).isSome | none => false
  | .commit _ | .yield | .eret | .exited => false

/-- The wait is over (06 R175: FLAGWT clears the bits it waited for). -/
def Core.endWait (c : Core) (w : Wait) : Core :=
  { c with
    wait := none, frozen := false
    old := match w with | .tokens l => dropOld l.contains c.old | _ => c.old
    rx := match w with | .flags m => c.rx &&& ~~~m | _ => c.rx }

/-- A wait that stands before the issue of its bundle, which is tried again. -/
def beforeIssue : Wait → Bool
  | .room _ | .sync | .walk _ | .trellis | .fetch _ => true
  | _ => false

/-- Does the wait hold the core back on this tick: a condition that is evaluated before anything falls due, since its
freeze begins on this tick (06 R143)? -/
def State.waitsOn (s : State) (c : Core) : Bool :=
  match c.wait with
  | some (.commit _) | some .eret | some .exited | some .yield | none => false
  | some w => c.dead == 0 && !beforeIssue w && !s.waitHolds c w
/-- The core with a wait that holds ended. -/
def Core.passWait (c : Core) : Core :=
  match c.wait with
  | some (.commit _) | some .eret | some .exited | some .yield | none => c
  | some w => if c.dead == 0 && !beforeIssue w then c.endWait w else c

/-- The tick of the focus core after its due writes, with no trap due. -/
def State.tickCore (s : State) (st : Strand) : Out :=
  let c := s.core
  if 0 < c.dead then .next (s.onCore fun c => { c.tickOn with dead := c.dead - 1 })
  else
    let go (s : State) : Out :=
      match s.pauseCheck st with
      | (some s', _) => .next s'
      | (none, s') => s'.issueBundle st
    match c.wait with
    | none => go s
    | some w =>
      if beforeIssue w then go (s.onCore fun c => { c with wait := none })
      else if w == .yield then .next (s.onCore fun c => { c with wait := none, stopping := some 1 })
      else .next (s.onCore fun c => { c with frozen := true })

/-- A core whose strand can take its next tick. -/
def Core.runs (c : Core) : Bool :=
  c.strand.isSome && !c.ended && c.stopping.isNone && !c.frozen &&
    (match c.wait with
      | some (.commit _) => 0 < c.dead
      | some .exited => false
      | _ => true)

/-- BUNDLE_ISSUE (05 R116): one unfrozen tick of a core. A wait that does not hold freezes it first. What falls due is written first, then its traps are taken;
then a tick without issue passes or a bundle issues. -/
def execBundleIssue (id : CoreId) (s : State) : Out :=
  let s := s.focus id
  let c := s.core
  match c.strand with
  | none => .fault (.notEnabled "BUNDLE_ISSUE")
  | some st =>
    if !c.runs then .fault (.notEnabled "BUNDLE_ISSUE")
    else if c.wait = some .eret ∧ c.dead = 0 then .next (s.onCore (·.resume))
    else if s.waitsOn c || !c.ready then .next (s.onCore fun c => { c with frozen := true })
    else
      match (s.onCore (·.passWait)).settle with
      | (s1, []) => s1.tickCore st
      | (s1, r :: more) =>
        .next ((s1.onCore fun c => { c with syncq := more ++ c.syncq }).takeTrap r false s1.core.pc s1.core.issue (s1.core.tick - 1))

end Sys2Proof.Machine
end

