-- ==== Sys2Proof/Machine/Recovery.lean ====
section
/-! DEFINITION. The events of a core beside the issue of a bundle: data that lands, walks that end, waits that are
over, commits, traps that enter, stops (06 R143, R174 to R180, 09 R248 to R255, 13 R374, R375, R384, R390). -/

namespace Sys2Proof.Machine

/-! ## Frozen time (06 R143, R148) -/

/-- Does the clock domain of the core stand still: frozen, or in the wait of a COMMIT? -/
def Core.still (c : Core) : Bool :=
  c.frozen || (c.dead == 0 && match c.wait with | some (.commit _) => true | _ => false)
/-- The wall time of the focus core at an event that may come while it stands still. -/
def State.wallNow (s : State) : State := if s.core.still then s.thaw else s
/-- The freeze of the focus core ends. -/
def State.unfreeze (s : State) : State :=
  if s.core.frozen then s.thaw.onCore fun c => { c with frozen := false } else s
/-- The freeze and the wait of the focus core end. -/
def State.unwait (s : State) : State := s.unfreeze.onCore fun c => { c with wait := none }
/-- A core that waits in some way, its clock domain frozen. -/
def Core.waiting (c : Core) : Option Wait :=
  if c.frozen && c.strand.isSome && c.stopping.isNone && !c.ended then c.wait else none

/-! ## Landings (09 R250, R252, R255, 13 R379, R381, R384, R386) -/

/-- The register write of the data that access `a` has brought. -/
def landWr (a : Access) : Wr :=
  match a.dst with
  | .none => .none
  | .s r n signed => .s r (extendN n signed a.res.toNat)
  | .v r m => .v r a.res m

/-- The landing `id` of a core takes its write, flags and trap, wherever it is held. -/
def Core.setLanding (c : Core) (id : Nat) (f : Landing → Landing) : Core :=
  let g (l : Landing) : Landing := if l.id = id then f l else l
  { c with
    arb := c.arb.map g
    snap := c.snap.map fun n => { n with arb := n.arb.map g }
    inst := { c.inst with carried := c.inst.carried.map g } }

/-- LANDING_ARRIVAL: the data of an access reaches the Arbour of its core, with the knowledge of the die that answered; what
waited for it leaves (12 R341). -/
def execLandingArrival (id : Nat) (s : State) : Out :=
  match s.flight.find? fun a => a.id == id && a.stage == .reply, (s.flight.find? (·.id == id)).bind (·.land) with
  | some a, some l =>
    let s : State := { s with flight := s.flight.filter (·.id != id) }
    let s := if a.home = a.core.die || s.down a.home then s
      else s.updDie a.core.die fun d => { d with know := mergeKnow d.know a.clock d.id.code }
    let s := (s.focus a.core).wallNow
    let was := s.core.ready
    let s := s.onCore fun c =>
      { c.setLanding l (fun x => { x with wr := some (landWr a), fl := a.fl, trap := a.bad }) with
        inst := { (c.setLanding l (fun x => { x with wr := some (landWr a), fl := a.fl, trap := a.bad })).inst with
          wallHorizon := max c.inst.wallHorizon (c.wall + 16) } }
    .next (if s.core.ready && !was then s.unfreeze else s).pump
  | _, _ => .fault (.notEnabled "LANDING_ARRIVAL")

/-! ## Walks (09 R243, R247, R248, R249, R253, R255) -/

/-- The handle register that a walk rewrites: one that still names the page it walked. -/
def Core.rewalked (c : Core) (w : Walk) (x : HWord) : Core :=
  let h := c.h w.h
  if hInit h && !hValid h && hVpage h == hVpage x && hCtx h == hCtx x then c.setH w.h x else c

/-- A pending write of an XLT or HQRY takes the result of its walk: the handle, or QW0 of it. -/
def walkWr (w : Walk) (r : WalkRes) (p : Pend) : Pend :=
  if p.walk = some w.id then
    { p with
      walk := none
      wr := match p.wr with
        | .h h _ => .h h (mkHandle (bitsAt w.va 15 41) w.ctx r (!w.stale))
        | .s d _ => .s d ((mkHandle (bitsAt w.va 15 41) w.ctx r true).setWidth 64)
        | x => x }
  else p

/-- A landing access that ends before it is sent: its landing takes the trap. -/
def State.dropLanding (s : State) (a : Access) (n : TrapName) (va : Nat) : State :=
  let s := (if isWrite a.act then s.uncount a else s).dropAccess a.id
  match a.land with
  | some l => s.updCore a.core (·.setLanding l fun x => { x with wr := some .none, trap := some ⟨n, 0, .ofNat 64 va⟩ })
  | none => s
def leafRight (a : Access) (l : Leaf) : Bool := match a.act with | .load => l.r | _ => l.a
/-- A landing access whose page is absent: its record, and its hold (09 R253). -/
def State.holdLanding (s : State) (a : Access) (va : Nat) : State :=
  (s.faultRec a.core.die a.ctx 0x01 va 0 a.lcore (s.coreMaster a.core 0)).setAccess { a with stage := .absent }
/-- A landing access with its addresses goes to memory. -/
def State.sendLanding (s : State) (a : Access) (parts : List Part) : State :=
  let home := match parts with | p :: _ => (paDie p.pa).getD a.core.die | [] => a.core.die
  (s.setAccess { a with stage := .away, parts := parts, home := home, xl := s.nextId }).pump

/-- An access whose handle has been walked at issue: the checks of R247 with the page that its handle now names (09 R255). -/
def State.walkedAccess (s : State) (a : Access) (r : WalkRes) : State :=
  let va := match a.parts with | p :: _ => p.va | [] => 0
  match r.leaf with
  | none => s.holdLanding a va
  | some l =>
    let page := a.hbase - a.hbase % pageBytes l.size
    let off (p : Part) : Nat := p.va - a.hbase
    if a.parts.any fun p => pageBytes l.size < off p + p.len then s.dropLanding a .handleRange va
    else if !leafRight a l then s.dropLanding a .pageRights va
    else s.sendLanding a (a.parts.map fun p => { p with va := canonVa (page + off p), pa := l.base + off p })

/-- A held access walks the page of each element's own VA again (09 R253). -/
def State.retryLanding (s : State) (a : Access) : State :=
  let ws := a.parts.map fun p => (p, s.walkVa a.ctx p.va)
  match ws.find? fun x => x.2.leaf.isNone with
  | some (p, w) => (s.badPteRec a.core.die a.ctx p.va w (s.coreMaster a.core 0)).holdLanding a p.va
  | none =>
    match ws.find? fun x => !x.2.leaf.any (leafRight a) with
    | some (p, _) => s.dropLanding a .pageRights p.va
    | none =>
      s.sendLanding a (ws.map fun x => match x.2.leaf with
        | some l => { x.1 with pa := l.base + x.1.va % pageBytes l.size }
        | none => x.1)

/-- WALK_COMPLETE: the walk reads the page tables, once what causally precedes it has been delivered (12 R349); its handle and what
waited for it go on. -/
def execWalkComplete (id : Nat) (s : State) : Out :=
  match s.walks.find? (·.id == id) with
  | none => .fault (.notEnabled "WALK_COMPLETE")
  | some w =>
    let r := s.lookup w.core w.ctx w.va
    match s.directReads w.core.die (s.lookupDies w.core w.ctx w.va) with
    | none => .fault (.notEnabled "WALK_COMPLETE")
    | some s =>
    let s := if (s.getCore w.core).tlb.isEmpty then s else s.draw.2
    let s := if w.stale then s else s.updCore w.core (·.keepWalk w.ctx w.va r)
    let x := mkHandle (bitsAt w.va 15 41) w.ctx r (!w.stale)
    let s : State := { s with walks := s.walks.filter (·.id != id) }
    let s := s.badPteRec w.core.die w.ctx w.va r (s.coreMaster w.core 0)
    let s := (s.focus w.core).wallNow
    let was := s.core.ready
    let s : State := match w.why with
      | .xlt | .hqry => s.onCore fun c =>
        { c with
          pend := c.pend.map (walkWr w r)
          snap := c.snap.map fun n => { n with pend := n.pend.map (walkWr w r) } }
      | .handle => s.onCore (·.rewalked w x)
      | .access a =>
        let s : State := match s.flight.find? (·.id == a) with
          | some y => s.walkedAccess y r
          | none => s
        s.onCore (·.rewalked w x)
    .next (if s.core.wait = some (.walk id) then s.unwait else if s.core.ready && !was then s.unfreeze else s).pump

/-! ## Waits (06 R143, R173 to R176, 05 R124, R125) -/

/-- WAIT_CONDITION_MET: the condition of a waiting operation holds on a frozen tick. -/
def execWaitConditionMet (id : CoreId) (s : State) : Out :=
  let s := s.focus id
  match s.core.waiting with
  | some w =>
    if !beforeIssue w && s.waitHolds s.core w then .next (s.unfreeze.onCore (·.endWait w))
    else .fault (.notEnabled "WAIT_CONDITION_MET")
  | none => .fault (.notEnabled "WAIT_CONDITION_MET")

/-- WFE_TIMEOUT: 4,096 wall ticks have passed since the WFE (06 R176). -/
def execWfeTimeout (id : CoreId) (s : State) : Out :=
  let s := s.focus id
  match s.core.waiting with
  | some (.wfe _) => .next s.unwait
  | _ => .fault (.notEnabled "WFE_TIMEOUT")

/-- QUEUE_ROOM: an entry has left the engine queue that a bundle found full, and the bundle is tried again (05 R124). -/
def execQueueRoom (id : CoreId) (s : State) : Out :=
  let s := s.focus id
  match s.core.waiting with
  | some (.room q) => if s.waitHolds s.core (.room q) then .next s.unwait else .fault (.notEnabled "QUEUE_ROOM")
  | _ => .fault (.notEnabled "QUEUE_ROOM")

/-- SYNC_RELEASE: the engine queues have emptied for a bundle with SYNC (05 R125). -/
def execSyncRelease (id : CoreId) (s : State) : Out :=
  let s := s.focus id
  match s.core.waiting with
  | some .sync => if s.waitHolds s.core .sync then .next s.unwait else .fault (.notEnabled "SYNC_RELEASE")
  | _ => .fault (.notEnabled "SYNC_RELEASE")

/-! ## Commit (13 R384 to R386, 09 R254, R261, R265, 12 R355) -/

/-- Is copy-engine entry `e` a local copy, for which a COMMIT does not wait (13 R385)? -/
def State.entryLocal (s : State) (e : QEntry) : Bool := s.localCopy e.op e.desc e.b.toNat

/-- Is a held effect of the instance still to be checked at its home slice, which it reaches before COMMIT (04 R99)? -/
def State.unchecked (s : State) (c : Core) (a : Access) : Bool :=
  a.core == c.id && a.app.isNone && a.inst == c.inst.id && a.held && a.stage == .home && !s.down a.home &&
    (match a.act with | .launch .. | .drop => false | .dec _ => !a.checked | _ => true)

/-- Has the open instance of core `c` passed its horizons: every held effect checked, no landing of it without its data, no engine command of
it unfinished but local copies, no detector event still to be reported? -/
def State.horizonsPassed (s : State) (c : Core) : Bool :=
  let i := c.inst.id
  c.arb.all (fun l => l.inst != i || l.wr.isSome) &&
    c.xmq.all (·.inst != i) && (c.xmRun.toList ++ c.xmDrain).all (·.ent.inst != i) &&
    c.ceq.all (fun e => e.inst != i || s.entryLocal e) && c.ceRun.all (fun r => r.ent.inst != i || r.isLocal) &&
    !s.flight.any (s.unchecked c) && c.tiles.isEmpty && c.pend.all (·.walk.isNone) &&
    !s.inputs.any (isDetected c.id)

/-- A held effect of the instance released: it leaves its pin for its target (13 R384). A LAUNCH goes to the die that
its virtual die names. -/
def State.releaseAccess (s : State) (a : Access) : Access :=
  { a with
    held := false, stage := .away
    home := match a.act with
      | .launch _ vd => (vdieOf s a.ctx vd).getD a.home
      | _ => a.home }

/-- The places in the strand's order of the deterministic reductions that the open instance of core `c` commits. -/
def State.detSeqs (s : State) (c : Core) : List Nat :=
  ((s.flight.filter fun a => a.core == c.id && a.inst == c.inst.id && a.held && a.det).map (·.seq) ++
    (c.trellis.filter fun t => !t.committed && t.det).map (·.seq)).eraseDups
/-- The key of the reduction at place `q`: gang, core and the count of those before it in the epoch (12 R355). -/
def detKey (st : Strand) (reds : Nat) (l : List Nat) (q : Nat) : Nat × Nat × Nat :=
  (st.gang, st.lcore, reds + (l.filter (· < q)).length)

/-- COMMIT_RELEASE: the horizons are passed; the held effects are released, the log's entries are committed and a new
instance begins (13 R384). -/
def execCommitRelease (id : CoreId) (s : State) : Out :=
  let s := s.focus id
  let c := s.core
  match c.wait, c.strand with
  | some (.commit after), some st =>
    if 0 < c.dead || c.frozen || c.ended || c.stopping.isSome || c.snap.isSome || !s.horizonsPassed c ||
        (after == .exit && !(c.syncq ++ c.trapq).isEmpty) then
      .fault (.notEnabled "COMMIT_RELEASE")
    else
      let wait := c.inst.wallHorizon - c.wall
      let dets := s.detSeqs c
      let sn : Bool := match after with | .barrier b => b | _ => false
      let bar : Bool := match after with | .barrier _ => true | _ => false
      let s : State := { s with
        flight := s.flight.map fun a => if a.core == c.id && a.inst == c.inst.id && a.held then
          s.releaseAccess { a with key := detKey st c.reds dets a.seq } else a
        effects := s.effects.filter (fun e => !(e.core == c.id && e.inst == c.inst.id && !e.committed)) ++
          (s.effects.filter fun e => e.core == c.id && e.inst == c.inst.id && !e.committed).map fun e =>
            { e with committed := true } }
      let s := s.onCore fun c =>
        { c with
          wall := c.wall + wait, freezeCnt := c.freezeCnt + .ofNat 64 wait
          trellis := c.trellis.map fun t =>
            if t.committed then t else { t with committed := true, key := detKey st c.reds dets t.seq }
          reds := c.reds + dets.length
          bars := if bar && !sn then c.bars + 1 else c.bars
          ssteps := if bar && sn then c.ssteps + 1 else c.ssteps }
      let s := if after == .exit then s.unbindWhere fun b => b.task = st.task && b.gang == st.gang && b.lcore == st.lcore else s
      let s := (s.beginInst (after == .atomic)).pump
      .next (s.onCore fun c =>
        match after with
        | .next | .atomic => { c with wait := none }
        | .barrier b => { c with wait := some (.barrier b (if b then c.ssteps else c.bars)), frozen := true }
        | .drain => { c with wait := some .drain, frozen := true }
        | .exit => { c with wait := some .exited, ended := true })
  | _, _ => .fault (.notEnabled "COMMIT_RELEASE")

/-! ## The end of a strand (06 R180, 03 R75, 09 R254, 10 R297) -/

/-- STRAND_EXIT_COMPLETE: the log and the engines of an ended strand's core are empty, and the core is free. -/
def execStrandExitComplete (id : CoreId) (s : State) : Out :=
  let s := s.focus id
  let c := s.core
  match c.strand with
  | some st =>
    if !c.ended || !c.idle then .fault (.notEnabled "STRAND_EXIT_COMPLETE")
    else
      let s := s.onCore (·.free)
      .next (s.updTask st.task fun t => t.updGang st.gang fun g =>
        Gang.settle { g with ended := if g.ended.contains st.lcore then g.ended else g.ended ++ [st.lcore] } st.gangSize)
  | none => .fault (.notEnabled "STRAND_EXIT_COMPLETE")

/-! ## Traps that wait (13 R371, R374, R375) -/

/-- ASYNC_TRAP_ARRIVAL: an asynchronous trap enters the queue of the core. -/
def execAsyncTrapArrival (id : CoreId) (tr : TrapName) (detail val : Word) (s : State) : Out :=
  if (s.getCore id).strand.isSome && !(s.getCore id).ended then .next (s.asyncTrap id ⟨tr, detail, val⟩)
  else .fault (.notEnabled "ASYNC_TRAP_ARRIVAL")

/-- Is core `c` frozen in a wait, or in that of a commit, whose freeze comes before what falls due on its next tick (06 R143)? -/
def State.inFreeze (s : State) (c : Core) : Bool :=
  s.waitsOn c || (c.dead == 0 && match c.wait with | some (.commit _) => true | _ => false)

/-- The waiting trap whose turn has come at core `id`: no handler runs, and no synchronous trap is due (R374). In a wait's freeze
nothing is due yet, so a trap is taken whatever the next tick brings (06 R143). -/
def State.trapTurn (s : State) (c : Core) : Option TrapReq :=
  match c.syncq ++ c.trapq, c.strand with
  | r :: _, some _ =>
    if c.snap.isSome || c.ended || c.stopping.isSome || c.wait == some .eret ||
        (!s.inFreeze c && (!c.ready || !((s.focus c.id).settle.2).isEmpty)) then none
    else some r
  | _, _ => none

/-- Will the trap enter the handler of core `c`? -/
def enters (c : Core) (r : TrapReq) : Bool := trapResumes r.name && c.tvec != 0

/-- The queued trap taken, between two issues. -/
def State.takeQueued (s : State) (r : TrapReq) : State :=
  let sync := !s.core.syncq.isEmpty
  let s := s.wallNow.onCore fun c =>
    { c with syncq := c.syncq.tail, trapq := if sync then c.trapq else c.trapq.tail, frozen := false }
  s.takeTrap r (!sync) s.core.pc s.core.issue (s.core.tick - 1)

/-- TRAP_ENTRY: the next queued trap enters the handler. -/
def execTrapEntry (id : CoreId) (s : State) : Out :=
  let s := s.focus id
  match s.trapTurn s.core with
  | some r => if enters s.core r then .next (s.takeQueued r) else .fault (.notEnabled "TRAP_ENTRY")
  | none => .fault (.notEnabled "TRAP_ENTRY")

/-- FATAL_TRAP: the next queued trap ends the task. -/
def execFatalTrap (id : CoreId) (s : State) : Out :=
  let s := s.focus id
  match s.trapTurn s.core with
  | some r => if enters s.core r then .fault (.notEnabled "FATAL_TRAP") else .next (s.takeQueued r)
  | none => .fault (.notEnabled "FATAL_TRAP")

/-! ## Stops (13 R390, 03 R73, R79, R80) -/

/-- Is core `c` bound to a strand of the gang that has not ended? -/
def Core.runsGang (c : Core) (t : TaskId) (g : Nat) : Bool :=
  match c.strand with | some st => st.task = t && st.gang == g && !c.ended | none => false

/-- The scheduler decides that a running gang is to stop: no strand of it starts any more. -/
def State.askStop (s : State) (t : TaskId) (g : Nat) : State :=
  s.updTask t fun x => x.updGang g fun y =>
    if y.state = .running then Gang.settle { y with state := .stopping } (bitsAt (x.pkt.getD 1 0).toNat 43 5) else y

/-- STOP_REQUEST: the strands of a gang that is to stop are asked. -/
def execStopRequest (t : TaskId) (g : Nat) (s : State) : Out :=
  let f (c : Core) : Core := if c.runsGang t g then { c with stop := true } else c
  match (s.findTask t).bind fun x => x.gangs.find? (·.idx == g) with
  | some y =>
    if y.state = .stopping && s.cores.any (fun c => c.runsGang t g && !c.stop) then
      .next { s with core := f s.core, parked := s.parked.map f }
    else .fault (.notEnabled "STOP_REQUEST")
  | none => .fault (.notEnabled "STOP_REQUEST")

end Sys2Proof.Machine
end

