-- ==== Sys2Proof/Machine/Home.lean ====
section
/-! DEFINITION. The serialisation points: atomics, deterministic holds, the order log, counter decrements (01 R24, R33, 04 R98 to R100, 09 R252, R261, R267,
R268, 12 R340 to R346, R354 to R362, 03 R76). -/

namespace Sys2Proof.Machine

/-! ## Atomics (12 R339, R340, R346, 09 Table 09-13) -/

/-- The new value of an atomic and its flags: `c` is the compare value. -/
def atomNew (op : AtomOp) (wide : Bool) (old x c : Nat) : Nat × Flags :=
  let f : IFmt := ⟨if wide then 64 else 32, true⟩
  match op with
  | .add => (f.wrap (old + x : Nat), 0)
  | .min => (if f.toInt x < f.toInt old then x else old, 0)
  | .max => (if f.toInt old < f.toInt x then x else old, 0)
  | .and => (old &&& x, 0)
  | .or => (old ||| x, 0)
  | .xor => (old ^^^ x, 0)
  | .swp => (x, 0)
  | .cas => (if old = c then x else old, 0)
  | .fadd => fpBin (if wide then bf16 else fp32) .rne .none addV old x

/-- The opcode of an atomic (05 Table 05-14). -/
def redOpcode : AtomOp → Nat
  | .add => 0x2C | .min => 0x2D | .max => 0x2E | _ => 0x2F

/-! ## The order log (12 R359, R360) -/

def State.orderRec (s : State) (d : DieId) (kind ctx pa pos seq amoseq lane gang lcore : Nat) : State :=
  let s := s.now
  s.ringPut d (0xA200 + ctx % 16 * 0x20) (0xA208 + ctx % 16 * 0x20) (kind * 2 ^ 56 + ctx % 16 * 2 ^ 52 + pa % 2 ^ 52)
    (pos % 2 ^ 32 * 2 ^ 32 + seq % 2 ^ 32) (amoseq % 2 ^ 32 * 2 ^ 32 + lane % 64 * 2 ^ 16 + gang % 256 * 2 ^ 8 + lcore % 256)
    s.frame.toNat

def taskSeq (a : Access) : Nat := match a.task with | some t => t.seq | none => 0
def laneNum (p : Part) : Nat := p.pos / 4

/-- Returning atomics of the task that have performed at `pa`. -/
def Die.arrived (d : Die) (pa : Nat) (t : TaskId) : Nat :=
  match d.arrivals.find? fun x => x.1 == pa && x.2.1 = t with
  | some x => x.2.2
  | none => 0
def Die.arrive (d : Die) (pa : Nat) (t : TaskId) : Die :=
  { d with arrivals := (pa, t, d.arrived pa t + 1) :: d.arrivals.filter fun x => !(x.1 == pa && x.2.1 = t) }

/-- A record put in its place by POS. -/
def insPos (x : List Nat) : List (List Nat) → List (List Nat)
  | [] => [x]
  | y :: r => if bitsAt (x.getD 1 0) 32 32 < bitsAt (y.getD 1 0) 32 32 then x :: y :: r else y :: insPos x r
/-- The ARRIVAL records of the context's replay list that name `pa`, in the order of POS, from the `n`-th on (DEDUCED,
log 24). -/
def State.replayRecs (s : State) (d : DieId) (ctx pa n : Nat) : List (List Nat) :=
  let o := 0xA210 + ctx % 16 * 0x20
  let base := bitsAt (s.reg d o) 6 46 * 64
  let l := (List.range (bitsAt (s.reg d (o + 8)) 0 32)).map fun i => (List.range 3).map fun k => s.rdRec (base + 32 * i + 8 * k)
  ((l.filter fun r => bitsAt (r.getD 0 0) 56 8 == 1 && bitsAt (r.getD 0 0) 0 52 == pa).foldl (fun a r => insPos r a) []).drop n
/-- Does a record name lane `p` of access `a`? -/
def recNames (a : Access) (p : Part) (r : List Nat) : Bool :=
  let q := r.getD 2 0
  bitsAt q 8 8 == a.gang % 256 && bitsAt q 0 8 == a.lcore % 256 && bitsAt q 16 6 == laneNum p % 64 && bitsAt q 32 32 == a.amo % 2 ^ 32

/-- What the order of 12 R359 says of the next lane of a returning atomic: it may perform, it waits for its
predecessors, or no remaining record names it. After a DIVERGE its address is served in arrival order. -/
inductive Turn where
  | go | wait | unnamed
  deriving DecidableEq, Repr
def State.turnOf (s : State) (a : Access) : Turn :=
  match a.parts, a.task with
  | p :: _, some t =>
    let d := s.die a.home
    if a.order ≠ 2 then .go
    else if d.diverged.any fun x => x.1 == p.pa && x.2 = t then
      (if s.flight.any fun b => b.stage == .turn && b.order == 2 && b.task = a.task && b.sent < a.sent &&
          (b.parts.head?.map (·.pa)) == some p.pa then .wait else .go)
    else
      match s.replayRecs a.home a.ctx p.pa (d.arrived p.pa t) with
      | r :: l => if recNames a p r then .go else if l.any (recNames a p) then .wait else .unnamed
      | [] => .unnamed
  | _, _ => .go

def isAtomic (a : Act) : Bool := match a with | .amo .. | .red .. => true | _ => false
/-- Are two accesses lanes of one vector atomic or reduction? -/
def sameOp (a b : Access) : Bool := b.id != a.id && sameStrand a b && b.seq == a.seq && isAtomic a.act && isAtomic b.act
/-- May the lane of an atomic or reduction perform: its bank is not being switched, and the lanes of its operation that come
before it at the same address have performed (12 R340)? -/
def State.laneFirst (s : State) (a : Access) : Bool :=
  match a.parts with
  | p :: _ => !s.switching p.pa && !s.flight.any fun b =>
      sameOp a b && b.stage != .reply && b.parts.any fun q => q.pa == p.pa && q.pos < p.pos
  | [] => false

/-- The lane of a returning atomic performs, with its ARRIVAL record under ORDER = LOG; one whose bank has left SCRATCH while it waited
is refused (04 R96). -/
def State.atomLane (s : State) (a : Access) : State :=
  match a.parts, a.act with
  | p :: rest, .amo op wide =>
    let w := s.whoIs a
    if s.isReserved p.pa then
      (s.refusal a.core.die w needA p.va p.pa .badPa).answered (a.spoil .badPa p.va)
    else match s.failedSector p.pa p.len false with
    | some x => (s.sealRec w p.va x).answered (a.spoil .seal p.va)
    | none =>
      let old := s.rd p.pa p.len
      let new := atomNew op wide old p.data p.cmp
      let s := s.storeBytes w.ctx p.pa (natBytes new.1 p.len)
      let pos := match a.task with | some t => (s.die a.home).arrived p.pa t | none => 0
      let s := match a.task with | some t => s.updDie a.home (·.arrive p.pa t) | none => s
      let s := if a.order = 1 then
        s.orderRec a.home 1 a.ctx p.pa pos (taskSeq a) a.amo (laneNum p) a.gang a.lcore else s
      let a := { a with parts := rest, hit := true, res := a.res ||| .ofNat 2048 (old * 2 ^ (8 * p.pos)), fl := a.fl ||| new.2 }
      if rest.isEmpty then s.answered a else s.setAccess { a with stage := .turn }
  | _, _ => s

/-! ## Deterministic holds (12 R354 to R358) -/

def sumInt (l : List Nat) : Nat := l.foldl (· + ·) 0
def keyLt (a b : Nat × Nat × Nat) : Bool :=
  a.1 < b.1 || (a.1 == b.1 && (a.2.1 < b.2.1 || (a.2.1 == b.2.1 && a.2.2 < b.2.2)))
def insUpdate (u : Update) : List Update → List Update
  | [] => [u]
  | v :: r => if keyLt u.key v.key then u :: v :: r else v :: insUpdate u r
def sortUpdates (l : List Update) : List Update := l.foldl (fun acc u => insUpdate u acc) []

/-- The exact sum of finite values. -/
def sumVals (l : List Val) : Val := l.foldl (fun x y => (addVal .rne x y).1) (.zero false)
def Val.isInfPos : Val → Bool | .inf s => !s | _ => false
def Val.isInfNeg : Val → Bool | .inf s => s | _ => false

/-- Memory value `m` after the float updates of an overflowed hold (12 R356). -/
def floatHold (f : Fmt) (m : Nat) (ups : List Update) : Nat :=
  let vs := (m :: (sortUpdates ups).map (·.x)).map (decodeVal f)
  match firstNan vs with
  | some n => (roundNe f (quietVal n)).1
  | none =>
    if vs.any Val.isInfPos && vs.any Val.isInfNeg then (roundNe f Val.dflt).1
    else match vs.find? (·.isInf) with
      | some i => (roundNe f i).1
      | none => (roundNe f ((addVal .rne (decodeVal f m) (sumVals (ups.map fun u => decodeVal f u.x))).1)).1

/-- Memory value `m` after the updates of a hold. -/
def holdValue (h : Hold) (m : Nat) : Nat :=
  if h.count ≤ 16 then (sortUpdates h.ups).foldl (fun m u => (atomNew h.op h.wide m u.x 0).1) m
  else match h.op with
    | .add => (m + sumInt (h.ups.map (·.x))) % 2 ^ (8 * atomSize .add h.wide)
    | .fadd => floatHold (if h.wide then bf16 else fp32) m h.ups
    | op => h.ups.foldl (fun m u => (atomNew op h.wide m u.x 0).1) m
def State.applyHold (s : State) (h : Hold) : State :=
  let n := atomSize h.op h.wide
  s.storeBytes h.ctx h.pa (natBytes (holdValue h (s.rd h.pa n)) n)

/-- DETCNT counts one more (12 R362). -/
def State.countDet (s : State) (d : DieId) : State :=
  s.setReg d 0xA400 (satTo (2 ^ 32 - 1) (bitsAt (s.reg d 0xA400) 0 32 + 1))

def sameHold (h : Hold) (pa : Nat) (t : TaskId) (g : Nat) (op : AtomOp) (wide : Bool) : Bool :=
  h.pa == pa && h.task = t && h.gang == g && h.op == op && h.wide == wide

/-- A deterministic reduction reaches its hold; none where the context's quota is used up. -/
def State.holdAccept (s : State) (d : DieId) (a : Access) (t : TaskId) (op : AtomOp) (wide : Bool) (p : Part) : Option State :=
  let x := s.die d
  let u : Update := { key := (a.key.1, a.key.2.1 * 64 + laneNum p, a.key.2.2), x := p.data }
  match x.holds.find? fun h => sameHold h p.pa t a.gang op wide with
  | none =>
    if bitsAt (x.nat (0xA408 + a.ctx * 8)) 0 17 ≤ (x.holds.filter (·.ctx == a.ctx)).length then none
    else some (s.setDie { x with holds := x.holds ++
      [{ pa := p.pa, task := t, gang := a.gang, ctx := a.ctx, op := op, wide := wide, count := 1, ups := [u] }] })
  | some h =>
    let h := { h with count := h.count + 1, ups := h.ups ++ [u] }
    let s := if h.count = 17 then
      (s.orderRec d 2 a.ctx p.pa 17 (taskSeq a) 0 (laneNum p) a.gang a.lcore).countDet d else s
    let full := h.count = 2 ^ 42
    let s := if full then
      ((s.applyHold h).orderRec d 5 a.ctx p.pa (2 ^ 32 - 1) (taskSeq a) 0 (laneNum p) a.gang a.lcore).countDet d else s
    let h := if full then { h with count := 0, ups := [] } else h
    some (s.updDie d fun x => { x with holds := x.holds.map fun y => if sameHold y p.pa t a.gang op wide then h else y })

/-- Holds in the order of 12 R356: ascending opcode, then w. -/
def holdLe (a b : Hold) : Bool :=
  redOpcode a.op < redOpcode b.op || (redOpcode a.op == redOpcode b.op && (!a.wide || b.wide))
def insHold (h : Hold) : List Hold → List Hold
  | [] => [h]
  | k :: r => if holdLe h k then h :: k :: r else k :: insHold h r
/-- Every hold of a gang on every die applied and closed. -/
def State.closeHolds (s : State) (t : TaskId) (g : Nat) : State :=
  DieId.all.foldl (fun s d =>
    let mine (h : Hold) : Bool := h.task = t && h.gang == g
    let l := ((s.die d).holds.filter mine).foldl (fun acc h => insHold h acc) []
    (l.foldl (fun s h => s.applyHold h) s).updDie d fun x => { x with holds := x.holds.filter fun h => !mine h }) s

/-! ## Reductions and decrements (12 R346, 03 R76, 06 R181) -/

/-- One lane of a released reduction. -/
def State.redLane (s : State) (a : Access) (op : AtomOp) (wide : Bool) (p : Part) : State :=
  match s.failedSector p.pa p.len false with
  | some x => (s.sealRec (s.whoIs a) p.va x).issuerTrap a .seal p.va
  | none =>
    match a.det, a.task with
    | true, some t =>
      (match s.holdAccept a.home a t op wide p with
      | some s => s
      | none => s.issuerTrap a .detFull 0)
    | _, _ => s.storeBytes a.ctx p.pa (natBytes (atomNew op wide (s.rd p.pa p.len) p.data 0).1 p.len)

/-- A saturating decrement of the counter at `pa`; whether it saturated. -/
def State.decrement (s : State) (ctx pa d : Nat) : State × Bool :=
  let old := s.rd pa 8
  if d ≤ old then (s.storeBytes ctx pa (natBytes (old - d) 8), false) else (s.storeBytes ctx pa (natBytes 0 8), true)

/-- A SIGNAL's decrement performs, with its record where it saturates (06 R181). -/
def State.signalAt (s : State) (home : DieId) (w : Who) (va pa d : Nat) : State :=
  let r := s.decrement w.ctx pa d
  if r.2 then r.1.faultRec home w.ctx 0x06 va (pa - pa % 64) d w.code else r.1

/-! ## An access as a whole -/

/-- The first part of an access that its check refuses. -/
def State.firstBad (s : State) (a : Access) : Option (Part × Verdict) :=
  a.parts.findSome? fun p =>
    match s.judge (s.whoIs a) (needOf a.act) p.pa with
    | .ok => none
    | v => some (p, v)

/-- The check of an access whose bytes stand or fall together. -/
def State.checkWhole (s : State) (a : Access) (k : State) : State :=
  match if a.checked && !a.parts.any (fun p => s.isReserved p.pa) then none else s.firstBad a with
  | some (p, v) => (s.refusal a.core.die (s.whoIs a) (needOf a.act) p.va p.pa v).failAccess a v.trap p.va
  | none => k

/-- The check of a returning atomic as its first lane arrives: of all its lanes, none of which performs where one is refused
(12 R339). The lanes that are still on their way fail as they arrive. -/
def State.checkLanes (s : State) (a : Access) (k : State → Access → State) : State :=
  if a.bad.isSome then s.answered a
  else if a.checked && !a.parts.any (fun p => s.isReserved p.pa) then k s a
  else
    let w := s.whoIs a
    let others := s.flight.filter (sameOp a)
    let bads := (byLine ((a :: others).flatMap (·.parts))).filterMap fun g => g.head?.bind fun p =>
      match s.judge w needA p.pa with | .ok => none | v => some (p, v)
    match bads with
    | [] =>
      k (others.foldl (fun s b => s.setAccess { b with checked := true }) s) { a with checked := true }
    | (q, v) :: _ =>
      let s := bads.foldl (fun s x => s.refusal a.core.die w needA x.1.va x.1.pa x.2) s
      (others.foldl (fun s b => s.setAccess (b.spoil v.trap q.va)) s).answered (a.spoil v.trap q.va)

/-- An access performs at its serialisation point. A returning atomic arrives there and waits for its turn. -/
def State.performAt (s : State) (a : Access) : State :=
  match a.act with
  | .load => s.performLoad a
  | .store => s.performStore a
  | .amo .. =>
    s.checkLanes a fun s a =>
      let b := { a with stage := .turn, sent := s.nextId }
      let s : State := { s with nextId := s.nextId + 1 }
      if a.home != a.core.die && s.turnOf b == .go && s.laneFirst b then s.atomLane b else s.setAccess b
  | .red op wide => s.checkWhole a ((a.parts.foldl (fun s p => s.redLane a op wide p) s).performedAccess a)
  | .dec n =>
    s.checkWhole a
      (match a.parts with
      | p :: _ =>
        (match s.failedSector p.pa 8 false with
        | some x => (s.sealRec (s.whoIs a) p.va x).failAccess a .seal p.va
        | none => (s.signalAt a.home (s.whoIs a) p.va p.pa n).performedAccess a)
      | [] => s.performedAccess a)
  | .launch .. | .drop => s

/-! ## The events of a serialisation point -/

/-- Does the event HOME_SLICE_ACCESS have work to do on access `a`? One that a flit brought is here only where its bank was being
switched (04 R96). A held effect on a die that does not answer waits for its release (09 R268), and the lanes of an operation at
one address arrive in their order (12 R340). -/
def State.homeReady (s : State) (a : Access) : Bool :=
  a.stage == .home && !a.parts.any (fun p => s.switching p.pa) && (!isAtomic a.act || s.down a.home || s.laneFirst a) &&
    (match a.act with
    | .launch .. => s.down a.home
    | .dec _ => !a.checked || s.down a.home
    | .drop => false
    | _ => true) && !(a.held && s.down a.home)

/-- HOME_SLICE_ACCESS: an access arrives at its serialisation point on its own die, or is answered for a die in reset:
a load, store or reduction performs; an atomic or SIGNAL is checked. -/
def execHomeSliceAccess (id : Nat) (s : State) : Out :=
  match s.flight.find? (·.id == id) with
  | none => .fault (.notEnabled "HOME_SLICE_ACCESS")
  | some a =>
    if !s.homeReady a then .fault (.notEnabled "HOME_SLICE_ACCESS")
    else if s.down a.home then
      let p := a.parts.headD ⟨0, dieBase a.home, 0, 0, 0, 0⟩
      .next ((s.refusal a.core.die (s.whoIs a) (needOf a.act) p.va p.pa .down).failAccess a .homeDown p.va)
    else if a.held then .next (s.pin a)
    else
      match a.act with
      | .dec _ => .next (s.checkWhole a (s.setAccess { a with checked := true }))
      | .launch .. | .drop => .next (s.performedAccess a)
      | _ => .next (s.performAt a)

/-- ATOMIC_PERFORM: the next lane of a returning atomic performs at its serialisation point. -/
def execAtomicPerform (id : Nat) (s : State) : Out :=
  match s.flight.find? fun a => a.id == id && a.stage == .turn with
  | some a => if s.turnOf a == .go && a.order ≠ 2 && s.laneFirst a then .next (s.atomLane a) else .fault (.notEnabled "ATOMIC_PERFORM")
  | none => .fault (.notEnabled "ATOMIC_PERFORM")

/-- REPLAY_ORDER_RELEASE: under ORDER = REPLAY the turn of a returning atomic has come (12 R359). -/
def execReplayOrderRelease (id : Nat) (s : State) : Out :=
  match s.flight.find? fun a => a.id == id && a.stage == .turn with
  | some a =>
    if s.turnOf a == .go && a.order = 2 && s.laneFirst a then .next (s.atomLane a) else .fault (.notEnabled "REPLAY_ORDER_RELEASE")
  | none => .fault (.notEnabled "REPLAY_ORDER_RELEASE")

/-- Has the predecessor that the replay list wants at the address of `a` not arrived? -/
def State.lacks (s : State) (a : Access) : Bool :=
  match a.parts, a.task with
  | p :: _, some t =>
    (match s.replayRecs a.home a.ctx p.pa ((s.die a.home).arrived p.pa t) with
    | r :: _ => !s.flight.any fun b => b.stage == .turn && (match b.parts with | q :: _ => q.pa == p.pa && recNames b q r | [] => false)
    | [] => true)
  | _, _ => false

/-- DIVERGE: an atomic that no remaining record names, or that has waited too long for its predecessor; its address is
served in arrival order from now on (12 R359). -/
def execDiverge (id : Nat) (s : State) : Out :=
  match s.flight.find? fun a => a.id == id && a.stage == .turn with
  | some a =>
    match s.turnOf a, a.parts, a.task with
    | .go, _, _ => .fault (.notEnabled "DIVERGE")
    | v, p :: _, some t =>
      if v == .wait && (!s.lacks a || (s.die a.home).diverged.any fun x => x.1 == p.pa && x.2 = t) then .fault (.notEnabled "DIVERGE")
      else
        let s := s.orderRec a.home 3 a.ctx p.pa ((s.die a.home).arrived p.pa t) t.seq a.amo (laneNum p) a.gang a.lcore
        .next (s.updDie a.home fun d => { d with diverged := d.diverged ++ [(p.pa, t)] })
    | _, _, _ => .fault (.notEnabled "DIVERGE")
  | none => .fault (.notEnabled "DIVERGE")

/-- COUNTER_DECREMENT: a SIGNAL performs at its counter's home slice. -/
def execCounterDecrement (id : Nat) (s : State) : Out :=
  match s.flight.find? fun a => a.id == id && a.stage == .home && a.checked && !a.held &&
      !a.parts.any (fun p => s.switching p.pa) with
  | some a =>
    match a.act with
    | .dec _ => if s.down a.home then .fault (.notEnabled "COUNTER_DECREMENT") else .next (s.performAt a)
    | _ => .fault (.notEnabled "COUNTER_DECREMENT")
  | none => .fault (.notEnabled "COUNTER_DECREMENT")

/-- LOCAL_CAUSAL_RELEASE: the writes that causally precede a local access have been delivered (12 R349). -/
def execLocalCausalRelease (id : Nat) (s : State) : Out :=
  match s.flight.find? fun a => a.id == id && a.stage == .causal with
  | some a =>
    let d := s.die a.core.die
    let j := d.id.code
    if (List.range 4).all fun k => k == j || winLe (a.clock.getD (4 * k + j) 0) (dlvAt d k) then
      .next (s.setAccess { a with stage := .home })
    else .fault (.notEnabled "LOCAL_CAUSAL_RELEASE")
  | none => .fault (.notEnabled "LOCAL_CAUSAL_RELEASE")

/-! ## Epochs (12 R363, R364, 06 R177, R178) -/

/-- Counts of the strands of a gang: barriers or supersteps taken, and whether each strand's effects have performed. -/
def State.barState (s : State) (t : Task) (g : Gang) (sm : Bool) (l : Nat) : Option (Nat × Bool) :=
  if g.ended.contains l then (if s.strandPerformed t.id g.idx l then none else some (0, false))
  else match s.cores.find? fun c => match c.strand with
      | some st => st.task = t.id && st.gang == g.idx && st.lcore == l
      | none => false with
    | some c =>
      if c.ended then (if s.performed c then none else some (0, false))
      else
        some (if sm then c.ssteps else c.bars, s.performed c)
    | none =>
      match g.counts.find? (·.1 == l) with
      | some x => some (if sm then x.2.ssteps else x.2.bars, x.2.logged.isEmpty && s.strandPerformed t.id g.idx l)
      | none => some (0, true)

/-- The strands of a gang, by logical core. -/
def Task.gangSize (t : Task) : Nat := bitsAt (t.pkt.getD 1 0).toNat 43 5
def Task.isSuper (t : Task) : Bool := bitAt (t.pkt.getD 2 0).toNat 62

/-- The waits of the cores of a gang: the barrier they wait in, if any. -/
def coreBar (c : Core) (sm : Bool) : Option Nat :=
  match c.entryWait with
  | some (.barrier b n) => if b == sm && n ≠ 0 then some n else none
  | _ => none
def clearBar (sm : Bool) (n : Nat) (w : Option Wait) : Option Wait :=
  match w with
  | some (.barrier b m) => if b == sm && m == n then some (.barrier b 0) else w
  | _ => w
def Core.passBar (c : Core) (sm : Bool) (n : Nat) : Core :=
  { c with wait := clearBar sm n c.wait, snap := c.snap.map fun x => { x with wait := clearBar sm n x.wait }, reds := 0 }

/-- EPOCH_CLOSE: every strand of the gang, or of every gang of a superstep task, has taken the barrier and its effects
have performed; the holds of the epoch are applied, each die of the strands knows what the others know (12 R368) and the barrier is
passed. A gang whose strands have all ended closes
its last epoch (12 R358). -/
def execEpochClose (tid : TaskId) (g : Nat) (s : State) : Out :=
  match s.findTask tid with
  | none => .fault (.notEnabled "EPOCH_CLOSE")
  | some t =>
    let mine (sm : Bool) (c : Core) : Option Nat :=
      match c.strand with
      | some st => if st.task = tid && (sm || st.gang == g) && !c.ended then coreBar c sm else none
      | none => none
    let close (sm : Bool) : Option State :=
      match s.cores.findSome? (mine sm) with
      | none => none
      | some n =>
        let gangs := t.gangs.filter fun x => sm || x.idx == g
        let ok := gangs.all fun x => (List.range t.gangSize).all fun l =>
          match s.barState t x sm l with
          | some (m, p) => n ≤ m && (n < m || p)
          | none => true
        if !ok then none
        else
          let s := gangs.foldl (fun s x => s.closeHolds tid x.idx) s
          let ds := (gangs.map (·.die)).eraseDups
          let s := ds.foldl (fun s i => ds.foldl (fun s j => s.tellAll i j) s) s
          let f (c : Core) : Core := if (mine sm c).isSome then c.passBar sm n else c
          let h (x : Nat × Counts) : Nat × Counts :=
            if x.2.wait = some (.barrier sm n) then (x.1, { x.2 with wait := some (.barrier sm 0), reds := 0 }) else x
          some ({ s with core := f s.core, parked := s.parked.map f }.updTask tid fun t =>
            { t with gangs := t.gangs.map fun x : Gang => if sm || x.idx == g then { x with counts := x.counts.map h } else x })
    let isOver (x : Gang) : Bool :=
      x.idx == g && x.state == .done && (s.dies.any fun d => d.holds.any fun h => h.task = tid && h.gang == g) &&
        !s.flight.any (fun a => a.task == some tid && a.gang == g && a.det) &&
        s.cores.all fun c => match c.strand with
          | some st => !(st.task = tid && st.gang == g) || c.trellis.isEmpty
          | none => true
    match close false, close true with
    | some s', _ => .next s'
    | none, some s' => .next s'
    | none, none => if t.gangs.any isOver then .next (s.closeHolds tid g) else .fault (.notEnabled "EPOCH_CLOSE")

end Sys2Proof.Machine
end

