-- ==== Sys2Proof/Machine/Queue.lean ====
section
/-! DEFINITION. The registers of the launch queues and their fault records (03 R63, R68, 14 R405). -/

namespace Sys2Proof.Machine

/-! ## Queues (03 R63, 14 R405). Number `q` of a die: 0 to 63 its own, 64 and above the queues of its twin that it
adopted. -/

def qOff (q : Nat) : Nat := queueOff (q % 64) (64 ≤ q)
def Die.qreg (d : Die) (q o : Nat) : Nat := d.nat (qOff q + o)
def Die.setQreg (d : Die) (q o v : Nat) : Die := d.setReg (qOff q + o) (.ofNat 64 v)
def State.qreg (s : State) (d : DieId) (q o : Nat) : Nat := (s.die d).qreg q o
def State.setQreg (s : State) (d : DieId) (q o v : Nat) : State := s.updDie d (·.setQreg q o v)

/-- QCFG's fields. -/
def cfgEn (c : Nat) : Bool := bitAt c 0
def cfgEdf (c : Nat) : Bool := bitAt c 9
def cfgTrace (c : Nat) : Nat := bitsAt c 10 2
def cfgLog (c : Nat) : Nat := bitsAt c 24 4
def cfgPreempt (c : Nat) : Nat := bitsAt c 32 16
def cfgCtx (c : Nat) : Nat := bitsAt c 48 4

/-- The die whose launch unit holds a task, and the number of its queue there. -/
def homeOf (t : TaskId) : DieId := if t.adopted then t.die.twin else t.die
def qnOf (t : TaskId) : Nat := t.queue + 64 * b2n t.adopted
def taskIdOf (d : DieId) (q gen seq : Nat) : TaskId :=
  { die := if 64 ≤ q then d.twin else d, queue := q % 64, adopted := 64 ≤ q, gen := gen, seq := seq }
/-- Does task `t` belong to queue `q` of die `d`? -/
def ofQueue (d : DieId) (q : Nat) (t : TaskId) : Bool := homeOf t == d && qnOf t == q

/-- The count of a queue's starts, and its next sequence number. -/
def Die.seqOf (d : Die) (q : Nat) : Nat × Nat :=
  match d.qseq.find? (·.1 == q) with | some x => x.2 | none => (0, 0)
def Die.setSeq (d : Die) (q : Nat) (x : Nat × Nat) : Die := { d with qseq := (q, x) :: d.qseq.filter (·.1 != q) }

/-- A rejection in QFAULT (Table 03-1). -/
def State.qfault (s : State) (d : DieId) (q status seq off : Nat) : State :=
  let n := bitsAt (s.qreg d q 0x38) 48 16
  s.setQreg d q 0x38 (satTo 0xFFFF (n + 1) * 2 ^ 48 + seq % 2 ^ 32 * 2 ^ 16 + off % 2 ^ 8 * 2 ^ 8 + status % 2 ^ 8)
/-- A refusal that consumes no sequence number. -/
def State.qrefuse (s : State) (d : DieId) (q status : Nat) : State := s.qfault d q status ((s.die d).seqOf q).2 0

/-- The unretired tasks of a queue. -/
def State.queueLoad (s : State) (d : DieId) (q : Nat) : Nat := (s.tasks.filter fun t => ofQueue d q t.id).length

/-- Does die `d` have queue `q`? The queues of the twin are there once it has been removed. -/
def State.queueThere (s : State) (d : DieId) (q : Nat) : Bool := q < 64 || (q < 128 && (s.die d.twin).removed)

/-- The tasks that `f` takes have ceased to be admissible: their gangs' time without a core starts anew (03 R72). -/
def State.notSince (s : State) (ok : Task → Bool) : State :=
  let reset (g : Gang) : Gang := { g with since := none }
  { s with tasks := s.tasks.map fun t => if ok t then { t with gangs := t.gangs.map reset } else t }

/-- The waiting packets of a queue. -/
def Die.waitingOf (d : Die) (q : Nat) : Nat := (d.launchWait.filter (·.1 == q)).length

/-- The waiting packets of a queue rejected. -/
def State.dropWaiting (s : State) (d : DieId) (q : Nat) : State :=
  let n := (s.die d).waitingOf q
  (List.range n).foldl (fun s _ => s.qrefuse d q 0xC)
    (s.updDie d fun x => { x with launchWait := x.launchWait.filter (·.1 != q) })

end Sys2Proof.Machine
end

