-- ==== Sys2Proof/Machine/Fabric.lean ====
section
/-! DEFINITION. The Trorex fabric between the dies (12 R347 to R353), the replay of the Trellis log (09 R254), and the
events of the shared cache, the DRAM and the banks (14 R410, R412, R413, R431, 04 R95). -/

namespace Sys2Proof.Machine

/-! ## Flits (12 R348 to R352) -/

/-- Entries of the reorder buffer of die `d` that hold flits from `src`. -/
def State.robFrom (s : State) (d src : DieId) : Nat :=
  (s.flight.filter fun a => a.stage == .rob && a.home == d && a.core.die == src).length
def State.robUsed (s : State) (d : DieId) : Nat := (s.flight.filter fun a => a.stage == .rob && a.home == d).length
/-- Is there an entry for a flit from `src`: one of the 128 reserved for it, or one of the 128 that are shared (R350)? -/
def State.robRoom (s : State) (d src : DieId) : Bool :=
  s.robFrom d src < 128 || ((DieId.all.map fun e => s.robFrom d e - 128)).sum < 128

/-- The die whose removal began the present epoch. -/
def State.lostDie (s : State) : Nat := match s.rhoath.lost with | some d => d.code | none => 0

/-- A flit discarded with its record; its task ends with DIE_LOST (R352). -/
def State.discardFlit (s : State) (at' : DieId) (a : Access) : State :=
  let m := (s.whoIs a).code
  let pa := match a.parts with | p :: _ => p.pa | [] => 0
  let s := s.orderRec at' 4 a.ctx pa 0 (taskSeq a) 0 (m / 2 ^ 16) (m / 2 ^ 8) m
  let n := s.reg at' 0xD008
  let s := s.setReg at' 0xD008 (satTo (2 ^ 32 - 1) (bitsAt n 32 32 + 1) * 2 ^ 32)
  let s := s.dropAccess a.id
  match a.task with
  | some t => s.endTask t 6 s.lostDie a.gang
  | none => s

/-- FLIT_RECEIVE: the first flit on the channel of its source reaches its die and takes an entry of the reorder buffer (R350);
one of an old epoch is discarded. The die in the middle of a two-hop route forwards it whatever its state (01 R29, log 93). -/
def execFlitReceive (id : Nat) (s : State) : Out :=
  match s.flight.find? fun a => a.id == id && a.stage == .link with
  | some a =>
    if s.flight.any fun b => b.stage == .link && b.core.die == a.core.die && b.home == a.home && b.sent < a.sent then
      .fault (.notEnabled "FLIT_RECEIVE")
    else if s.down a.home then .next (s.setAccess { a with stage := .home })
    else if a.epoch ≠ (s.die a.home).epoch then .next (s.discardFlit a.home a)
    else if s.robRoom a.home a.core.die then .next (s.setAccess { a with stage := .rob })
    else .fault (.notEnabled "FLIT_RECEIVE")
  | none => .fault (.notEnabled "FLIT_RECEIVE")

/-- TYPE of the header of an access (12 Table 12-5): a LAUNCH is read by the launch unit of its target. -/
def flitType : Act → Nat
  | .store => 0 | .red .. => 1 | .load | .launch .. | .drop => 2 | .amo .. => 3 | .dec _ => 5
/-- The data that an access carries to its home slice, part after part. -/
def carried (a : Access) : List Byte :=
  match a.act with
  | .store | .red .. | .amo .. | .dec _ => (a.parts.map fun p => natBytes p.data p.len).flatten
  | .load | .launch .. | .drop => []
/-- The columns of a matrix of counts for the three dies other than `j` (12 R347, R348). -/
def columns (know : List Nat) (j : DieId) : Nat :=
  let js := (List.range 4).filter (· != j.code)
  ((List.range 3).map fun n =>
    ((List.range 4).map fun k => know.getD (4 * k + js.getD n 0) 0 % 2 ^ 12 * 2 ^ (48 * n + 12 * k)).sum).sum
/-- The knowledge that a header with KNOW to die `j` holds. -/
def knowledge (a : Access) (j : DieId) : Nat := columns a.clock j
/-- What a header flit says (12 Table 12-5): `know` are its knowledge columns, none where KNOW is clear. -/
structure Header where
  epoch : Nat
  type : Nat
  src : DieId
  dst : DieId
  know : Option Nat
  clock : List Nat
  pa : Nat
  ctx : Nat
  os : Nat
  len : Nat
  master : Nat
  tag : Nat
  data : List Byte
  deriving DecidableEq, Repr
/-- The eight words of a header flit (12 Table 12-5). -/
def Header.words (h : Header) : List Nat :=
  let clock := (h.clock.zipIdx.map fun x => x.1 % 2 ^ 12 * 2 ^ (12 * x.2)).sum
  let kn := h.know.getD 0
  let se := seals h.data 8
  [h.epoch % 16 * 2 ^ 60 + h.type * 2 ^ 56 + h.src.code * 2 ^ 53 + h.dst.code * 2 ^ 50 + b2n h.know.isSome * 2 ^ 49 + clock,
   h.pa % 2 ^ 52,
   h.ctx % 16 * 2 ^ 60 + h.os * 2 ^ 55 + (h.len - 1) % 256 * 2 ^ 47 + h.master * 2 ^ 17 + h.tag % 2 ^ 16,
   kn % 2 ^ 64, kn / 2 ^ 64 % 2 ^ 64, kn / 2 ^ 128, se % 2 ^ 64, se / 2 ^ 64]
/-- The header of an access, stamped as it left (R347); its tag is its number (log 98). -/
def State.flitHeader (s : State) (a : Access) : Header :=
  { epoch := a.epoch, type := flitType a.act, src := a.core.die, dst := a.home
    know := if a.know then some (knowledge a a.home) else none
    clock := (List.range 4).map fun k => a.clock.getD (4 * k + a.home.code) 0
    pa := (a.parts.headD ⟨0, 0, 0, 0, 0, 0⟩).pa, ctx := a.ctx, os := a.ord.code * 5 + a.sc.code, len := (a.parts.map (·.len)).sum
    master := (s.whoIs a).code, tag := a.id, data := carried a }
/-- The header of the response to access `a`, with the responder's knowledge and no column (R347). -/
def State.responseHeader (s : State) (a : Access) : Header :=
  let n := a.parts.map (·.len)
  { epoch := (s.die a.home).epoch, type := 4, src := a.home, dst := a.core.die
    know := if a.know then some (knowledge a a.core.die) else none
    clock := [], pa := (a.parts.headD ⟨0, 0, 0, 0, 0, 0⟩).pa, ctx := a.ctx, os := a.ord.code * 5 + a.sc.code, len := n.sum
    master := (s.whoIs a).code, tag := a.id, data := natBytes a.res.toNat n.sum }
/-- The header of a write of an engine of die `i` at `pa` of die `j`, a copy packet, a put or a micro-batch (R347), and that of a
read, as `directWrite` and `directRead` stamp them. -/
def State.engineHeader (s : State) (i j : DieId) (w : Who) (pa : Nat) (len : Nat) (data : Option (List Byte)) : Header :=
  let d := s.die i
  let k := if data.isSome then setKnow d i.code j.code (knowAt d i.code j.code + 1) else d
  { epoch := d.epoch, type := if data.isSome then 0 else 2, src := i, dst := j
    know := if k.news j.code then some (columns k.know j) else none
    clock := column k j.code, pa := pa, ctx := w.ctx, os := 0, len := len, master := w.code, tag := s.nextId, data := data.getD [] }
/-- The header of a CREDIT or, with `resync`, a RESYNC from die `i` to die `j`: it carries the sender's DLV in CLOCK, and nothing
else that the spec names (R351, R352; log 98). -/
def State.vectorHeader (s : State) (resync : Bool) (i j : DieId) : Header :=
  { epoch := (s.die i).epoch, type := if resync then 7 else 6, src := i, dst := j, know := none, clock := (s.die i).dlv
    pa := 0, ctx := 0, os := 0, len := 1, master := 0, tag := 0, data := [] }

/-- CLOCK entry `k` of a flit to die `j`. -/
def clockAt (a : Access) (k : Nat) : Nat := a.clock.getD (4 * k + a.home.code) 0
/-- May the flit be delivered (R349)? -/
def State.deliverable (s : State) (a : Access) : Bool :=
  let d := s.die a.home
  let i := a.core.die.code
  (List.range 4).all fun k =>
    if carriesWrite a.act && k == i then clockAt a k == (dlvAt d k + 1) % 4096 else winLe (clockAt a k) (dlvAt d k)

/-- The counts of the delivering die. -/
def deliverCounts (d : Die) (a : Access) : Die :=
  let i := a.core.die.code
  let j := d.id.code
  let d := if carriesWrite a.act then setKnow (setDlv d i (dlvAt d i + 1)) i j (dlvAt d i + 1) else d
  { d with know := mergeKnow d.know a.clock 4 }

/-- A flit is delivered: its counts are taken, and its access performs at the home slice once its bank answers. -/
def State.deliver (s : State) (a : Access) : State :=
  let s := (s.updDie a.home fun d => deliverCounts d a).setAccess { a with stage := .home }
  if a.parts.any fun p => s.switching p.pa then s else s.performAt { a with stage := .home }

/-- FLIT_DELIVER: what causally precedes the flit has been delivered; its access performs at the home slice. -/
def execFlitDeliver (id : Nat) (s : State) : Out :=
  match s.flight.find? fun a => a.id == id && a.stage == .rob with
  | some a =>
    if !s.deliverable a || a.parts.any (fun p => s.switching p.pa) then .fault (.notEnabled "FLIT_DELIVER")
    else .next (s.deliver a)
  | none => .fault (.notEnabled "FLIT_DELIVER")

/-! ## Credits (12 R351) -/

/-- Does a surviving die know less than die `d` has delivered? -/
def State.creditDue (s : State) (d : DieId) : Bool :=
  let x := s.die d
  x.uncoreUp && !s.credits.any (fun c => c.1 == d) && s.dies.any fun e =>
    e.id != d && e.uncoreUp && (e.seen.getD d.code 0 != dlvAt x e.id.code ||
      (List.range 4).any fun k => knowAt e k d.code != winMax (knowAt e k d.code) (dlvAt x k))

/-- CREDIT_SEND: a die sends its DLV to every other die. -/
def execCreditSend (d : DieId) (s : State) : Out :=
  if s.creditDue d then
    .next { s with credits := s.credits ++ ((s.dies.filter fun e => e.id != d && e.uncoreUp).map fun e => (d, e.id, (s.die d).dlv)) }
  else .fault (.notEnabled "CREDIT_SEND")

/-- CREDIT_RECEIVE: die `d` takes the credit of `src`; writes that it held for want of it go out. -/
def execCreditReceive (d src : DieId) (s : State) : Out :=
  match s.credits.find? fun c => c.1 == src && c.2.1 == d with
  | none => .fault (.notEnabled "CREDIT_RECEIVE")
  | some c =>
    let j := src.code
    let x := s.die d
    let know := (List.range 16).map fun i =>
      if i % 4 = j then winMax (x.know.getD i 0) (c.2.2.getD (i / 4) 0) else x.know.getD i 0
    let x := { x with know := know, seen := x.seen.set j (c.2.2.getD d.code 0) }
    .next (State.pump ({ s with credits := s.credits.erase c }.setDie x))

/-! ## The replay of the log (09 R254, R280, 13 R390) -/

/-- What the replay of entry `t` finds: a trap, or the access's parts. -/
def State.replayCheck (s : State) (ctx : Nat) (t : Trel) : Except TrapName (List Part) :=
  match (s.walkVa ctx t.va).leaf with
  | none => .ok []
  | some l =>
    let ok := match t.act with
      | .store => l.w
      | .launch .. => l.r
      | _ => l.a
    let page := t.va - t.va % pageBytes l.size
    let parts := (t.part :: t.rest).map fun p => { p with pa := l.base + (p.va - page) }
    if parts.any fun p => p.va < page || page + pageBytes l.size < p.va + p.len then .error .handleRange
    else if !ok then .error .pageRights
    else .ok parts

/-- Has every packet of command `cmd` of a core performed: landed, and left the log and the fabric? -/
def State.copyPerformed (s : State) (cmd : Nat) : Bool :=
  let logs (l : List Trel) : Bool := l.any fun t => t.copy == some cmd && t.act == .store
  !(s.cores.any fun c => c.ceRun.any (·.ent.id == cmd) || c.ceq.any (·.id == cmd) || logs c.trellis) &&
    !(s.flight.any fun a => a.copy == some cmd && a.act == .store && a.stage != .reply) &&
    !s.tasks.any fun t => t.gangs.any fun g => g.counts.any fun x => x.2.cmds.any (·.1 == cmd) || logs x.2.logged

/-- The first entry of the log of core `c` that may replay; the signal of a CPYSIG waits for its packets (10 R281). -/
def State.replayNext (s : State) (c : Core) : Option Trel :=
  c.trellis.find? fun t => t.committed && t.ready &&
    match t.copy, t.act with
    | some cmd, .dec _ => s.copyPerformed cmd
    | _, _ => true

/-- An entry that fails its check is dropped, with its trap, or with a record where the strand has ended. -/
def State.replayFails (s : State) (t : Trel) (n : TrapName) : State :=
  let c := s.core
  match c.strand with
  | none => s
  | some st =>
    let s := if c.ended then s.faultRec c.id.die st.ctx 0x09 t.va 0 (trapCode n) (s.coreMaster c.id 0) else s
    s.asyncTrap c.id ⟨n, 0, .ofNat 64 t.va⟩

/-- The access that replays entry `t` of a log, at place `seq` of the strand's order. -/
def State.replayAccess (s : State) (c : Core) (ctx : Nat) (t : Trel) (parts : List Part) : Access :=
  { c.access s.nextId t.act 0 ctx parts with
    ord := t.ord, sc := t.sc, seq := t.seq, inst := t.inst, det := t.det, key := t.key, trel := true, copy := t.copy
    home := match t.act, parts with
      | .launch _ vd, _ => (vdieOf s ctx vd).getD c.id.die
      | _, p :: _ => (paDie p.pa).getD c.id.die
      | _, [] => c.id.die }

/-- TRELLIS_REPLAY: the next committed entry whose page a PFDONE has found is checked and sent as its operation would
have been. -/
def execTrellisReplay (id : CoreId) (s : State) : Out :=
  let s := s.focus id
  match s.replayNext s.core, s.core.strand with
  | some t, some st =>
    let c := s.core
    let rest := c.trellis.erase t
    match s.directReads id.die (s.walkDies st.ctx t.va) with
    | none => .fault (.notEnabled "TRELLIS_REPLAY")
    | some s =>
    match s.replayCheck st.ctx t with
    | .ok [] =>
      .next ((s.onCore fun c =>
        { c with trellis := c.trellis.map fun x => if samePageOf x t then { x with ready := false } else x }).badPteRec
          id.die st.ctx t.va (s.walkVa st.ctx t.va) (s.coreMaster id 0))
    | .error n =>
      let s := (s.onCore fun c => { c with trellis := rest }).replayFails t n
      .next (if s.core.wait = some .trellis then s.unwait else s)
    | .ok parts =>
      let s : State := { s with
        nextId := s.nextId + 1, flight := s.flight ++ [s.replayAccess c st.ctx t parts], core := { c with trellis := rest } }
      .next ((if s.core.wait = some .trellis then s.unwait else s).pump)
  | _, _ => .fault (.notEnabled "TRELLIS_REPLAY")
where
  samePageOf (x t : Trel) : Bool := x.va / 2 ^ 15 == t.va / 2 ^ 15

/-- The replay of a committed entry of a strand that had stopped when its task ended early: it is sent, or dropped with its
record (03 R75, 09 R254; log 95). -/
def loggedReplay (id : Nat) (s : State) : Out :=
  match s.effects.find? fun e => e.id == id && e.committed with
  | some e =>
    (match e.kind with
    | .logged t =>
      let gone : State := { s with effects := s.effects.filter (·.id != id) }
      let waits := match t.copy, t.act with | some cmd, .dec _ => !s.copyPerformed cmd | _, _ => false
      if !t.ready || waits then .fault (.notEnabled "TRELLIS_REPLAY")
      else match s.replayCheck e.ctx t with
        | .ok [] =>
          .next (({ s with effects := s.effects.map fun x =>
            if x.id = id then { x with kind := .logged { t with ready := false } } else x } : State).badPteRec
              e.core.die e.ctx t.va (s.walkVa e.ctx t.va) (s.coreMaster e.core 0))
        | .error n => .next (gone.faultRec e.core.die e.ctx 0x09 t.va 0 (trapCode n) (s.coreMaster e.core 0))
        | .ok parts =>
          let a := { s.replayAccess (s.getCore e.core) e.ctx t parts with task := e.task, gang := e.gang, lcore := e.lcore }
          .next (State.pump { gone with nextId := s.nextId + 1, flight := s.flight ++ [a] })
    | _ => .fault (.notEnabled "TRELLIS_REPLAY"))
  | none => .fault (.notEnabled "TRELLIS_REPLAY")

/-! ## The shared cache, the DRAM and the banks -/

/-- DRAM_WRITEBACK: a dirty line goes to the DRAM, and to its mirror where it is protected (14 R410). -/
def execDramWriteback (d : DieId) (pa : Nat) (s : State) : Out :=
  let x := s.die d
  let l := pa / 64
  if !x.dirty.any (·.1 == l) then .fault (.notEnabled "DRAM_WRITEBACK")
  else
    let s := s.setDie { x with dirty := x.dirty.filter (·.1 != l) }
    match x.mirror (64 * l % 2 ^ 49) with
    | some (b, m) =>
      if (s.die d.twin).removed then .next s
      else .next (s.wrBytes (dieBase d.twin + m + (64 * l % 2 ^ 49 - b)) (s.rdBytes (64 * l) 64))
    | none => .next s

/-- The bank's range. -/
def bankBase (d : DieId) (c b : Nat) : Nat := dieBase d + 0x100000000000 + c * 0x2000000 + b * 0x80000
/-- BANKFIFO of a bank (10 R285). -/
def fifoOff (c b : Nat) : Nat := 0x3100 + c * 0x200 + b * 8
def Die.setMode (d : Die) (c b m : Nat) : Die :=
  let o := 0x3000 + c * 0x10 + b / 32 * 8
  d.setReg o (.ofNat 64 (setBits (d.nat o) (2 * (b % 32)) 2 m))

/-- BANK_SWITCH_COMPLETE: the first switch of a bank is done (04 R95, R96): SCRATCH is entered zeroed, FIFO empty. What a
read finds beyond TAIL is what stood in the bank (log 105). -/
def execBankSwitchComplete (d : DieId) (c b : Nat) (s : State) : Out :=
  match (s.die d).switches.find? fun x => x.1 == c && x.2.1 == b with
  | none => .fault (.notEnabled "BANK_SWITCH_COMPLETE")
  | some x =>
    let mode := x.2.2.1
    let old := (s.die d).bankMode c b
    let s := s.updDie d fun e => { e with switches := e.switches.erase x }
    let s := if old = mode then s else
      let s := s.updDie d fun e => (e.setMode c b mode).setReg (fifoOff c b) 0
      if mode = 1 then { s with mem := memZero s.mem (bankBase d c b) 0x80000 } else s
    .next (s.updCore x.2.2.2.1 fun k =>
      { k with ceRun := k.ceRun.map fun r => if r.ent.id = x.2.2.2.2 then { r with landed := 1 } else r })

/-- The master that reads the line of an uncorrectable error: an access at its home slice, or a started CFLUSH of the
owner context (log 18). -/
def State.readerOf (s : State) (line owner : Nat) : Option (Bool × Who) :=
  match s.flight.find? fun a => a.stage == .home && a.parts.any fun p => p.pa / 64 == line with
  | some a => some (false, s.whoIs a)
  | none =>
    (s.cores.find? fun c => (match c.strand with | some st => st.ctx == owner | none => false) &&
      c.ceRun.any fun r => r.landed == 0 && match r.ent.op with | .cflush .. => true | _ => false).map fun c =>
        (true, { chip := s.rhoath.chip, die := c.id.die.code, kind := 1, unit := c.id.num, ctx := owner })

/-- The owner of a clean line: the context whose miss allocated it, a free one of those that have accessed the line; of a line that only
fetches, walks and the launch unit have read, any (14 R412; log 18). -/
def State.cleanOwner (s : State) (d : DieId) (line : Nat) : Nat :=
  let l := ((s.die d).lines.filter (·.1 == line)).map (·.2)
  if l.isEmpty then Config.choose s.free % 16 else l.getD (Config.choose s.free % l.length) 0

/-- Tasks of context `ctx` on every die end with CTX_TERMINATED, and its queues stop (14 R412). -/
def State.endContext (s : State) (ctx : Nat) : State :=
  let s := (s.tasks.filter (·.ctx == ctx)).foldl (fun s t => s.endTask t.id 9 0 0) s
  DieId.all.foldl (fun s d => (List.range 128).foldl (fun s q =>
    let c := s.qreg d q 0
    if cfgEn c && cfgCtx c == ctx then (s.setQreg d q 0 (c - 1)).dropWaiting d q else s) s) s

/-- RETPAGE entry `n` of a die for page number `p` of it (14 Table 14-5). -/
def Die.setRetPage (x : Die) (n p : Nat) : Die :=
  if n < 64 then x.setReg (0xA800 + 8 * n) (.ofNat 64 (2 ^ 63 + dieBase x.id + p * 0x8000)) else x
/-- Rhoath retires a page of die `d`: in its key store and in the die's RETPAGE (14 R413). -/
def State.retirePage (s : State) (d : DieId) (p : Nat) : State :=
  let n := (s.rhoath.retPages.filter (·.1 == d)).length
  State.updDie { s with rhoath := { s.rhoath with retPages := s.rhoath.retPages ++ [(d, p)] } } d (·.setRetPage n p)
/-- Is the way of the slice out of use (14 R412, 16 R431)? -/
def Die.quarantined (x : Die) (slice way : Nat) : Bool := bitAt (x.nat (0xAA00 + slice * 8)) (way % 16)
/-- The other dirty lines of a slice written back: those of the way that is quarantined, and others, which may be written back at
any time (16 R431, 14 R410). -/
def State.flushSlice (s : State) (d : DieId) (slice line : Nat) : State :=
  (((s.die d).dirty.filter fun x => x.1 != line && homeSlice d (64 * x.1) == slice).map (·.1)).foldl (fun s x =>
    match execDramWriteback d (64 * x) s with | .next t => t | _ => s) s

/-- CACHE_UE: a read of a shared-cache line at its home slice finds an uncorrectable error. -/
def execCacheUe (d : DieId) (pa slice way : Nat) (s : State) : Out :=
  let line := pa / 64
  let x := s.die d
  if x.id ≠ d || s.down d || paDie pa ≠ some d || placeOf pa ≠ .dram || slice ≠ homeSlice d pa ||
      x.quarantined slice way then
    .fault (.notEnabled "CACHE_UE")
  else
    match x.dirty.find? (·.1 == line) with
    | none =>
      let owner := s.cleanOwner d line
      let s := s.draw.2
      let w := match s.readerOf line owner with | some y => y.2.code | none => 0
      .next (s.faultRec d owner 0x12 0 (64 * line) (slice % 256 * 2 ^ 8 + way % 16 * 2 ^ 4 + owner) w)
    | some (_, owner) =>
      let rd := s.readerOf line owner
      let m := match rd with | some y => y.2.code | none => 0
      let page := line / 512 * 0x8000
      let s := s.endContext owner
      let s := s.retirePage d (page % 2 ^ 49 / 0x8000)
      let s := s.faultRec d owner 0x13 0 page 0 m
      let q := 0xAA00 + slice * 8
      let s := (s.flushSlice d slice line).updDie d fun e =>
        { e.setReg q (e.reg q ||| .ofNat 64 (2 ^ (way % 16))) with dirty := e.dirty.filter (·.1 != line), lines := e.lines.filter (·.1 != line) }
      let s := s.faultRec d owner 0x12 0 (64 * line) (2 ^ 16 + slice % 256 * 2 ^ 8 + way % 16 * 2 ^ 4 + owner) m
      .next (match rd with
        | some (true, w) => s.faultRec d owner 0x05 0 (64 * line) 0 w.code
        | _ => s)

end Sys2Proof.Machine
end

