-- ==== Sys2Proof/Machine/Copy.lean ====
section
/-! DEFINITION. The copy engine: descriptors, packets, statuses, peer puts, ping-pong channels, and the commands
without packets (10 R270 to R289, R297, R301 to R303). -/

namespace Sys2Proof.Machine

/-! ## Statuses (10 Table 10-2) -/

def stOk : Nat := 0
def stField : Nat := 1
def stBadPa : Nat := 2
def stGrant : Nat := 3
def stHomeDown : Nat := 4
def stBusy : Nat := 5
def stRights : Nat := 6
def stCanon : Nat := 7
def stSeal : Nat := 8
def stNoUnit : Nat := 9
def stEmpty : Nat := 0xA
def stScratch : Nat := 0xB

def verdictStatus : Verdict → Nat
  | .ok => stOk | .badPa => stBadPa | .grant => stGrant | .down => stHomeDown

/-- The opcode of a command (10 Table 10-1). -/
def ceOpcode : Instr → Nat
  | .cpy .. => 0 | .cpysig .. => 1 | .cpeer .. => 2 | .bankcfg .. => 3 | .strmbind .. => 4 | .strmrel .. => 5
  | .pgload .. => 6 | .pgrun .. => 7 | .pgstop .. => 8 | .psend .. => 9 | .pgrant .. => 0xA | .cflush .. => 0xB
  | _ => 0xC

/-! ## The check of a descriptor (10 R275, R276) -/

/-- The first offset of a list of checks in ascending byte order. -/
def firstOffset (l : List (Nat × Bool)) : Option Nat := (l.find? (·.2)).map (·.1)

/-- The checks of a descriptor of command `op` with bases SRC' and DST', in ascending byte order. -/
def descChecks (op : Instr) (d : VWord) (src dst : Nat) : List (Nat × Bool) :=
  let sig := match op with | .cpysig .. => true | _ => false
  let peer := match op with | .cpeer .. => true | _ => false
  let send := match op with | .psend .. => true | _ => false
  let f (n lo w : Nat) : Nat := bitsAt (descD d n) lo w
  let swS := descSrcSpace d == 2
  let swD := descDstSpace d == 2
  let dims := descDims d
  let used (i : Nat) : Bool := i < dims
  let cnt (i : Nat) : Nat × Bool :=
    (if i ≤ 4 then 32 + 2 * (i - 1) else 40 + 2 * (i - 5), if used i then descN d i == 0 else descN d i != 0)
  let strides := (List.range 6).flatMap fun k =>
    let i := k + 1
    let s := descD d (4 + 2 * i)
    let t := descD d (5 + 2 * i)
    [(8 * (4 + 2 * i), (!used i && s != 0) || (swS && s % 8 != 0)),
     (8 * (5 + 2 * i), (!used i && t != 0) || (swD && t % 8 != 0) || (send && t != 0))]
  [(0, swS && src % 8 != 0), (8, (swD && dst % 8 != 0) || (send && descD d 1 != 0)),
   (16, descSrcSpace d > 3 || (peer && descSrcSpace d == 3) || f 2 3 1 != 0 || descDstSpace d ≥ 3 ||
     (peer && descDstSpace d != 0) || f 2 7 1 != 0),
   (17, descCnt d == 3 || (descCnt d == 1 && 2 ^ 32 ≤ descTotal d) || dims == 0 || f 2 13 51 != 0),
   (24, descN0 d == 0 || ((swS || swD) && descN0 d % 8 != 0) || (send && 524288 < descTotal d)),
   (27, f 3 24 40 != 0), cnt 1, cnt 2, cnt 3, cnt 4, cnt 5, cnt 6, (44, f 5 32 32 != 0)] ++ strides ++
  [(144, if sig then f 18 0 3 != 0 else f 18 0 56 != 0), (151, f 18 56 8 != 0),
   (152, if sig then f 19 0 14 == 0 else f 19 0 14 != 0), (153, f 19 14 50 != 0),
   (160, if peer then (f 20 6 1 == 1 && f 20 0 6 != 0) || f 20 7 1 != 0 else f 20 0 8 != 0), (161, !peer && f 20 8 8 != 0),
   (162, if peer then 24 ≤ f 20 16 5 || f 20 21 3 != 0 else f 20 16 8 != 0),
   (163, if peer then f 20 28 36 != 0 else f 20 24 40 != 0),
   (168, if send then f 21 4 4 != 0 else f 21 0 8 != 0), (169, if send then f 21 10 54 != 0 else f 21 8 56 != 0)] ++
  (List.range 10).map fun i => (176 + 8 * i, descD d (22 + i) != 0)

/-! ## Packets (10 R277) -/

/-- A run cut into packets. `fuel` is at least the bytes left. -/
def cutRun : Nat → Nat → Nat → Nat → Nat → List Pkt
  | 0, _, _, _, _ => []
  | fuel + 1, s, t, n, off =>
    if n = 0 then []
    else
      let len := min n (min (256 - t % 256) (min (0x8000 - s % 0x8000) (0x8000 - t % 0x8000)))
      ⟨s, t, len, off, []⟩ :: cutRun fuel (s + len) (t + len) (n - len) (off + len)

/-- The packets of a command in visiting order. -/
def packets (d : VWord) (src dst : Nat) : List Pkt :=
  (List.range (descRuns d)).flatMap fun r =>
    let a := runAt d src dst r
    cutRun (descN0 d) a.1 a.2 (descN0 d) (r * descN0 d)

/-! ## Sources and destinations (10 R278, R279, 01 R32, 09 R260) -/

def State.engineWho (s : State) (c : CoreId) (ctx : Nat) : Who :=
  { chip := s.rhoath.chip, die := c.die.code, kind := 1, unit := c.num, ctx := ctx }

/-- Is `pa` in the near scratchpad or accumulator memory of core `c`, which its own engine reaches? -/
def ownPrivate (c : CoreId) (pa : Nat) : Bool :=
  match paDie pa, placeOf pa with
  | some d, .nsp n _ | some d, .acc n _ => d == c.die && n == c.num
  | _, _ => false

/-- The lines of [pa, pa + n), the first at `pa`, that `f` refuses. -/
def refusedLines (f : Nat → Verdict) (pa n : Nat) : List (Verdict × Nat) :=
  ((List.range ((pa % 64 + n + 63) / 64)).map fun i => if i = 0 then pa else pa - pa % 64 + 64 * i).filterMap fun l =>
    match f l with | .ok => none | v => some (v, l)
/-- The check of a copy-engine access of `n` bytes at `pa`, line by line: the lines refused. -/
def State.engineJudge (s : State) (c : CoreId) (ctx : Nat) (need : Need) (pa n : Nat) : List (Verdict × Nat) :=
  if ownPrivate c pa then [] else refusedLines (s.judge (s.engineWho c ctx) need) pa n
/-- The records of refused lines of a copy-engine access (04 R99); the first gives the command's status. -/
def State.refuseLines (s : State) (c : CoreId) (ctx : Nat) (need : Need) (va : Nat) (l : List (Verdict × Nat)) : State :=
  l.foldl (fun s x => s.refusal c.die (s.engineWho c ctx) need va x.2 x.1) s

/-- What a source read or a destination write meets: data or a place, an absent page, a bank that is being switched (04 R96), a
failure that is found as the
packet is sent, or one found at the memory. -/
inductive Reach (α : Type) where
  | got (x : α)
  | absent (va : Nat)
  | wait
  | early (status : Nat)
  | late (status : Nat) (s : State)

/-- The physical address of `va` for a command of core `c` that needs right `r` of the leaf. -/
def State.mapVa (s : State) (c : CoreId) (ctx va : Nat) (r : Leaf → Bool) : Reach Nat :=
  if !isCanon va then .early stCanon
  else match (s.lookup c ctx va).leaf with
    | none => .absent va
    | some l => if r l then .got (l.base + va % pageBytes l.size) else .early stRights
/-- Its place, where the fabric takes the access (14 R409, R411). -/
def State.reachVa (s : State) (c : CoreId) (ctx va : Nat) (r : Leaf → Bool) : Reach Nat :=
  match s.mapVa c ctx va r with
  | .got pa => .got (s.route pa)
  | x => x
/-- The records of an absent page: of an entry that the walk rejects, and of the absence (09 R243, R253, R254). -/
def State.absentRec (s : State) (c : CoreId) (ctx va kind detail : Nat) : State :=
  let m := s.coreMaster c 1
  (s.badPteRec c.die ctx va (s.walkVa ctx va) m).faultRec c.die ctx kind va 0 detail m

/-- `n` bytes that the engine of core `c` reads from virtual address `va`, within one 32 KiB page; a failed seal goes with them
through a peer port (`exit`, 14 R416). -/
def State.readVa (s : State) (c : CoreId) (ctx va n : Nat) (exit : Bool := false) : Reach (List Byte) :=
  match s.reachVa c ctx va (·.r) with
  | .absent va => .absent va
  | .wait => .wait
  | .early x => .early x
  | .late x t => .late x t
  | .got pa =>
    let w := s.engineWho c ctx
    if s.switching pa then .wait
    else match s.engineJudge c ctx needR pa n with
    | [] =>
      (match if exit then none else s.failedSector pa n false with
      | some x => .late stSeal (s.sealRec w va x)
      | none => .got (s.rdBytes pa n))
    | (v, l) :: r => .late (verdictStatus v) (s.refuseLines c ctx needR va ((v, l) :: r))

/-- The bytes [a, a + n) of the swizzled view, granule by granule: linear offset, place in the run, bytes (09 R258). -/
def swzRuns (a n : Nat) : List (Nat × Nat × Nat) :=
  (List.range ((a + n + 7) / 8 - a / 8)).map fun i =>
    let g := 8 * (a / 8 + i)
    let lo := max a g
    (swizzle g + (lo - g), lo - a, min (a + n) (g + 8) - lo)

/-- The source bytes of a packet. -/
def State.readSrc (s : State) (c : CoreId) (ctx space a n : Nat) (exit : Bool) : Reach (List Byte) :=
  if space = 0 then s.readVa c ctx a n exit
  else if space = 3 then
    match paDie a, placeOf a with
    | some d, .bank cl b _ =>
      if s.down d then .late stHomeDown (s.refusal c.die (s.engineWho c ctx) needR 0 a .down)
      else if s.switching a then .wait
      else if (s.die d).bankMode cl b ≠ 2 || (a + n - 1) / 0x80000 ≠ a / 0x80000 then
        .late stBadPa (s.refusal c.die (s.engineWho c ctx) needR 0 a .badPa)
      else
        (match refusedLines (fun l => if (s.die d).permits 0 (s.engineWho c ctx) needR l then .ok else .grant) a n with
        | [] => .got (s.rdBytes a n)
        | l => .late stGrant (s.refuseLines c ctx needR 0 l))
    | _, _ => .late stBadPa (s.refusal c.die (s.engineWho c ctx) needR 0 a .badPa)
  else if nspSize c < a + n then .early stScratch
  else if space = 1 then .got (s.nspRead c false a n)
  else .got ((swzRuns a n).flatMap fun x => s.nspRead c true x.1 x.2.2)

/-- The lines that a packet's source names are read through the shared cache (14 R412). -/
def State.srcSeen (s : State) (c : CoreId) (ctx space a n : Nat) : State :=
  if space ≠ 0 then s else match s.reachVa c ctx a (·.r) with | .got pa => s.touch ctx pa n | _ => s
/-- The read of a packet's source meets an armed injection of target 4 (13 R389). -/
def State.injSrc (s : State) (c : CoreId) (ctx space a n : Nat) : State :=
  if space = 0 then
    match s.reachVa c ctx a (·.r) with
    | .got pa => (match placeOf pa with | .nsp _ off => if ownPrivate c pa then s.injNsp c off n else s | _ => s)
    | _ => s
  else if space = 1 then s.injNsp c a n
  else if space = 2 then (swzRuns a n).foldl (fun s x => s.injNsp c x.1 x.2.2) s
  else s

/-- Bytes written to the near scratchpad of core `c` in a view. -/
def State.writeNsp (s : State) (c : CoreId) (swz : Bool) (a : Nat) (l : List Byte) : State :=
  if swz then (swzRuns a l.length).foldl (fun s x => s.nspWrite c true x.1 ((l.drop x.2.1).take x.2.2)) s
  else s.nspWrite c false a l

/-! ## Counting and ending (10 R271 to R273, 06 R162, R176) -/

def QEntry.ctx (c : Core) : Nat := match c.strand with | some st => st.ctx | none => 0
def setRun (c : Core) (r : CeRun) : Core := { c with ceRun := c.ceRun.map fun x => if x.ent.id = r.ent.id then r else x }
/-- The counter of a command that counts. -/
def isSub (n : Nat) (x : BitVec 32) : BitVec 32 := x - .ofNat 32 n
def Core.countDown (c : Core) (e : QEntry) (n : Nat) : Core := c.engineK e.k (isSub n) (some e.inst)

/-- The command record of 10 R273. -/
def ceRecord (r : CeRun) : Word :=
  .ofNat 64 (r.status * 2 ^ 24 + r.ent.tok.pt.toNat * 2 ^ 18 + ceOpcode r.ent.op * 2 ^ 12 +
    (if r.status = stField then r.detail % 2 ^ 12 else 0))

def hasDesc : Instr → Bool
  | .cpy .. | .cpysig .. | .cpeer .. | .psend .. => true
  | _ => false
def isPsend : Instr → Bool | .psend .. => true | _ => false
def isCpeer : Instr → Bool | .cpeer .. => true | _ => false
def isCpysig : Instr → Bool | .cpysig .. => true | _ => false

/-! ## Peer puts (10 R283, R284, 02 R53) -/

/-- The target core of a put, resident with a task that carries a GRANT section. -/
def State.putTarget (s : State) (p : PeerPut) : Option Core :=
  s.cores.find? fun c => match c.strand with
    | some st => st.ctx == p.ctx && st.gang == p.tgang && st.lcore == p.tcore && st.hasGrant && !c.ended
    | none => false

/-- Does a grant entry accept the packet, and may it raise a flag? -/
def grantMatches (p : PeerPut) (g : Word × Word) : Bool :=
  let q := g.1.toNat
  (bitAt q 6 || bitsAt q 0 6 == p.chip) &&
    (bitAt q 7 || (bitsAt q 8 8 == p.sgang && bitsAt q 16 5 == p.score)) &&
    bitsAt g.2.toNat 0 22 ≤ p.off && p.off + p.data.length ≤ bitsAt g.2.toNat 32 22 + 1
def putAccepted (c : Core) (p : PeerPut) : Bool :=
  match c.strand with
  | some st => st.grants.any fun g => grantMatches p g && (p.flag.isNone || bitAt g.1.toNat 32)
  | none => false

/-- A refused put in VIOLOG of the target's die, with the context of the command, or 0 for one that came through a peer port
(04 R100). The spec leaves open which die and address it names where there is no target, and the master of a put from another
chip: here the die of the put with address 0, and die 0, kind 1, unit 0 (log 36). -/
def State.putRefused (s : State) (p : PeerPut) : State :=
  let w : Who := { chip := p.chip, die := match p.sender with | some x => x.1.die.code | none => 0, kind := 1
                   unit := match p.sender with | some x => x.1.num | none => 0
                   ctx := if p.sender.isSome then p.ctx else 0 }
  match s.putTarget p with
  | some c => s.violog c.id.die w needW (nspBase c.id + p.off)
  | none => s.violog p.die w needW 0

/-- The put of a packet of a CPEER, `last` where no other packet of it is left to land. -/
def State.putOf (s : State) (c : Core) (st : Strand) (r : CeRun) (p : Pkt) (data : List Byte) (last : Bool) : PeerPut :=
  let d20 := descD r.ent.desc 20
  { die := c.id.die, ctx := st.ctx, chip := s.rhoath.chip, sgang := st.gang, score := st.lcore
    tgang := bitsAt d20 8 8, tcore := bitsAt d20 16 5, off := p.dst, data := data, bad := p.bad
    flag := if last && bitAt d20 27 then some (bitsAt d20 24 3) else none, sender := some (c.id, r.ent.id) }
/-- Does the command's target lie on another chip? -/
def State.remotePeer (s : State) (d : VWord) : Bool := !bitAt (descD d 20) 6 && bitsAt (descD d 20) 0 6 != s.rhoath.chip

/-- A put is refused: its sender takes GRANT with the command's record, and no further put of the command is sent (10 R273,
R283). -/
def State.putEnds (s : State) (e : Effect) : State :=
  match e.kind with
  | .put p _ tok =>
    let mine (x : Effect) : Bool := match x.kind with | .put q _ _ => q.sender = p.sender && x.inst == e.inst | _ => false
    let s : State := { s with effects := s.effects.filter fun x => !mine x }
    let r : TrapReq := ⟨.grant, .ofNat 64 (stGrant * 2 ^ 24 + tok * 2 ^ 18 + 2 * 2 ^ 12), 0⟩
    (match e.task with | some t => s.strandTrap t e.gang e.lcore r | none => s).pump
  | _ => s

/-- PEER_PUT_RECEIVE: a packet of a CPEER is checked at its target and written (10 R283, R284). One of this chip is
received once its region has committed and what causally precedes it has been delivered, the packet that raises the flag
last. Sectors that have come with a failed seal are dropped, each with its record, and no flag is raised (14 R415, R416). -/
def execPeerPutReceive (p : PeerPut) (s : State) : Out :=
  let mine (e : Effect) : Bool := match e.kind with | .put q false _ => e.committed && q = p | _ => false
  let others (e : Effect) : Bool := match e.kind with | .put q _ _ => q ≠ p && q.sender = p.sender | _ => false
  if p.sender.isSome && !(s.effects.any mine && !(p.flag.isSome && s.effects.any others)) then
    .fault (.notEnabled "PEER_PUT_RECEIVE")
  else
    let e := s.effects.find? mine
    let stop (s : State) : Out := .next (match e with | some x => (s.putRefused p).putEnds x | none => s.putRefused p)
    let s1 : State := { s with effects := match e with | some x => s.effects.erase x | none => s.effects }
    match s.putTarget p with
    | none => stop s1
    | some t =>
      if !putAccepted t p || nspSize t.id < p.off + p.data.length then stop s1
      else
        match if p.sender.isSome then s1.directWrite (match e with | some x => x.core.die | none => t.id.die) t.id.die
            else some s1 with
        | none => .fault (.notEnabled "PEER_PUT_RECEIVE")
        | some s =>
          let a := nspBase t.id + p.off
          let s := p.bad.foldl (fun s x => s.sealRec ⟨p.chip, 0, 1, 0, p.ctx⟩ 0 ((a + x.1) / 32)) s
          let old := s.rdBytes a p.data.length
          let s := (s.noteDuring t.id (granules p.off p.data.length)).nspWrite t.id false p.off (p.data.zipIdx.map fun x =>
            if p.bad.any fun r => r.1 ≤ x.2 && x.2 < r.2 then old.getD x.2 0 else x.1)
          let s := match if p.bad.isEmpty then p.flag else none with
            | some n => s.updCore t.id fun c =>
              let new := !c.rx.getLsbD n
              let c := { c with rx := c.rx ||| BitVec.ofNat 8 (2 ^ n) }
              if new then c.wake else c
            | none => s
          .next s.pump

/-- PEER_ACK: another chip acknowledges a committed put, or has refused it, which is its own affair (12 R344, 10 R283; log 36). -/
def execPeerAck (id : Nat) (s : State) : Out :=
  match s.effects.find? fun e => e.id == id && e.committed && (match e.kind with | .put _ r _ => r | _ => false) with
  | some e =>
    let k := s.draw
    if Config.choose k.1 % 2 = 1 then .next (k.2.putEnds e)
    else .next (State.pump { k.2 with effects := s.effects.filter (·.id != id) })
  | none => .fault (.notEnabled "PEER_ACK")

/-! ## Landing a packet (10 R272, R274, R279, R280) -/

/-- The Trellis entry of a packet to an absent page, or to a page that the log already holds (09 R254). -/
def copyTrel (c : Core) (r : CeRun) (va : Nat) (data : List Byte) : Trel :=
  { va := va, act := .store, ord := .rlx, sc := .gang
    part := { va := va, pa := 0, len := data.length, pos := 0, data := bytesNat data, cmp := 0 }
    rest := [], copy := some r.ent.id, committed := r.ent.inst != c.inst.id, inst := r.ent.inst, seq := r.ent.seq, det := false
    key := (0, 0, 0), ready := c.trellis.any fun x => x.ready && x.va / 2 ^ 15 == va / 2 ^ 15 }

/-- Where a packet's bytes go. -/
inductive Landed where
  | done (s : State)
  | hold
  | early (status : Nat)
  | late (status : Nat) (s : State)

/-- The granules of the near scratchpad of core `c` that a copy is about to replace, with what they hold (11 R318). -/
def State.noteGranules (s : State) (c : CoreId) (tok : BitVec 6) (gs : List Nat) : State :=
  s.updCore c fun k => { k with old := k.old ++ gs.map fun g => (g, s.rd (nspBase c + 8 * g) 8, tok) }

/-- A copy write of a packet at `pa` by the command `r` of core `c`, whose line check has passed: at once in the core's near
scratchpad and the SCRATCH banks of its cluster, otherwise pinned until COMMIT. -/
def State.landPa (s : State) (c : Core) (st : Strand) (r : CeRun) (va pa : Nat) (data : List Byte) : Landed :=
  if s.writesNow c.id pa then
    match placeOf pa with
    | .nsp _ off =>
      .done ((s.noteGranules c.id r.ent.tok.pt (granules off data.length)).nspWrite c.id false off data)
    | _ =>
      match s.failedSector pa data.length true with
      | some x => .late stSeal (s.sealRec (s.engineWho c.id st.ctx) va x)
      | none =>
        match s.directWrite c.id.die c.id.die with
        | some s => .done (s.storeBytes st.ctx pa data)
        | none => .hold
  else
    let part : Part := { va := va, pa := pa, len := data.length, pos := 0, data := bytesNat data, cmp := 0 }
    let held := r.ent.inst == c.inst.id
    let a := { c.access s.nextId .store 0 st.ctx (cutPart 8 part) with
      held := held, checked := true, inst := r.ent.inst, seq := r.ent.seq, copy := some r.ent.id, stage := if held then .pinned else .away }
    .done (State.pump { s with nextId := s.nextId + 1, flight := s.flight ++ [a] })

/-- The write of packet `p` with its data, `last` where no other packet of the command is left. -/
def State.writeDst (s : State) (c : Core) (st : Strand) (r : CeRun) (p : Pkt) (data : List Byte) (last : Bool) : Landed :=
  let op := r.ent.op
  let space := descDstSpace r.ent.desc
  if isPsend op then .done s
  else if isCpeer op then
    let put := s.putOf c st r p data last
    let remote := s.remotePeer r.ent.desc
    let size := if remote then 0x400000 else match s.putTarget put with | some t => nspSize t.id | none => 0x400000
    if size < p.dst + data.length then .early stScratch
    else if !remote && !(match s.putTarget put with | some t => putAccepted t put | none => false) then
      .late stGrant (s.putRefused put)
    else
      .done { s with
        nextId := s.nextId + 1
        effects := s.effects ++ [{ id := s.nextId, core := c.id, task := some st.task, gang := st.gang, lcore := st.lcore
                                   ctx := st.ctx, inst := r.ent.inst, committed := r.ent.inst != c.inst.id, acked := false
                                   kind := .put put remote r.ent.tok.pt.toNat }] }
  else if space ≠ 0 then
    if nspSize c.id < p.dst + data.length then .early stScratch
    else
      let gs := if space == 2 then (swzRuns p.dst data.length).map (·.1 / 8) else granules p.dst data.length
      .done ((s.noteGranules c.id r.ent.tok.pt gs).writeNsp c.id (space == 2) p.dst data)
  else
    let logged := c.trellis.any fun t => t.parts.any fun q => q.va / 2 ^ 15 == p.dst / 2 ^ 15
    let log (s : State) : Landed :=
      if 256 ≤ c.trellis.length then .hold
      else .done (s.updCore c.id fun c => { c with trellis := c.trellis ++ [copyTrel c r p.dst data] })
    match s.reachVa c.id st.ctx p.dst (·.w) with
    | .early x => .early x
    | .late x t => .late x t
    | .wait => .hold
    | .absent _ =>
      log (if logged then s.badPteRec c.id.die st.ctx p.dst (s.walkVa st.ctx p.dst) (s.coreMaster c.id 1)
        else s.absentRec c.id st.ctx p.dst 0x02 (c.trellis.length + 1))
    | .got pa =>
      if logged then log s
      else if s.switching pa then .hold
      else
        match s.engineJudge c.id st.ctx needW pa data.length with
        | [] => s.landPa c st r p.dst pa data
        | (v, l) :: r => .late (verdictStatus v) (s.refuseLines c.id st.ctx needW p.dst ((v, l) :: r))

/-- What hinders packet `p` as it is sent, before anything is read: its destination's address, or a full log (10 R278,
R280). -/
def State.dstBars (s : State) (c : Core) (st : Strand) (r : CeRun) (p : Pkt) : Reach Unit :=
  if isPsend r.ent.op || isCpeer r.ent.op then .got ()
  else if descDstSpace r.ent.desc ≠ 0 then (if p.dst + p.len ≤ nspSize c.id then .got () else .early stScratch)
  else match s.reachVa c.id st.ctx p.dst (·.w) with
    | .early x => .early x
    | .absent _ => if c.trellis.length < 256 then .got () else .wait
    | _ => .got ()

/-- The causal order that a packet's read and its walk keep (12 R349): none while they must wait. -/
def State.srcCausal (s : State) (c : CoreId) (ctx space a : Nat) : Option State :=
  let walked := if space = 0 then s.lookupDies c ctx a else []
  let pa : Option Nat :=
    if space = 3 then some a
    else if space = 0 then (match s.reachVa c ctx a (·.r) with | .got pa => if ownPrivate c pa then none else some pa | _ => none)
    else none
  s.directReads c.die (walked ++ (pa.bind paDie).toList)

/-- A command ended with a status: no further packet is sent, and those that have been sent still land. -/
def endRun (r : CeRun) (status detail : Nat) : CeRun := { r with status := status, detail := detail, pkts := [] }

/-- Does a packet of the command leave through a peer port, with what seals its source has (14 R416)? -/
def State.exits (s : State) (r : CeRun) : Bool := isCpeer r.ent.op && s.remotePeer r.ent.desc && descSrcSpace r.ent.desc = 0
/-- The sectors of a packet's source whose seals fail as it leaves, with the bytes of the packet that they hold. -/
def State.exitSectors (s : State) (c : CoreId) (ctx : Nat) (r : CeRun) (p : Pkt) : List (Nat × Nat × Nat) :=
  if s.exits r then
    match s.reachVa c ctx p.src (·.r) with
    | .got pa => (s.failedSectors pa p.len).map fun x => (x, max (32 * x) pa - pa, min (32 * x + 32) (pa + p.len) - pa)
    | _ => []
  else []

/-- The next packet of a started command is sent with the bytes of its source (10 R277, R279, R280): in their order, until one
fails, or holds the command for its absent page. -/
def packetSend (id : CoreId) (cmd : Nat) (s : State) : Out :=
  let s := s.focus id
  let c := s.core
  match c.ceRun.find? (·.ent.id == cmd), c.strand with
  | some r, some st =>
    match r.pkts with
    | [] => .fault (.notEnabled "PACKET_LAND")
    | p :: rest =>
      let space := descSrcSpace r.ent.desc
      if r.status ≠ 0 || r.hold.isSome || c.stopping.isSome then .fault (.notEnabled "PACKET_LAND")
      else
        match s.srcCausal id st.ctx space p.src with
        | none => .fault (.notEnabled "PACKET_LAND")
        | some s =>
          let s := if space = 1 || space = 2 then s.nspSeen id else s
          match s.readSrc id st.ctx space p.src p.len (s.exits r), s.dstBars c st r p with
          | .wait, _ => .fault (.notEnabled "PACKET_LAND")
          | .absent va, _ =>
            .next ((s.absentRec id st.ctx va 0x01 st.lcore).onCore fun c => setRun c { r with hold := some va })
          | .early x, _ => .next (s.onCore fun c => setRun c (endRun r x 0))
          | .late x s, _ => .next (s.onCore fun c => setRun c (endRun r x 0))
          | .got _, .early x => .next (s.onCore fun c => setRun c (endRun r x 0))
          | .got l, .got _ =>
            let exits := s.exitSectors id st.ctx r p
            let s := exits.foldl (fun s x => s.exitRec id.die (s.engineWho id st.ctx) x.1) s
            .next (((s.srcSeen id st.ctx space p.src p.len).injSrc id st.ctx space p.src p.len).onCore fun c => setRun c { r with
              pkts := rest, air := r.air ++ [({ p with bad := exits.map (·.2) }, l)] })
          | .got _, _ => .fault (.notEnabled "PACKET_LAND")
  | _, _ => .fault (.notEnabled "PACKET_LAND")

/-- PACKET_LAND: packet `i` of those that a command has sent lands; they land in any order, but those of a PSEND, which are
packed. -/
def execPacketLand (id : CoreId) (cmd i : Nat) (s : State) : Out :=
  let s := s.focus id
  let c := s.core
  match c.ceRun.find? (·.ent.id == cmd), c.strand with
  | some r, some st =>
    match r.air[i]? with
    | none => .fault (.notEnabled "PACKET_LAND")
    | some (p, l) =>
      let gone : CeRun := { r with air := r.air.eraseIdx i }
      if isPsend r.ent.op && i ≠ 0 then .fault (.notEnabled "PACKET_LAND")
      else
        match s.writeDst c st r p l (r.air.length = 1 && r.pkts.isEmpty && r.status == 0) with
        | .hold => .fault (.notEnabled "PACKET_LAND")
        | .early x => .next (s.onCore fun c => setRun c (if r.status = 0 then endRun gone x 0 else gone))
        | .late x s => .next (s.onCore fun c => setRun c (if r.status = 0 then endRun gone x 0 else gone))
        | .done s =>
          .next (s.onCore fun c =>
            let c := setRun c { gone with
              landed := r.landed + p.len, data := if isPsend r.ent.op then r.data ++ l else r.data }
            if descCnt r.ent.desc = 1 && !isPsend r.ent.op then c.countDown r.ent p.len else c)
  | _, _ => .fault (.notEnabled "PACKET_LAND")

/-! ## Starting a command (10 R271, R276, R286, R289, R297, R302, R303) -/

/-- The started command, before anything has happened. -/
def State.newRun (s : State) (e : QEntry) : CeRun :=
  { ent := e, src := e.a.toNat, dst := e.b.toNat, pkts := [], air := [], data := [], landed := 0, status := 0, detail := 0
    isLocal := s.entryLocal e, hold := none }
def failRun (r : CeRun) (status detail : Nat) : CeRun := { r with status := status, detail := detail }
def doneRun (r : CeRun) : CeRun := { r with landed := 1 }

/-- Does the signal of command `cmd` already stand, from its start before a stop of its strand? -/
def State.signalled (s : State) (c : Core) (cmd : Nat) : Bool :=
  (s.effects.any fun x => match x.kind with | .signal _ _ _ n _ => n == cmd | _ => false) ||
    c.trellis.any fun t => t.copy == some cmd && match t.act with | .dec _ => true | _ => false

/-- The signal of a CPYSIG as its command starts: an effect with the place of its counter, or an entry of the log where its page is absent; none where
the leaf lacks right A (10 R281). A command that is issued again after a stop keeps the signal that it has. -/
def State.startSignal (s : State) (c : Core) (st : Strand) (e : QEntry) : Except Nat State :=
  let va := canonVa (bitsAt (descD e.desc 18) 0 56)
  let dec := bitsAt (descD e.desc 19) 0 14
  if s.signalled c e.id then .ok s
  else match s.mapVa c.id st.ctx va (·.a) with
  | .wait => .error 256
  | .got pa =>
    .ok { s with
      nextId := s.nextId + 1
      effects := s.effects ++ [{ id := s.nextId, core := c.id, task := some st.task, gang := st.gang, lcore := st.lcore
                                 ctx := st.ctx, inst := e.inst, committed := e.inst != c.inst.id, acked := false
                                 kind := .signal va pa dec e.id e.seq }] }
  | .absent _ =>
    if 256 ≤ c.trellis.length then .error 256
    else
      let s := s.absentRec c.id st.ctx va 0x02 (c.trellis.length + 1)
      .ok (s.updCore c.id fun c =>
        { c with
          trellis := c.trellis ++ [{ copyTrel c (s.newRun e) va [] with
            act := .dec dec, ord := .rel, sc := .package
            part := { va := va, pa := 0, len := 8, pos := 0, data := dec, cmp := 0 } }] })
  | .early x => .error x
  | .late x _ => .error x

/-- The start of a copy, put or micro-batch. -/
def State.startCopy (s : State) (c : Core) (st : Strand) (e : QEntry) : State × CeRun :=
  let r := s.newRun e
  match firstOffset (descChecks e.op e.desc r.src r.dst) with
  | some o => (s, failRun r stField o)
  | none =>
    let r := { r with pkts := packets e.desc r.src r.dst }
    if isCpysig e.op then
      match s.startSignal c st e with
      | .ok s => (s, r)
      | .error x => (s, { failRun r x 0 with pkts := [] })
    else if isPsend e.op then
      let ch := bitsAt (descD e.desc 21) 0 4
      match vdieOf s st.ctx (bitsAt (descD e.desc 21) 8 2) with
      | none => (s, { failRun r stNoUnit 0 with pkts := [] })
      | some d =>
        let cfg := s.reg d (0xB000 + ch * 0x20)
        if s.down d then
          (s.refusal c.id.die (s.engineWho c.id st.ctx) needW 0 (dieBase d) .down, { failRun r stHomeDown 0 with pkts := [] })
        else if !bitAt cfg 0 then (s, { failRun r stNoUnit 0 with pkts := [] })
        else if bitsAt cfg 24 3 ≠ c.id.die.code || bitsAt cfg 4 4 ≠ st.ctx then (s, { failRun r stGrant 0 with pkts := [] })
        else (s, r)
    else (s, r)

/-- Is a bank bound to an enabled port or channel (04 R96, 10 R287, R296)? -/
def Die.bankBound (d : Die) (cl b : Nat) : Bool :=
  ((List.range 2).any fun p =>
    let x := d.nat (0xC000 + p * 0x80)
    !d.id.isMem && bitAt x 0 && bitsAt x 8 3 == cl && (bitsAt x 16 6 == b || bitsAt x 16 6 + 1 == b)) ||
  (List.range 16).any fun n =>
    let x := d.nat (0xB000 + n * 0x20)
    bitAt x 0 && bitsAt x 8 3 == cl && (bitsAt x 16 6 == b || bitsAt x 16 6 + 1 == b)

/-- BANKCFG as it starts: its checks, then the switch enters the bank controller's queue (04 R96, 10 R286). A bank that is bound ends
it with BUSY before the right is tested (log 104), and one refused is logged once, at the first 32 KiB page that lacks W: a DESIGN CHOICE
(log 109). -/
def State.startBank (s : State) (c : Core) (st : Strand) (e : QEntry) : State × CeRun :=
  let r := s.newRun e
  let pa := e.a.toNat
  let mode := bitsAt e.b.toNat 0 2
  let w := s.engineWho c.id st.ctx
  match paDie pa, placeOf pa with
  | some d, .bank cl b 0 =>
    if s.down d then (s.refusal c.id.die w needW 0 pa .down, failRun r stHomeDown 0)
    else if mode = 3 then (s, failRun r stField 0)
    else if (s.die d).bankBound cl b then (s, failRun r stBusy 0)
    else
      match (List.range 16).find? fun i => !(s.die d).permits 0 w needW (pa + i * 0x8000) with
      | some i => (s.violog d w { needW with op := 3 } (pa + i * 0x8000), failRun r stGrant 0)
      | none => (s.updDie d fun x => { x with switches := x.switches ++ [(cl, b, mode, c.id, e.id)] }, r)
  | _, _ => (s.refusal c.id.die w needW 0 pa .badPa, failRun r stBadPa 0)

/-- The endpoint that s(a) names: none where it does not exist or is off; its context otherwise. -/
def Die.endpointCtx (d : Die) (a : Nat) : Option Nat :=
  let x := if bitAt a 4 then d.nat (0xB000 + bitsAt a 0 4 * 0x20) else d.nat (0xC000 + bitsAt a 0 4 * 0x80)
  if (bitAt a 4 || (bitsAt a 0 4 < 2 && !d.id.isMem)) && bitAt x 0 then some (bitsAt x 4 4) else none
def Die.endpointBind (d : Die) (a : Nat) : Option Binding :=
  if bitAt a 4 then (d.chans.find? (·.1 == bitsAt a 0 4)).map (·.2)
  else (d.ports[bitsAt a 0 4]?).bind (·.bind)
def Die.setBind (d : Die) (a : Nat) (b : Option Binding) : Die :=
  let n := bitsAt a 0 4
  if bitAt a 4 then
    { d with chans := d.chans.filter (·.1 != n) ++ match b with | some x => [(n, x)] | none => [] }
  else { d with ports := d.ports.modify n fun p => { p with bind := b } }

def mineBind (st : Strand) (b : Binding) : Bool := b.task = st.task && b.gang == st.gang && b.lcore == st.lcore

/-- STRMBIND (10 R297). -/
def State.startBind (s : State) (c : Core) (st : Strand) (e : QEntry) : State × CeRun :=
  let r := s.newRun e
  let d := s.die c.id.die
  let a := e.a.toNat
  match d.endpointCtx a with
  | none => (s, failRun r stNoUnit 0)
  | some ctx =>
    if ctx ≠ st.ctx then (s, failRun r stGrant 0)
    else if (match d.endpointBind a with | some b => !mineBind st b | none => false) then (s, failRun r stBusy 0)
    else (s.setDie (d.setBind a (some { task := st.task, gang := st.gang, lcore := st.lcore, k := e.k, owed := 0 })), doneRun r)

/-- STRMREL (10 R297, R292). -/
def State.startRel (s : State) (c : Core) (st : Strand) (e : QEntry) : State × CeRun :=
  let r := s.newRun e
  let d := s.die c.id.die
  let a := e.a.toNat
  match d.endpointCtx a with
  | none => (s, failRun r stNoUnit 0)
  | some ctx =>
    if ctx ≠ st.ctx then (s, failRun r stGrant 0)
    else if (match d.endpointBind a with | some b => !mineBind st b | none => false) then (s, failRun r stBusy 0)
    else
      let o := 0xC008 + bitsAt a 0 4 * 0x80
      let ring := d.nat o
      let head := bitsAt ring 0 32
      let tail := bitsAt ring 32 32
      let n := min (bitsAt e.b.toNat 0 9) ((tail + 2 ^ 32 - head) % 2 ^ 32)
      let d := if bitAt a 4 then d else d.setReg o (.ofNat 64 (tail * 2 ^ 32 + (head + n) % 2 ^ 32))
      let d := if bitAt e.b.toNat 63 then d.setBind a none else d
      (s.setDie d, doneRun r)

/-- Bytes of a plate, or what hinders reading them. `fuel` bounds the pages. -/
def State.readPages (s : State) (c : CoreId) (ctx : Nat) : Nat → Nat → Nat → Reach (List Byte)
  | 0, _, _ => .got []
  | fuel + 1, va, n =>
    let k := min n (0x8000 - va % 0x8000)
    match s.readVa c ctx va k with
    | .got l =>
      if n ≤ k then .got l
      else match s.readPages c ctx fuel (va + k) (n - k) with
        | .got m => .got (l ++ m)
        | x => x
    | x => x

/-- The first offending field of a plate (10 R301). -/
def plateCheck (l : List Byte) : Option Nat :=
  let q (i : Nat) : Nat := bytesNat ((l.drop (8 * i)).take 8)
  let cell (i : Nat) : List (Nat × Bool) :=
    let w := q (8 + i)
    let op := bitsAt w 0 5
    let b := 64 + 8 * i
    [(b, 24 ≤ op || 6 ≤ bitsAt w 5 3), (b + 1, 6 ≤ bitsAt w 8 3 || 6 ≤ bitsAt w 11 3 || (i < 112 && bitsAt w 14 2 != 0)),
     (b + 2, (op == 16 && (bitsAt w 16 4 == 0 || 8 < bitsAt w 16 4)) || (i < 112 && bitAt w 20) || bitsAt w 21 11 != 0)]
  firstOffset ([(0, bitsAt (q 0) 0 32 != 0x4C50574F), (4, bitsAt (q 0) 32 8 != 1), (5, bitsAt (q 0) 40 24 != 0),
    (8, bitsAt (q 1) 0 2 == 3 || bitsAt (q 1) 3 61 != 0)] ++ ((List.range 6).map fun i => (16 + 8 * i, q (2 + i) != 0)) ++
    (List.range 128).flatMap cell)

/-- PGLOAD, PGRUN and PGSTOP (10 R302). -/
def State.startPergola (s : State) (c : Core) (st : Strand) (e : QEntry) : State × CeRun :=
  let r := s.newRun e
  let d := s.die c.id.die
  let n := bitsAt e.b.toNat 0 1
  match (if e.b.toNat < 2 && !d.id.isMem then d.ports[n]? else none) with
  | none => (s, failRun r stNoUnit 0)
  | some p =>
    if bitsAt (d.nat (0xC000 + n * 0x80)) 4 4 ≠ st.ctx then (s, failRun r stGrant 0)
    else
      let setPort (q : Port) : State := s.setDie { d with ports := d.ports.set n q }
      match e.op with
      | .pgload .. =>
        if p.running then (s, failRun r stBusy 0)
        else if e.a.toNat % 64 ≠ 0 then (s, failRun r stField 0)
        else
          (match s.readPages c.id st.ctx 3 e.a.toNat 9280 with
          | .got l =>
            (match plateCheck l with
            | some o => (s, failRun r stField o)
            | none => (setPort { p with plate := some l }, doneRun r))
          | .absent va => (s.absentRec c.id st.ctx va 0x01 st.lcore, { r with hold := some va })
          | .wait => (s, { r with status := 256 })
          | .early x => (s, failRun r x 0)
          | .late x t => (t, failRun r x 0))
      | .pgrun .. =>
        if p.plate.isNone then (s, failRun r stField 0)
        else (setPort { p with pending := p.pending ++ [(true, c.id, e.id)] }, r)
      | _ => (setPort { p with pending := p.pending ++ [(false, c.id, e.id)] }, r)

/-- PGRANT (10 R289). -/
def State.startGrant (s : State) (c : Core) (st : Strand) (e : QEntry) : State × CeRun :=
  let r := s.newRun e
  let d := s.die c.id.die
  let ch := bitsAt e.a.toNat 0 4
  let o := 0xB000 + ch * 0x20
  let cfg := d.nat o
  let stat := d.nat (o + 8)
  if !bitAt cfg 0 then (s, failRun r stNoUnit 0)
  else if bitsAt cfg 4 4 ≠ st.ctx then (s, failRun r stGrant 0)
  else if bitsAt stat 4 2 = 0 then (s, failRun r stEmpty 0)
  else
    let ridx := bitsAt stat 3 1
    let d := d.setReg (fifoOff (bitsAt cfg 8 3) (bitsAt cfg 16 6 + ridx)) 0
    let d := d.setReg (o + 8) (.ofNat 64 (setBits (setBits stat 3 1 (1 - ridx)) 4 2 (bitsAt stat 4 2 - 1)))
    let s := s.setDie d
    ({ s with permits := s.permits ++ [(d.id, ch)] }, doneRun r)

/-- CFLUSH and CINV: dirty lines of the readable pages of the range go to the DRAM (10 R303, 14 R410). -/
def State.flushLines (s : State) (ctx a n : Nat) : State :=
  (List.range ((a % 0x8000 + n + 0x7FFF) / 0x8000)).foldl (fun s i =>
    let lo := if i = 0 then a else a - a % 0x8000 + 0x8000 * i
    let hi := min (a + n) (a - a % 0x8000 + 0x8000 * (i + 1))
    match s.translate ctx (canonVa lo) with
    | some (l, pa) =>
      if !l.r then s
      else
        let pa := s.redirect pa
        let d := (paDie pa).getD .cd0
        let lines := ((s.die d).dirty.filter fun x => pa / 64 ≤ x.1 && x.1 ≤ (pa + (hi - lo) - 1) / 64).map (·.1)
        lines.foldl (fun s x => match execDramWriteback d (64 * x) s with | .next t => t | _ => s) s
    | none => s) s
/-- CFLUSH and CINV as they start; their lines are written back by `flushRun`. One whose range holds an address that is not canonical ends
with VA_CANON before any line is written back (Table 10-2, 09 R242; log 54). -/
def State.startFlush (s : State) (e : QEntry) : State × CeRun :=
  let r := s.newRun e
  let a := e.a.toNat
  let n := e.b.toNat
  if 2 ^ 40 ≤ n then (s, failRun r stField 0)
  else if n ≠ 0 && !(isCanon a && isCanon ((a + n - 1) % 2 ^ 64)) then (s, failRun r stCanon 0)
  else (s, r)
def isFlush : Instr → Bool | .cflush .. | .cinv .. => true | _ => false
/-- A started CFLUSH or CINV has written its dirty lines back. CINV drops the lines from a cluster cache, which holds nothing that
a program can tell from memory (log 54). -/
def flushRun (id : CoreId) (cmd : Nat) (s : State) : Out :=
  let s := s.focus id
  match s.core.ceRun.find? (·.ent.id == cmd), s.core.strand with
  | some r, some st =>
    if !isFlush r.ent.op || r.status ≠ 0 || r.landed ≠ 0 then .fault (.notEnabled "CE_COMMAND_COMPLETE")
    else .next ((s.flushLines st.ctx r.ent.a.toNat r.ent.b.toNat).onCore fun c => setRun c (doneRun r))
  | _, _ => .fault (.notEnabled "CE_COMMAND_COMPLETE")

/-- A started PGLOAD whose page has come reads its plate again (10 R302): it holds while its page is absent, and while a bank that it
reads is being switched. -/
def pgloadRun (id : CoreId) (cmd : Nat) (s : State) : Out :=
  let s := s.focus id
  match s.core.ceRun.find? (·.ent.id == cmd), s.core.strand with
  | some r, some st =>
    if r.hold.isSome || r.status ≠ 0 || r.landed ≠ 0 || !(match r.ent.op with | .pgload .. => true | _ => false) then
      .fault (.notEnabled "CE_COMMAND_START")
    else
      let x := s.startPergola s.core st r.ent
      if x.2.status = 256 then .fault (.notEnabled "CE_COMMAND_START") else .next (x.1.onCore fun c => setRun c x.2)
  | _, _ => .fault (.notEnabled "CE_COMMAND_START")

/-- The start of an entry. -/
def State.startEntry (s : State) (c : Core) (st : Strand) (e : QEntry) : State × CeRun :=
  match e.op with
  | .bankcfg .. => s.startBank c st e
  | .strmbind .. => s.startBind c st e
  | .strmrel .. => s.startRel c st e
  | .pgload .. | .pgrun .. | .pgstop .. => s.startPergola c st e
  | .pgrant .. => s.startGrant c st e
  | .cflush .. | .cinv .. => s.startFlush e
  | _ => s.startCopy c st e

/-- May the head of a queue start: are the producers that it waits for complete (05 R124)? -/
def Core.depsDone (c : Core) (e : QEntry) : Bool := e.deps.all fun i => !c.openEntries.any (·.id == i)

/-- CE_COMMAND_START: the head of the CE queue starts. -/
def execCeCommandStart (id : CoreId) (s : State) : Out :=
  let s := s.focus id
  let c := s.core
  match c.ceq, c.strand with
  | e :: rest, some st =>
    if 4 ≤ c.ceRun.length || !c.depsDone e || c.stopping.isSome then .fault (.notEnabled "CE_COMMAND_START")
    else
      let x := s.startEntry c st e
      if x.2.status == 256 then .fault (.notEnabled "CE_COMMAND_START")
      else .next (x.1.onCore fun c => { c with ceq := rest, ceRun := c.ceRun ++ [x.2] })
  | _, _ => .fault (.notEnabled "CE_COMMAND_START")

/-! ## Completion (10 R271 to R273, R281, R288, 13 R384) -/

/-- Has every effect that the command's rule names taken place? -/
def runDone (r : CeRun) : Bool :=
  (r.status != 0 && r.air.isEmpty) ||
    (r.status == 0 && r.hold.isNone && if hasDesc r.ent.op then r.pkts.isEmpty && r.air.isEmpty else r.landed == 1)

/-- CE_COMMAND_COMPLETE: a command completes, or ends with its status and trap; its token stops pending. -/
def execCeCommandComplete (id : CoreId) (cmd : Nat) (s : State) : Out :=
  let s := s.focus id
  match s.core.ceRun.find? (·.ent.id == cmd), s.core.strand with
  | some r, some st =>
    if !runDone r then .fault (.notEnabled "CE_COMMAND_COMPLETE")
    else
      let s := s.wallNow
      let s := s.onCore fun c =>
        let c := Core.tokenOver { c with ceRun := c.ceRun.filter (·.ent.id != cmd) } r.ent
        if r.isLocal || r.ent.inst ≠ c.inst.id then c
        else { c with inst := { c.inst with wallHorizon := max c.inst.wallHorizon (c.wall + 16) } }
      if r.status ≠ 0 then
        let s : State := { s with effects := s.effects.filter fun e => match e.kind with | .signal _ _ _ x _ => x != cmd | _ => true }
        let s := s.onCore fun c =>
          { c with trellis := c.trellis.filter fun t => !(t.copy == some cmd && match t.act with | .dec _ => true | _ => false) }
        .next (s.asyncTrap id ⟨if r.status = stGrant then .grant else .copyStatus, ceRecord r, 0⟩)
      else
        let s := if hasDesc r.ent.op && descCnt r.ent.desc = 2 then s.onCore (·.countDown r.ent 1)
          else if isPsend r.ent.op && descCnt r.ent.desc = 1 then s.onCore (·.countDown r.ent r.landed) else s
        if isPsend r.ent.op then
          match vdieOf s st.ctx (bitsAt (descD r.ent.desc 21) 8 2) with
          | some d =>
            .next { s with
              nextId := s.nextId + 1
              effects := s.effects ++ [{ id := s.nextId, core := id, task := some st.task, gang := st.gang
                                         lcore := st.lcore, ctx := st.ctx, inst := r.ent.inst, committed := false
                                         acked := false, kind := .psend d (bitsAt (descD r.ent.desc 21) 0 4) r.data }] }
          | none => .next s
        else .next s
  | _, _ => .fault (.notEnabled "CE_COMMAND_COMPLETE")

/-! ## Signals and micro-batches after COMMIT (10 R281, R288, R297) -/

/-- Where a strand runs, or has run (13 R391). -/
def State.placeOfStrand (s : State) (e : Effect) : CoreId := (e.task.bind fun t => s.coreOf t e.gang e.lcore).getD e.core

/-- CPYSIG_SIGNAL: the signal of a committed CPYSIG leaves for the counter that its SIG_VA named as the command started. -/
def execCpysigSignal (id : Nat) (s : State) : Out :=
  match s.effects.find? fun e => e.id == id && e.committed with
  | some e =>
    match e.kind with
    | .signal va pa dec cmd seq =>
      if !s.copyPerformed cmd then .fault (.notEnabled "CPYSIG_SIGNAL")
      else
        let part : Part := { va := va, pa := pa, len := 8, pos := 0, data := dec, cmp := 0 }
        let a := { (s.getCore (s.placeOfStrand e)).access s.nextId (.dec dec) 0 e.ctx [part] with
          task := e.task, gang := e.gang, lcore := e.lcore, ord := .rel, sc := .package, inst := e.inst, seq := seq, copy := some cmd, xl := e.id }
        .next (State.pump { s with
          nextId := s.nextId + 1, effects := s.effects.filter (·.id != id), flight := s.flight ++ [a] })
    | _ => .fault (.notEnabled "CPYSIG_SIGNAL")
  | none => .fault (.notEnabled "CPYSIG_SIGNAL")

/-- A landed frame, marker or micro-batch counts for the strand that holds the endpoint (10 R297). -/
def State.endpointCount (s : State) (d : DieId) (a : Nat) : State :=
  match (s.die d).endpointBind a with
  | none => s
  | some b =>
    match s.coreOf b.task b.gang b.lcore with
    | some c => s.updCore c fun c => c.engineK b.k (isSub 1) none
    | none => s.updDie d fun x => x.setBind a (some { b with owed := b.owed + 1 })

/-- The first committed micro-batch of a channel. -/
def State.nextBatch (s : State) (d : DieId) (ch : Nat) : Option Effect :=
  s.effects.find? fun e => e.committed && match e.kind with | .psend x n _ => x == d && n == ch | _ => false

/-- PSEND_DELIVERY: a committed micro-batch takes a permit and fills its buffer. -/
def execPsendDelivery (id : Nat) (s : State) : Out :=
  match s.effects.find? (·.id == id) with
  | none => .fault (.notEnabled "PSEND_DELIVERY")
  | some e =>
    match e.kind with
    | .psend d ch data =>
      let o := 0xB000 + ch * 0x20
      let cfg := s.reg d o
      let stat := s.reg d (o + 8)
      let base := bankBase d (bitsAt cfg 8 3) (bitsAt cfg 16 6 + bitsAt stat 2 1)
      match if (s.nextBatch d ch).map (·.id) ≠ some id || bitsAt stat 0 2 = 0 || !bitAt cfg 0 || s.switching base then none
          else s.directWrite e.core.die d with
      | none => .fault (.notEnabled "PSEND_DELIVERY")
      | some s =>
        let cl := bitsAt cfg 8 3
        let b := bitsAt cfg 16 6 + bitsAt stat 2 1
        let w := { s.engineWho e.core (bitsAt cfg 4 4) with ctx := bitsAt cfg 4 4 }
        let s := s.putLines d w true (data.length / 64 + 1) base data
        let units := (data.length + 63) / 64
        let s := s.updDie d fun x =>
          let f := x.nat (fifoOff cl b)
          let x := x.setReg (fifoOff cl b) (.ofNat 64 (setBits f 16 14 (bitsAt f 16 14 + units)))
          x.setReg (o + 8) (.ofNat 64 (setBits (setBits (setBits (setBits stat 0 2 (bitsAt stat 0 2 - 1)) 2 1
            (1 - bitsAt stat 2 1)) 4 2 (bitsAt stat 4 2 + 1)) 32 32 (bitsAt stat 32 32 + 1)))
        .next ({ s with effects := s.effects.filter (·.id != id) }.endpointCount d (16 + ch))
    | _ => .fault (.notEnabled "PSEND_DELIVERY")

/-- PERMIT_ARRIVE: a granted permit reaches the sender (10 R289). -/
def execPermitArrive (d : DieId) (ch : Nat) (s : State) : Out :=
  if !s.permits.contains (d, ch) then .fault (.notEnabled "PERMIT_ARRIVE")
  else
    let o := 0xB008 + ch * 0x20
    let stat := s.reg d o
    .next ({ s with permits := s.permits.erase (d, ch) }.setReg d o (setBits stat 0 2 (bitsAt stat 0 2 + 1)))

end Sys2Proof.Machine
end

