-- ==== Sys2Proof/Machine/Streams.lean ====
section
/-! DEFINITION. The Strelziad ports, the Pergola fabric and the PCIe ports (10 R290 to R302, 14 R415, R416). -/

namespace Sys2Proof.Machine

/-! ## Check sums of a frame (10 R290, R291) -/

/-- The frame check sequence of IEEE 802.3, as the frame carries it least byte first (log 20). -/
def crc32Bit (c : Nat) : Nat := if bitAt c 0 then c / 2 ^^^ 0xEDB88320 else c / 2
def crc32Byte (c : Nat) (b : Byte) : Nat := (List.range 8).foldl (fun c _ => crc32Bit c) (c ^^^ b.toNat)
def crc32 (l : List Byte) : Nat := l.foldl crc32Byte 0xFFFFFFFF ^^^ 0xFFFFFFFF

/-! ## The Pergola fabric (10 R298 to R301) -/

/-- A cell during a frame: its last output, its accumulator, and its last values of x. -/
structure PgCell where
  out : Nat
  acc : Nat
  hist : List Nat
  deriving DecidableEq, Repr

def toI32 (x : Nat) : Int := (IFmt.mk 32 true).toInt x
def ofI32 (x : Int) : Nat := (IFmt.mk 32 true).wrap x

/-- The output of a cell with word `q` and table `lut` on beat `j` (10 Table 10-12): the cell after it. -/
def pgStep (q : Nat) (lut : Nat → Nat) (j : Nat) (c : PgCell) (north west inp : Nat) : PgCell :=
  let src (n : Nat) : Nat :=
    match n with
    | 1 => north | 2 => west | 3 => c.out | 4 => bitsAt q 32 32 | 5 => inp | _ => 0
  let x : Nat := src (bitsAt q 5 3)
  let y : Nat := src (bitsAt q 8 3)
  let z : Nat := src (bitsAt q 11 3)
  let par := bitsAt q 16 4
  let acc := if j % 2 ^ par = 0 then 0 else c.acc
  let fl (op : Rnd → Val → Val → Val × Flags) : Nat := (fpBin fp32 .rne .none op x y).1
  let famax : Nat :=
    if (decodeVal fp32 x).isNan then (quietBits fp32 x).1 else (minMaxBits true fp32 acc (x % 2 ^ 31)).1
  let pack (f : Fmt) (sm : Sat) : Nat := (convert f .rne sm (scaledVal (decodeVal fp32 x) (decodeVal fp32 y)).1).1
  let o : Nat :=
    match bitsAt q 0 5 with
    | 1 => x
    | 2 => x + y
    | 3 => x + 2 ^ 32 - y
    | 4 => x * y
    | 5 => x * 2 ^ (y % 32)
    | 6 => x / 2 ^ (y % 32)
    | 7 => ofI32 (toI32 x / (2 ^ (y % 32) : Nat))
    | 8 => b2n (toI32 x < toI32 y)
    | 9 => famax
    | 10 => if z == 0 then y else x
    | 11 => if toI32 y < toI32 x then y else x
    | 12 => if toI32 x < toI32 y then y else x
    | 13 => (toI32 x - toI32 y).natAbs
    | 14 => lut (x % 16)
    | 15 => acc + x
    | 16 => c.hist.getD (par - 1) 0
    | 17 => fl addV
    | 18 => fl subV
    | 19 => fl mulV
    | 20 => fl divV
    | 21 => (convert fp32 .rne .none (Val.ofInt (toI32 x))).1
    | 22 => pack e4m3 .satnz
    | 23 => pack bf16 .sat
    | _ => 0
  let o := o % 2 ^ 32
  { out := o, acc := if bitsAt q 0 5 = 9 || bitsAt q 0 5 = 15 then o else c.acc, hist := (x :: c.hist).take 8 }

/-- The word of cell `i` of a plate, and its table. -/
def plateWord (p : List Byte) (i : Nat) : Nat := bytesNat ((p.drop (64 + 8 * i)).take 8)
def plateLut (p : List Byte) (i k : Nat) : Nat := bytesNat ((p.drop (1088 + 64 * i + 4 * k)).take 4)

/-- One row of the grid from column `c` on: the cells of the row, the outputs of the row above, the input elements. -/
def pgRow (p : List Byte) (row j : Nat) (inp : List Nat) : Nat → Nat → List PgCell → List Nat → List PgCell
  | _, _, [], _ => []
  | c, west, x :: r, north =>
    let i := 16 * row + c
    let y := pgStep (plateWord p i) (plateLut p i) j x (north.headD 0) west (inp.getD c 0)
    y :: pgRow p row j inp (c + 1) y.out r north.tail
/-- The rows from `row` on, in one beat. -/
def pgBeat (p : List Byte) (j : Nat) (inp : List Nat) : Nat → List (List PgCell) → List Nat → List (List PgCell)
  | _, [], _ => []
  | row, x :: r, north =>
    let y := pgRow p row j inp 0 0 x north
    y :: pgBeat p j inp (row + 1) r (y.map (·.out))

/-- What row 7 appends in a beat (10 R300). -/
def pgEmit (p : List Byte) (j : Nat) (last : Bool) (row : List PgCell) : List Byte :=
  (List.range 16).flatMap fun c =>
    let q := plateWord p (112 + c)
    let n := match bitsAt q 14 2 with | 0 => 0 | 1 => 1 | 2 => 2 | _ => 4
    if bitAt q 20 && (j + 1) % 2 ^ bitsAt q 16 4 ≠ 0 && !last then []
    else natBytes ((row.map (·.out)).getD c 0) n

/-- The beats from `j` on, `n` of them. -/
def pgBeats (p : List Byte) (elems : List Nat) : Nat → Nat → List (List PgCell) → List Byte
  | 0, _, _ => []
  | n + 1, j, g =>
    let inp := (elems.drop (16 * j)).take 16
    let g := pgBeat p j inp 0 g inp
    pgEmit p j (n == 0) (g.getD 7 []) ++ pgBeats p elems n (j + 1) g

/-- The stored payload of a frame that passes a running plate. -/
def pergola (p : List Byte) (payload : List Byte) : List Byte :=
  let h1 := bytesNat ((p.drop 8).take 8)
  let w := 2 ^ bitsAt h1 0 2
  let n := (payload.length + w - 1) / w
  let elems := (List.range n).map fun i =>
    let x := bytesNat ((payload.drop (w * i)).take w)
    if bitAt h1 2 then ofI32 ((IFmt.mk (8 * w) true).toInt x) else x
  let cell : PgCell := { out := 0, acc := 0, hist := [] }
  pgBeats p elems ((n + 15) / 16) 0 (List.replicate 8 (List.replicate 16 cell))

/-! ## Landing frames (10 R291 to R297) -/

/-- The header words of a frame's payload, and whether they pass the checks of R291. -/
def frameQ (l : List Byte) (i : Nat) : Nat := bytesNat ((l.drop (8 * i)).take 8)
def headerOk (l : List Byte) : Bool :=
  let len := bitsAt (frameQ l 3) 0 16
  crc16 (l.take 30) == bitsAt (frameQ l 3) 48 16 && 1 ≤ len && len ≤ 8192 && 32 + len ≤ l.length &&
    crc16 ((l.drop 32).take len) == bitsAt (frameQ l 3) 16 16 && bitsAt (frameQ l 0) 16 8 == 0 &&
    bitsAt (frameQ l 0) 27 37 == 0 && bitsAt (frameQ l 0) 4 12 == 0 && bitsAt (frameQ l 1) 48 16 == 0 &&
    bitsAt (frameQ l 2) 40 24 == 0 && bitsAt (frameQ l 2) 20 4 == 0 && bitsAt (frameQ l 3) 32 16 == 0
/-- Does a frame, from its destination address to its check sequence, carry a line of this part's EtherType? -/
def frameOk (l : List Byte) : Bool :=
  let n := l.length
  50 ≤ n && n ≤ 9216 && crc32 (l.take (n - 4)) == bytesNat (l.drop (n - 4)) &&
    (l.drop 12).take 2 == [0x88, 0xB5] && headerOk ((l.take (n - 4)).drop 14)

def portOff (p : Nat) : Nat := 0xC000 + p * 0x80
/-- A saturating 32-bit count in a port register, `hi` its upper half. -/
def Die.portCount (d : Die) (off : Nat) (hi : Bool) (n : Nat) : Die :=
  let x := d.nat off
  let lo := if hi then 32 else 0
  d.setReg off (.ofNat 64 (setBits x lo 32 (satTo (2 ^ 32 - 1) (bitsAt x lo 32 + n))))

def Die.ringHead (d : Die) (p : Nat) : Nat := bitsAt (d.nat (portOff p + 8)) 0 32
def Die.ringTail (d : Die) (p : Nat) : Nat := bitsAt (d.nat (portOff p + 8)) 32 32
def ringUsed (d : Die) (p : Nat) : Nat := (d.ringTail p + 2 ^ 32 - d.ringHead p) % 2 ^ 32
/-- The PA of slot number `i` (free-running) of port `p`. -/
def slotPa (d : Die) (p i : Nat) : Nat :=
  let cfg := d.nat (portOff p)
  bankBase d.id (bitsAt cfg 8 3) (bitsAt cfg 16 6 + i % 256 / 128) + i % 128 * 4096

/-- A frame's stored bytes written from slot `i` on, slot by slot, each a write of die `d` at its own home slices (12 R347), for
which `frameHeld` has found room. `fuel` bounds the slots. -/
def State.writeSlots (s : State) (d : DieId) (p : Nat) (w : Who) : Nat → Nat → List Byte → State
  | 0, _, _ => s
  | fuel + 1, i, l =>
    if l.isEmpty then s
    else
      let pa := slotPa (s.die d) p i
      let s := (s.directWrites d (homesOf pa (l.take 4096).length)).getD s
      (s.putLines d w true 64 pa (l.take 4096)).writeSlots d p w fuel (i + 1) (l.drop 4096)

def State.portWho (s : State) (d : DieId) (p : Nat) : Who :=
  { chip := s.rhoath.chip, die := d.code, kind := 2, unit := p, ctx := bitsAt (s.reg d (portOff p)) 4 4 }

def Die.modPort (d : Die) (p : Nat) (f : Port → Port) : Die := { d with ports := d.ports.modify p f }

/-- The bytes of a stored frame with header words `q0` to `q3`. -/
def storedFrame (q0 q1 q2 q3 : Nat) (pay : List Byte) : List Byte :=
  natBytes q0 8 ++ natBytes q1 8 ++ natBytes q2 8 ++ natBytes q3 8 ++ pay

/-- The stored frames that no STRMREL has released, oldest first. -/
def unreleased (d : Die) (p : Nat) : List (Nat × Nat × Bool × Nat) :=
  match d.ports[p]? with
  | some y => y.frames.filter fun f => (f.1 + 2 ^ 32 - d.ringHead p) % 2 ^ 32 < ringUsed d p
  | none => []

/-- A frame or marker of `m` slots lands at the tail (10 R292, R297). -/
def State.landSlots (s : State) (d : DieId) (p m seq : Nat) (l : List Byte) : State :=
  let tail := (s.die d).ringTail p
  let s := s.writeSlots d p (s.portWho d p) 4 tail l
  let s := s.updDie d fun x =>
    let o := portOff p + 8
    (x.setReg o (.ofNat 64 ((tail + m) % 2 ^ 32 * 2 ^ 32 + x.ringHead p))).modPort p fun y =>
      { y with frames := unreleased x p ++ [(tail, m, false, seq)] }
  s.endpointCount d p

/-- The frames that an overwrite of `m` slots covers (10 R295). -/
def coverFrames : Nat → List (Nat × Nat × Bool × Nat) → List (Nat × Nat × Bool × Nat)
  | 0, _ => []
  | _ + 1, [] => []
  | m + 1, f :: r => f :: coverFrames (m + 1 - f.2.1) r

def Die.expected (d : Die) (p st : Nat) : Nat :=
  match d.ports[p]? with
  | some y => (match y.expect.find? (·.1 == st) with | some x => x.2 | none => 0)
  | none => 0
def Die.expectNext (d : Die) (p st n : Nat) : Die :=
  d.modPort p fun y => { y with expect := (st, n) :: y.expect.filter (·.1 != st) }

/-- A frame that passed its checks, with header words `q` and stored payload `pay` (10 R292 to R295, log 21). -/
def State.landFrame (s : State) (d : DieId) (p : Nat) (q : Nat → Nat) (pg : Bool) (pay : List Byte) : State :=
  let x := s.die d
  let cut := 12256 < pay.length
  let pay := pay.take 12256
  let m := (32 + pay.length + 4095) / 4096
  let st := bitsAt (q 0) 0 4
  let seq := bitsAt (q 1) 0 48
  let want := x.expected p st
  let gap := want < seq
  let head (slots : Nat) (stale : Bool) (rs rc : Nat) : List Byte :=
    storedFrame (slots % 4 * 2 ^ 40 + b2n pg * 2 ^ 26 + b2n cut * 2 ^ 25 + b2n stale * 2 ^ 24 + st) (rs % 2 ^ 16 * 2 ^ 48 + seq)
      (q 2) (bitsAt (q 3) 48 16 * 2 ^ 48 + rc % 2 ^ 16 * 2 ^ 32 + bitsAt (q 3) 16 16 * 2 ^ 16 + pay.length) pay
  let follow (s : State) : State := if want ≤ seq then s.updDie d (·.expectNext p st (seq + 1)) else s
  let drop : State := s.updDie d fun x => x.portCount (portOff p + 0x10) true 1
  if m + b2n gap ≤ 256 - ringUsed x p then
    let s := if gap then
      ((s.landSlots d p 1 want (storedFrame (2 ^ 40 + 2 * 2 ^ 16 + st) want (seq - 1) 0 [])).updDie d fun x =>
        x.portCount (portOff p + 0x18) false 1) else s
    follow (s.landSlots d p m seq (head m false 0 0))
  else if !bitAt (x.nat (portOff p)) 1 then drop
  else
    let all := unreleased x p
    let cover := coverFrames m (all.dropWhile fun f => f.2.2.1)
    let slots := (cover.map (·.2.1)).sum
    match cover with
    | [] => drop
    | f :: _ =>
      if slots < m || (f.1 + slots) % 2 ^ 32 = x.ringTail p then drop
      else
        let s := s.writeSlots d p (s.portWho d p) 6 f.1 (head slots true f.2.2.2 cover.length)
        let s := s.updDie d fun x =>
          (x.modPort p fun y =>
            { y with frames := y.frames.filterMap fun g =>
                if g = f then some (f.1, slots, true, seq) else if cover.contains g then none else some g }).portCount
            (portOff p + 0x18) true cover.length
        follow s

/-- A frame that passed its checks passes the fabric and lands. -/
def State.passFrame (s : State) (d : DieId) (p : Nat) (frame : List Byte) : State :=
  let l := (frame.take (frame.length - 4)).drop 14
  let pay := (l.drop 32).take (bitsAt (frameQ l 3) 0 16)
  let plate := match (s.die d).ports[p]? with
    | some y => if y.running then y.plate else none
    | none => none
  s.landFrame d p (frameQ l) plate.isSome (match plate with | some t => pergola t pay | none => pay)
/-- Must a frame wait: while a bank of the ring is being switched (04 R96), and while its writes, of a stored frame and a marker at
most, could not perform at their home slices (12 R349, R351)? -/
def State.frameHeld (s : State) (d : DieId) (p : Nat) : Bool :=
  s.switching (slotPa (s.die d) p 0) || s.switching (slotPa (s.die d) p 128) || (s.directWrites d (List.replicate 49 d)).isNone

/-- LINE_FRAME: a frame arrives at a port; behind a frame that waits, it waits too. -/
def execLineFrame (d : DieId) (p : Nat) (frame : List Byte) (s : State) : Out :=
  let x := s.die d
  if d.isMem || 2 ≤ p || s.down d then .fault (.notEnabled "LINE_FRAME")
  else if !bitAt (x.nat (portOff p)) 0 then .next s
  else if !frameOk frame then .next (s.updDie d fun x => x.portCount (portOff p + 0x10) false 1)
  else if (x.ports[p]?).any (!·.waiting.isEmpty) || s.frameHeld d p then
    .next (s.updDie d (·.modPort p fun y => { y with waiting := y.waiting ++ [frame] }))
  else .next (s.passFrame d p frame)
/-- The first frame that waits at a port lands. -/
def heldFrame (d : DieId) (p : Nat) (s : State) : Out :=
  match (s.die d).ports[p]? with
  | none => .fault (.notEnabled "LINE_FRAME")
  | some y =>
    match y.waiting with
    | [] => .fault (.notEnabled "LINE_FRAME")
    | l :: rest =>
      if s.down d || s.frameHeld d p then .fault (.notEnabled "LINE_FRAME")
      else .next ((s.updDie d (·.modPort p fun y => { y with waiting := rest })).passFrame d p l)

/-- CONTROL_FRAME: a port sends its counts; the header goes out. -/
def execControlFrame (d : DieId) (p : Nat) (s : State) : Out :=
  if d.isMem || 2 ≤ p || s.down d then .fault (.notEnabled "CONTROL_FRAME")
  else .next { s with
    replyData := storedFrame (2 ^ 16) ((s.die d).ringHead p) ((s.die d).ringTail p) 0 [] }

/-- PLATE_SWITCH: the first pending PGRUN or PGSTOP takes effect between two frames (10 R302). -/
def execPlateSwitch (d : DieId) (p : Nat) (s : State) : Out :=
  match (s.die d).ports[p]? with
  | none => .fault (.notEnabled "PLATE_SWITCH")
  | some y =>
    match y.pending with
    | [] => .fault (.notEnabled "PLATE_SWITCH")
    | (run, c, cmd) :: rest =>
      let live := (s.getCore c).ceRun.any (·.ent.id == cmd)
      let s := s.updDie d fun x => x.modPort p fun y => { y with running := if live then run else y.running, pending := rest }
      .next (s.updCore c fun k =>
        { k with ceRun := k.ceRun.map fun r => if r.ent.id = cmd then { r with landed := 1 } else r })

/-! ## PCIe (14 R415, R416, 04 R100) -/

/-- The PCIe port of a memory die as a master, with context 0 (log 22). -/
def State.pcieWho (s : State) (d : DieId) : Who := { chip := s.rhoath.chip, die := d.code, kind := 2, unit := 0, ctx := 0 }

/-- Does [pa, pa + n) meet a bank that is being switched, so that the access is held (04 R96)? -/
def State.switchingAny (s : State) (pa n : Nat) : Bool := s.switching pa || s.switching (pa + n - 1)

/-- A DMA access of die `r.die` performs: none while a bank that it reaches is being switched (04 R96) or a write that causally
precedes it has not been delivered (12 R347, R349). A write is checked line by line and sealed at the home slice; a read's completion
carries the bytes, poisoned where a seal fails, and a refused line brings none. -/
def State.dmaPerform (s : State) (r : DmaReq) : Option State :=
  let w := s.pcieWho r.die
  let pa := s.redirect r.pa
  let lines := (List.range ((pa % 64 + r.len + 63) / 64)).map fun i => if i = 0 then pa else pa - pa % 64 + 64 * i
  if s.switchingAny pa r.len then none
  else if s.mirrorNamed r.pa then
    let n := if r.data.isSome then needW else needR
    let s := lines.foldl (fun s l => s.refusal r.die w n 0 l .badPa) s
    some (if r.data.isSome then s else { s with replyData := [], poisoned := true })
  else match r.data with
    | some l => (s.directWrites r.die (homesOf pa l.length)).map fun s => s.putLines r.die w false (l.length / 64 + 2) pa l
    | none =>
      match s.directReads r.die (homesOf pa r.len) with
      | none => none
      | some s =>
        let bad := lines.filterMap fun l => match s.judge w needR l with | .ok => none | v => some (l, v)
        if !bad.isEmpty then
          some { bad.foldl (fun s x => s.refusal r.die w needR 0 x.1 x.2) s with replyData := [], poisoned := true }
        else
          let bad := s.failedSectors pa r.len
          let data := s.rdBytes pa r.len
          some { bad.foldl (fun s x => s.exitRec r.die w x) s with replyData := data, poisoned := !bad.isEmpty }
/-- A DMA access performs, or is held. -/
def State.dmaAccess (s : State) (r : DmaReq) : State := (s.dmaPerform r).getD { s with dmaReqs := s.dmaReqs ++ [r] }

/-- PCIE_DMA_WRITE: an inbound write. -/
def execPcieDmaWrite (d : DieId) (pa : Nat) (data : List Byte) (s : State) : Out :=
  if !d.isMem || s.down d then .fault (.notEnabled "PCIE_DMA_WRITE")
  else .next (s.dmaAccess ⟨d, pa, data.length, some data⟩)
/-- PCIE_DMA_READ: an inbound read. -/
def execPcieDmaRead (d : DieId) (pa len : Nat) (s : State) : Out :=
  if !d.isMem || s.down d then .fault (.notEnabled "PCIE_DMA_READ") else .next (s.dmaAccess ⟨d, pa, len, none⟩)

/-- The first held DMA access performs once nothing holds it. -/
def heldDma (s : State) : Out :=
  match s.dmaReqs with
  | [] => .fault (.notEnabled "PCIE_DMA_READ")
  | r :: rest =>
    let t : State := { s with dmaReqs := rest }
    if s.down r.die then .next t
    else match t.dmaPerform r with
      | some t => .next t
      | none => .fault (.notEnabled "PCIE_DMA_READ")

/-- An error of two bits strikes a DRAM sector (01 R26, 14 R415): its seal fails, unless the shared cache holds the line. -/
def dramFault (s : State) : Out :=
  match s.dramUes with
  | [] => .fault (.notEnabled "CACHE_UE")
  | x :: rest =>
    let pa := 32 * x
    let cached := match paDie pa with | some d => (s.die d).dirty.any (·.1 == pa / 64) | none => true
    .next { s with dramUes := rest, badSeal := if cached || placeOf pa ≠ .dram then s.badSeal else s.badSeal ++ [(x, x + 1)] }

end Sys2Proof.Machine
end

