-- ==== Sys2Proof/Machine/Matrix.lean ====
section
/-! DEFINITION. The matrix engine: parameters, tiles, the shipped routines, checks, MCHK, MCLR and MLDSTORE
(11 R304 to R337, 07 R203 to R209, 13 R383, R389). -/

namespace Sys2Proof.Machine

/-! ## Parameters (11 R321, R322) -/

/-- The fields of mp0 to mp6; `abstr` is also DSTR and `abase` DBASE. -/
structure RtParam where
  abase : Nat
  abstr : Nat
  sbase : Nat
  wbase : Nat
  tstr : Nat
  nt : Nat
  row0 : Nat
  m : Nat
  col0 : Nat
  nc : Nat
  kb : Nat
  adelta : Nat
  bdelta : Nat
  deriving DecidableEq, Repr

def mpOf (e : QEntry) (i : Nat) : Nat := (e.mp.toList.getD i 0).toNat
def rtParams (e : QEntry) : RtParam :=
  { abase := bitsAt (mpOf e 0) 0 22, abstr := bitsAt (mpOf e 1) 32 22, sbase := bitsAt (mpOf e 1) 0 22
    wbase := bitsAt (mpOf e 2) 0 14, tstr := bitsAt (mpOf e 2) 16 14, nt := bitsAt (mpOf e 2) 32 2
    row0 := bitsAt (mpOf e 3) 0 9, m := bitsAt (mpOf e 3) 16 9, col0 := bitsAt (mpOf e 3) 32 9, nc := bitsAt (mpOf e 3) 48 9
    kb := bitsAt (mpOf e 4) 0 16, adelta := bitsAt (mpOf e 5) 0 22, bdelta := bitsAt (mpOf e 6) 0 14 }

/-- The side of a core's array (11 R304). -/
def arraySide (c : CoreId) : Nat := if c.isAttn then 128 else 256

def isMm (r : Nat) : Bool := r < 4 || r == 14
def isFloatMm (r : Nat) : Bool := r == 0 || r == 3 || r == 14
/-- The mp registers that routine `r` reads (11 Table 11-8). -/
def rtRegs (r : Nat) : List Nat :=
  if r = 3 then [0, 1, 2, 3, 4, 5, 6]
  else if isMm r then [0, 1, 2, 3, 4]
  else match r with
    | 4 => [3]
    | 5 | 6 | 7 | 8 | 9 => [0, 1, 3]
    | 10 => [0, 2, 4]
    | 11 | 12 => [0]
    | 13 => [1, 3]
    | _ => []
/-- Is a reserved bit of mp register `i` set (11 Table 11-7)? -/
def mpReserved (i x : Nat) : Bool :=
  match i with
  | 0 | 5 => bitsAt x 22 42 != 0
  | 1 => bitsAt x 54 10 != 0 || bitsAt x 22 10 != 0
  | 2 => bitsAt x 34 30 != 0 || bitsAt x 30 2 != 0 || bitsAt x 14 2 != 0
  | 3 => bitsAt x 57 7 != 0 || bitsAt x 41 7 != 0 || bitsAt x 25 7 != 0 || bitsAt x 9 7 != 0
  | 4 => bitsAt x 16 48 != 0
  | 6 => bitsAt x 14 50 != 0
  | _ => false
/-- The alignment of ABASE or DBASE for routine `r`. -/
def baseAlign (r : Nat) : Nat :=
  if isMm r || r == 9 || r == 10 then 64
  else match r with
    | 5 | 8 => 4
    | 6 => 2
    | 11 | 12 => 8
    | _ => 1
/-- Is a limit of R322 broken that mp register `i` holds? -/
def mpLimit (c : CoreId) (r : Nat) (p : RtParam) (i : Nat) : Bool :=
  let step := if 1 < p.kb * p.nt then (p.kb * p.nt - 1) * p.tstr else 0
  match i with
  | 0 => p.abase % baseAlign r != 0
  | 1 =>
    if isMm r then (1 < p.kb && p.abstr % 64 != 0) || (isFloatMm r && p.sbase % 4 != 0)
    else (r != 13 && p.abstr % baseAlign r != 0) || ((r == 7 || r == 9 || r == 13) && p.sbase % 4 != 0)
  | 2 =>
    if isMm r then p.nt == 0 || arraySide c / 128 < p.nt || 16384 ≤ p.wbase + step
    else r == 10 && 16384 ≤ p.wbase + (p.kb - 1) * p.tstr
  | 3 =>
    if isMm r then
      p.m == 0 || arraySide c < p.m || accRows c < p.row0 + p.m || p.col0 % 128 != 0 || accCols c < p.col0 + 128 * p.nt
    else
      p.m == 0 || p.nc == 0 || accRows c < p.row0 + p.m || accCols c < p.col0 + p.nc || ((r == 7 || r == 9) && p.nc % 128 != 0)
  | 4 => isMm r && p.kb == 0
  | 6 => 16384 ≤ p.wbase + step + p.bdelta
  | _ => false
/-- The first mp register that fails. -/
def firstBadMp (c : CoreId) (r : Nat) (e : QEntry) : Option Nat :=
  (rtRegs r).find? fun i => mpReserved i (mpOf e i) || mpLimit c r (rtParams e) i

/-- Bytes of a row of A in one block. -/
def rowBytes (r : Nat) : Nat := if r = 2 then 64 else 128
/-- Does a byte that routine `r` reads, or that CORR.LOAD or CHK.READ writes, lie above the near scratchpad? -/
def scratchOver (c : CoreId) (r : Nat) (p : RtParam) : Bool :=
  let d := if r = 3 then p.adelta else 0
  if isMm r then
    nspSize c < p.abase + d + (if 1 < p.kb then (p.kb - 1) * p.abstr else 0) + rowBytes r * p.m ||
      (isFloatMm r && nspSize c < p.sbase + d + 4 * p.kb * p.m)
  else match r with
    | 11 => nspSize c < p.abase + 16 * arraySide c
    | 12 => nspSize c < p.abase + 16 * arraySide c + 8
    | 13 => nspSize c < p.sbase + 4 * p.m
    | _ => false

/-! ## Tiles (11 R313, R314) -/

def readLe (rd : Nat → Nat) (a : Nat) : Nat → Nat
  | 0 => 0
  | n + 1 => rd a + 256 * readLe rd (a + 1) n
/-- Bits set among the low `n` of `x`. -/
def popBits (x : Nat) (n : Nat) : Nat := ((List.range n).filter fun i => bitAt x i).length
/-- The end of `n` mask groups from byte `pos` of a tile. -/
def maskedEnd (rd : Nat → Nat) : Nat → Nat → Nat
  | 0, pos => pos
  | n + 1, pos => maskedEnd rd n (pos + 2 + popBits (readLe rd pos 2) 16)

/-- A valid tile's length, MASKED, NIBBLE and SCALE. -/
structure TileHdr where
  len : Nat
  masked : Bool
  nibble : Bool
  scale : Nat
  deriving DecidableEq, Repr
def tileHdr (rd : Nat → Nat) : Option TileHdr :=
  let q0 := readLe rd 0 8
  let masked := bitAt q0 48
  let nibble := bitAt q0 49
  let len := bitsAt q0 32 16
  let want := if masked then maskedEnd rd 1024 16 else if nibble then 8208 else 16400
  if bitsAt q0 50 14 = 0 && readLe rd 8 8 == 0 && !(masked && nibble) && len == want then
    some ⟨len, masked, nibble, bitsAt q0 0 32⟩
  else none

/-- The codes of `n` mask groups from byte `pos`. -/
def maskedCodes (rd : Nat → Nat) : Nat → Nat → List Nat
  | 0, _ => []
  | n + 1, pos =>
    let m := readLe rd pos 2
    (List.range 16).map (fun i => if bitAt m i then rd (pos + 2 + popBits m i) else 0) ++
      maskedCodes rd n (pos + 2 + popBits m 16)
/-- Do the masks of `n` groups from byte `pos` on lie below byte `lim`? -/
def masksFit (rd : Nat → Nat) (lim : Nat) : Nat → Nat → Bool
  | 0, _ => true
  | n + 1, pos => pos + 2 ≤ lim && masksFit rd lim n (pos + 2 + popBits (readLe rd pos 2) 16)
/-- Does a header that is valid but for its LENGTH say MASKED, so that the check of LENGTH reads the masks? -/
def tileMasked (rd : Nat → Nat) : Bool := bitsAt (readLe rd 0 8) 48 16 == 1 && readLe rd 8 8 == 0
/-- The 16,384 element codes of a tile. -/
def tileCodes (rd : Nat → Nat) (h : TileHdr) : List Nat :=
  if h.masked then maskedCodes rd 1024 16
  else if h.nibble then (List.range 16384).map fun e => bitsAt (rd (16 + e / 2)) (4 * (e % 2)) 4
  else (List.range 16384).map fun e => rd (16 + e)

/-- Byte `o` of a tile at unit `u` of the weight buffer. -/
def wbByte (c : Core) (u o : Nat) : Nat := (memGet c.wb (64 * u + o)).toNat

/-- The weight-buffer units of the tiles of an MM routine, with their numbers. -/
def tileUnits (r : Nat) (p : RtParam) : List (Nat × Nat) :=
  (List.range (p.kb * p.nt)).flatMap fun i =>
    let u := p.wbase + i * p.tstr
    if r = 3 then [(i, u), (i, u + p.bdelta)] else [(i, u)]

/-- The status with which a routine's start ends (11 R319), and its detail. -/
def rtCheck (c : Core) (r : Nat) (e : QEntry) : Nat × Nat :=
  let p := rtParams e
  match firstBadMp c.id r e with
  | some i => (1, i)
  | none =>
    if scratchOver c.id r p then (0xB, 0)
    else if !isMm r then (0, 0)
    else
      let bad := (tileUnits r p).find? fun t =>
        match tileHdr (wbByte c t.2) with
        | some h => h.nibble != (r == 2)
        | none => true
      match bad with
      | some t => (0x10, t.1)
      | none =>
        if (tileUnits r p).any fun t => match tileHdr (wbByte c t.2) with
          | some h => 16384 < t.2 + (h.len + 63) / 64
          | none => false then (1, 2) else (0, 0)

/-! ## Operands (07 R203, 11 R305) -/

/-- An operand: its value in units of 2^-9 for E4M3 and of 1 for integers, its NaN, and whether it was a reserved code
with SUBST = 3. -/
structure Opnd where
  v : Int
  nan : Option Val
  seen : Bool
  deriving DecidableEq, Repr
def Opnd.zero : Opnd := ⟨0, none, false⟩

/-- operand_value under the fields `f` of one operand. -/
def operandValue (f c : Nat) : Opnd :=
  if !bitAt f 0 then
    match decodeVal e4m3 c with
    | .fin s n _ e => ⟨(if s then -1 else 1) * (n * 2 ^ (e + 9).toNat : Nat), none, false⟩
    | v => ⟨0, some v, false⟩
  else
    let w := if bitAt f 2 then 4 else 8
    let sub := bitsAt f 3 2
    let c : Nat := c % 2 ^ w
    if bitAt f 1 then ⟨(c : Int), none, false⟩
    else if c = 2 ^ (w - 1) && sub != 0 then
      match sub with
      | 1 => ⟨-((2 ^ (w - 1) - 1 : Nat) : Int), none, false⟩
      | 2 => ⟨0, none, false⟩
      | _ => ⟨0, none, true⟩
    else ⟨(IFmt.mk w true).toInt c, none, false⟩

def efmtA (e : QEntry) : Nat := bitsAt e.efmt.toNat 0 8
def efmtB (e : QEntry) : Nat := bitsAt e.efmt.toNat 8 8

/-- The granules that a routine of core `c` may see as they were before a write: of a copy without a token edge to it, of its own strand or
of a put while it runs (11 R318, 15 R425). -/
def Core.rtOld (c : Core) : List (Nat × Nat) := c.old.map (fun x => (x.1, x.2.1)) ++ c.during
/-- Granule `g` of the near scratchpad as a routine sees it, by a free choice between the values before and after such a write. -/
def State.rtSees (s : State) (id : CoreId) (swz : Bool) (g : Nat) : Nat :=
  pickFrom (((s.getCore id).rtOld.filter (·.1 == g)).map (·.2)) (s.nspSees id swz g) (s.free * 2 ^ 20 + 2 ^ 19 + g)
/-- `n` bytes from linear offset `off`, as a routine reads them. -/
def State.rtRead (s : State) (id : CoreId) (swz : Bool) (off n : Nat) : List Byte :=
  if (s.getCore id).rtOld.isEmpty then s.nspRead id swz off n
  else (List.range n).map fun i => .ofNat 8 (bitsAt (s.rtSees id swz ((off + i) / 8)) (8 * ((off + i) % 8)) 8)
/-- The core before a routine of entry `e`, which is ordered after the copies whose tokens it has consumed (05 R124). -/
def Core.ordered (c : Core) (e : QEntry) : Core := { c with old := dropOld (consumed e.tok).contains c.old }
/-- The state after a routine's reads, which may have met a free choice. -/
def State.rtSeen (s : State) (id : CoreId) : State :=
  if (s.getCore id).rtOld.isEmpty then s.nspSeen id else { s with free := s.free + 1 }

/-- A byte of the near scratchpad in the swizzled view, and an FP32 value in the linear view. -/
def State.swzByte (s : State) (c : CoreId) (o : Nat) : Nat := bytesNat (s.rtRead c true (swizzle o) 1)
def State.scaleAt (s : State) (c : CoreId) (o : Nat) : Nat := bytesNat (s.rtRead c false o 4)

/-- Row `i` of block `b` of A, displaced by `d` bytes. -/
def State.aRow (s : State) (c : CoreId) (r : Nat) (e : QEntry) (b d i : Nat) : Array Opnd :=
  let p := rtParams e
  let o := p.abase + d + (if 0 < b then b * p.abstr else 0) + rowBytes r * i
  ((List.range 128).map fun k =>
    operandValue (efmtA e) (if r = 2 then bitsAt (s.swzByte c (o + k / 2)) (4 * (k % 2)) 4 else s.swzByte c (o + k))).toArray

/-- A B tile: its operands in index order, and its scale. -/
structure BTile where
  ops : Array Opnd
  scale : Nat
  deriving DecidableEq, Repr
def bTile (c : Core) (e : QEntry) (u : Nat) : BTile :=
  match tileHdr (wbByte c u) with
  | some h => ⟨((tileCodes (wbByte c u) h).map (operandValue (efmtB e))).toArray, h.scale⟩
  | none => ⟨#[], 0⟩

/-! ## Promotion (07 R205 to R207, 11 R306, R307) -/

/-- The contribution of block partial `p`, in units of 2^-18, with the block's first NaN (07 Table 07-10). -/
def contribution (nan : Option Val) (p : Int) (sA sB : Nat) : Nat × Flags :=
  let a := decodeVal fp32 sA
  let b := decodeVal fp32 sB
  let pv : Val := .fin (p < 0) p.natAbs 1 (-18)
  match nan with
  | some v => ((roundNe a80 (quietVal v)).1, 0)
  | none =>
    if a.isNan then ((roundNe a80 (quietVal a)).1, when a.isSnan fNV)
    else if b.isNan then ((roundNe a80 (quietVal b)).1, when b.isSnan fNV)
    else if (a.isInf || b.isInf) && (p == 0 || a.isZero || b.isZero) then ((roundNe a80 .dflt).1, fNV)
    else if a.isInf || b.isInf then ((roundNe a80 (.inf ((p < 0) != (a.sign != b.sign)))).1, 0)
    else roundNe a80 (mulVal (mulVal pv a).1 b).1

/-- accumulate(acc, c) of 07 R207. -/
def accumulate (acc c : Nat) : Nat × Flags := fpBin a80 .rne .none addV acc c

/-- What the tile-completion check needs of one entry: its start, what was promoted into it, and what it held after
each promotion (11 R309). -/
structure Trk where
  start : Val
  cs : List Val
  vals : List Val
  deriving DecidableEq, Repr

/-- The engine's state during an MM routine. -/
structure MmSt where
  s : State
  fl : Flags
  seen : Nat
  trk : Array Trk

def int80 (x : Nat) : Int := (IFmt.mk 80 true).toInt x

/-- One promotion into entry `e`, number `i` of the block, whose contribution is `c` (float) or partial is `p`. -/
def promote (float skip : Bool) (id : CoreId) (e i : Nat) (c : Nat × Flags) (p : Int) (m : MmSt) : MmSt :=
  let old := m.s.accEntry id e
  let new : Nat × Flags :=
    if float then (if skip then c else accumulate old c.1) else ((IFmt.mk 80 true).wrap (int80 old + p), 0)
  let s := m.s.routineEntry id e new.1
  let val (x : Nat) : Val := if float then decodeVal a80 x else Val.ofInt (int80 x)
  { m with
    s := s
    fl := m.fl ||| new.2 ||| if float then c.2 else 0
    trk := m.trk.modify i fun t =>
      { start := if skip then .zero false else if t.vals.isEmpty then val old else t.start
        cs := t.cs ++ [if float then decodeVal a80 c.1 else Val.ofInt p]
        vals := t.vals ++ [val (s.accEntry id e)] } }

def sumBy (n : Nat) (f : Nat → Int) : Int := (List.range n).foldl (fun t i => t + f i) 0

/-- One block: rows of A, B tiles, scales (11 R305 to R308, 13 R389). -/
def mmBlock (id : CoreId) (p : RtParam) (float skip : Bool) (rows : Array (Array Opnd)) (tiles : Array BTile)
    (sA : Nat → Nat) (m : MmSt) : MmSt :=
  let n := 128 * p.nt
  let a (i k : Nat) : Opnd := (rows.getD i #[]).getD k Opnd.zero
  let b (k j : Nat) : Opnd := ((tiles.getD (j / 128) ⟨#[], 0⟩).ops).getD (128 * k + j % 128) Opnd.zero
  let k := m.s.getCore id
  let flip (i j : Nat) : Bool := k.injArmed && k.injTarget == 6 && k.injWhere == 256 * i + j
  let hit := (List.range (p.m * n)).any fun x => flip (x / n) (x % n)
  let ra (i : Nat) : Int := sumBy 128 fun k => (a i k).v * (a i k).v
  let cb (j : Nat) : Int := sumBy 128 fun k => (b k j).v * (b k j).v
  let part (i j : Nat) : Int :=
    let d := sumBy 128 fun k => (a i k).v * (b k j).v
    if flip i j then
      let cell := (2 * d + ra i + cb j).toNat ^^^ 2 ^ k.injBit
      ((cell : Int) - ra i - cb j) / 2
    else d
  let nan (i j : Nat) : Option Val :=
    match (List.range 128).findSome? fun k => (a i k).nan with
    | some v => some v
    | none => (List.range 128).findSome? fun k => (b k j).nan
  let aSum (k : Nat) : Int := sumBy p.m fun i => (a i k).v
  let aSq (k : Nat) : Int := sumBy p.m fun i => (a i k).v * (a i k).v
  let bSum (k : Nat) : Int := sumBy n fun j => (b k j).v
  let bSq (k : Nat) : Int := sumBy n fun j => (b k j).v * (b k j).v
  let seenA := (List.range p.m).any fun i => (List.range 128).any fun k => (a i k).seen
  let seenB := (List.range n).any fun j => (List.range 128).any fun k => (b k j).seen
  let s := m.s.updCore id fun c =>
    { c with
      corrRow := (List.range p.m).map ra
      corrCol := (List.range n).map cb
      chkCol := (List.range n).map fun j => sumBy 128 fun k => aSq k + 2 * (b k j).v * aSum k + p.m * ((b k j).v * (b k j).v)
      chkRow := (List.range p.m).map fun i => sumBy 128 fun k => n * ((a i k).v * (a i k).v) + 2 * (a i k).v * bSum k + bSq k
      blockCmps := c.blockCmps + 1 }
  let s := if hit then s.inject id 5 else s
  let m := { m with s := s, seen := m.seen ||| (if seenA then 1 else 0) ||| (if seenB then 2 else 0) }
  (List.range (p.m * n)).foldl (fun m x =>
    let i := x / n
    let j := x % n
    let e := (p.row0 + i) * accCols id + p.col0 + j
    let d := part i j
    promote float skip id e x (if float then contribution (nan i j) d (sA i) (tiles.getD (j / 128) ⟨#[], 0⟩).scale else (0, 0)) d m) m

/-! ## The tile-completion check (11 R309) -/

/-- A finite value in units of 2^-16600. -/
def valUnits : Val → Int
  | .fin s n _ e => (if s then -1 else 1) * (n * 2 ^ (e + 16600).toNat : Nat)
  | _ => 0
def sumUnits (l : List Val) : Int := l.foldl (fun t v => t + valUnits v) 0
def notFinite (v : Val) : Bool := v.isNan || v.isInf

/-- The check of one row or column with `q` promotions into each entry. The integer check is exact in all 80 bits of an entry: R309
compares modulo 2^64, and an inversion that R389 makes is always detected (log 100). -/
def lineOk (float : Bool) (q : Nat) (l : List Trk) : Bool :=
  let t := sumUnits (l.map fun x => x.vals.getLastD x.start)
  let u := sumUnits (l.map (·.start)) + sumUnits (l.flatMap (·.cs))
  let d := (t - u).natAbs
  if float then
    l.any (fun x => notFinite x.start || x.cs.any notFinite || x.vals.any notFinite) ||
      d * 2 ^ 64 ≤ q * (l.map fun x => (x.vals.map fun v => (valUnits v).natAbs).foldl max 0).sum + q * l.length * 2 ^ 218
  else d % 2 ^ 16680 == 0
/-- The check of `m` rows and `n` columns. -/
def tileOk (float : Bool) (q m n : Nat) (t : Array Trk) : Bool :=
  let at' (i j : Nat) : Trk := t.getD (i * n + j) ⟨.zero false, [], []⟩
  (List.range m).all (fun i => lineOk float q ((List.range n).map fun j => at' i j)) &&
    (List.range n).all fun j => lineOk float q ((List.range m).map fun i => at' i j)

/-! ## The routines -/

/-- The near-scratchpad bytes that a routine reads meet an injection of target 4. -/
def State.injReads (s : State) (id : CoreId) (offs : List Nat) : State :=
  let c := s.getCore id
  let w := c.injWhere - c.injWhere % 8
  if c.injArmed && c.injTarget == 4 && offs.any fun o => w ≤ o && o < w + 8 then s.inject id 4 else s

/-- The blocks of an MM routine: block, displacement of A, displacement of B (11 R323, R325). -/
def mmBlocks (r : Nat) (p : RtParam) : List (Nat × Nat × Nat) :=
  (List.range p.kb).flatMap fun b =>
    if r = 3 then [(b, 0, 0), (b, 0, p.bdelta), (b, p.adelta, 0)] else [(b, 0, 0)]

/-- The first `n` blocks of MM routine `r` of entry `e` on core `id`. -/
def runMm (s : State) (id : CoreId) (r : Nat) (e : QEntry) (n : Nat) : MmSt :=
  let p := rtParams e
  let float := isFloatMm r
  ((mmBlocks r p).take n).foldl (fun m x =>
    let b := x.1
    let c := m.s.getCore id
    let rows := ((List.range p.m).map fun i => m.s.aRow id r e b x.2.1 i).toArray
    let tiles := ((List.range p.nt).map fun t => bTile c e (p.wbase + (b * p.nt + t) * p.tstr + x.2.2)).toArray
    let offs := (List.range (rowBytes r * p.m)).map fun o => swizzle (p.abase + x.2.1 + b * p.abstr + o)
    let scales := (List.range (if float then 4 * p.m else 0)).map fun o => p.sbase + x.2.1 + 4 * (b * p.m) + o
    let m := { m with s := m.s.injReads id (offs ++ scales) }
    mmBlock id p float (r == 14 && b == 0) rows tiles
      (fun i => if float then m.s.scaleAt id (p.sbase + x.2.1 + 4 * (b * p.m + i)) else 0) m)
    ⟨s, 0, 0, Array.replicate (p.m * 128 * p.nt) ⟨.zero false, [], []⟩⟩

/-- The entries of a region, with their row and column in it. -/
def regionOf (c : CoreId) (p : RtParam) : List (Nat × Nat × Nat) :=
  (List.range p.m).flatMap fun i => (List.range p.nc).map fun j => (i, j, (p.row0 + i) * accCols c + p.col0 + j)

/-- What a routine leaves: the state, flags, SUBST codes seen, status and detail, and the verdict of its tile check. -/
structure RtOut where
  s : State
  fl : Flags
  seen : Nat
  status : Nat
  detail : Nat
  tile : Option Bool

def RtOut.plain (s : State) : RtOut := ⟨s, 0, 0, 0, 0, none⟩

/-- ACC.ZERO (11 R326, R309). -/
def runZero (s : State) (id : CoreId) (e : QEntry) : RtOut :=
  let l := (regionOf id (rtParams e)).map (·.2.2)
  let s := l.foldl (fun s x => s.routineEntry id x 0) s
  { RtOut.plain s with tile := some (l.all fun x => s.accEntry id x == 0) }

/-- A write of a drain: an offset, whether it is in the swizzled view, bytes, flags. -/
structure DrainWr where
  off : Nat
  swz : Bool
  bytes : List Byte
  fl : Flags
  deriving DecidableEq, Repr
/-- The writes of a drain in order, up to one that lies above the near scratchpad (11 R319). -/
def drainAll (id : CoreId) : List DrainWr → RtOut → RtOut
  | [], o => o
  | w :: r, o =>
    if nspSize id < w.off + w.bytes.length then { o with status := 0xB }
    else
      drainAll id r { o with s := o.s.nspWrite id w.swz (if w.swz then swizzle w.off else w.off) w.bytes, fl := o.fl ||| w.fl }

/-- The direct drains (11 R326). -/
def runDrain (s : State) (id : CoreId) (r : Nat) (e : QEntry) : RtOut :=
  let p := rtParams e
  let size := baseAlign r
  let conv (x : Nat) : Nat × Flags :=
    match r with
    | 5 => convert fp32 .rne .none (decodeVal a80 x)
    | 6 => convert bf16 .rne .none (decodeVal a80 x)
    | _ => ((IFmt.mk 32 true).wrap ((IFmt.mk 32 true).clamp (int80 x)), 0)
  drainAll id ((regionOf id p).map fun x =>
    let y := conv (s.accEntry id x.2.2)
    ⟨p.abase + x.1 * p.abstr + x.2.1 * size, false, natBytes y.1 size, y.2⟩) (RtOut.plain s)

/-- The scale and codes of a group of entries (11 R327). -/
def quantise (l : List Nat) : Nat × List (Nat × Flags) :=
  let vs := l.map (decodeVal a80)
  match firstNan vs with
  | some n => ((roundNe fp32 (quietVal n)).1, l.map fun _ => (0x7F, 0))
  | none =>
    let m := vs.foldl (fun m v => if cmpVal m v.abs == .lt then v.abs else m) (Val.zero false)
    let sc := if m.isZero then 0x3F800000 else (convert fp32 .rup .none (divVal m (Val.ofInt 448)).1).1
    (sc, vs.map fun v => convert e4m3 .rne .sat (if v.isInf then v else (divVal v (decodeVal fp32 sc)).1))

/-- ACC.DRAIN.FP8 and ACC.TOA (11 R327); the codes of a group before its scale. -/
def runQuant (s : State) (id : CoreId) (r : Nat) (e : QEntry) : RtOut :=
  let p := rtParams e
  drainAll id ((List.range p.m).flatMap fun i => (List.range (p.nc / 128)).flatMap fun g =>
    let q := quantise ((List.range 128).map fun c => s.accEntry id ((p.row0 + i) * accCols id + p.col0 + 128 * g + c))
    let sOff := if r = 7 then p.sbase + 4 * (i * (p.nc / 128) + g) else p.sbase + 4 * (g * p.m + i)
    ((List.range 128).map fun c =>
      let y := q.2.getD c (0, 0)
      DrainWr.mk (if r = 7 then p.abase + i * p.abstr + 128 * g + c else p.abase + g * p.abstr + 128 * i + c) (r == 9)
        (natBytes y.1 1) y.2) ++ [DrainWr.mk sOff false (natBytes q.1 4) 0]) (RtOut.plain s)

/-- ACC.SCALEROW (11 R326, R309). -/
def runScaleRow (s : State) (id : CoreId) (e : QEntry) : RtOut :=
  let p := rtParams e
  let s := s.injReads id ((List.range (4 * p.m)).map (p.sbase + ·))
  let r := (regionOf id p).foldl (fun (acc : State × Flags × List Trk) x =>
    let old := acc.1.accEntry id x.2.2
    let v := scaledVal (decodeVal a80 old) (decodeVal fp32 (acc.1.scaleAt id (p.sbase + 4 * x.1)))
    let y := convert a80 .rne .none v.1
    let s := acc.1.routineEntry id x.2.2 y.1
    (s, acc.2.1 ||| v.2 ||| y.2, acc.2.2 ++ [⟨.zero false, [v.1], [decodeVal a80 (s.accEntry id x.2.2)]⟩])) (s, 0, [])
  { RtOut.plain r.1 with fl := r.2.1, tile := some (tileOk true 1 p.m p.nc r.2.2.toArray) }

/-- WB.LOAD from tile `t` at linear offset `src`, `n` tiles (11 R328). A mask above the near scratchpad ends it with SCRATCH_RANGE, before
LENGTH is judged (log 111). -/
def wbLoadFrom (id : CoreId) (p : RtParam) : Nat → Nat → Nat → State → RtOut
  | 0, _, _, s => RtOut.plain s
  | n + 1, t, src, s =>
    let byte (o : Nat) : Nat := bytesNat (s.rtRead id false (src + o) 1)
    let fail (status detail : Nat) : RtOut := { RtOut.plain s with status := status, detail := detail }
    if nspSize id < src + 16 || (tileMasked byte && !masksFit byte (nspSize id - src) 1024 16) then fail 0xB 0
    else match tileHdr byte with
      | none => fail 0x10 t
      | some h =>
        let units := (h.len + 63) / 64
        if 1 < p.kb && p.tstr < units then fail 1 2
        else if 16384 < p.wbase + t * p.tstr + units then fail 1 2
        else if nspSize id < src + h.len then fail 0xB 0
        else
          let l := s.rtRead id false src h.len
          let s := s.injReads id ((List.range h.len).map (src + ·))
          wbLoadFrom id p n (t + 1) (src + 64 * units)
            (s.updCore id fun c => { c with wb := memPutBytes c.wb (64 * (p.wbase + t * p.tstr)) l })

/-- CORR.LOAD and CHK.READ (11 R329). -/
def runRead (s : State) (id : CoreId) (r : Nat) (e : QEntry) : RtOut :=
  let n := arraySide id
  let c := s.getCore id
  let word (l : List Int) (i : Nat) : Nat := (IFmt.mk 64 true).wrap (l.getD i 0)
  let l : List Nat :=
    if r = 11 then (List.range n).map (word c.corrRow) ++ (List.range n).map (word c.corrCol)
    else (List.range n).map (word c.chkCol) ++ (List.range n).map (word c.chkRow) ++
      [c.tileCmps % 2 ^ 32 * 2 ^ 32 + c.blockCmps % 2 ^ 32]
  RtOut.plain (s.nspWrite id false (rtParams e).abase (l.flatMap fun x => natBytes x 8))

/-- Routine `r` of entry `e` as a whole. -/
def runRoutine (s : State) (id : CoreId) (r : Nat) (e : QEntry) : RtOut :=
  let p := rtParams e
  if isMm r then
    let q := if r = 3 then 3 * p.kb else p.kb
    let m := runMm s id r e q
    { RtOut.plain m.s with fl := m.fl, seen := m.seen, tile := some (tileOk (isFloatMm r) q p.m (128 * p.nt) m.trk) }
  else match r with
    | 4 => runZero s id e
    | 5 | 6 | 8 => runDrain s id r e
    | 7 | 9 => runQuant s id r e
    | 10 => wbLoadFrom id p p.kb 0 p.abase s
    | 11 | 12 => runRead s id r e
    | 13 => runScaleRow s id e
    | _ => RtOut.plain s

/-- The routine that an entry calls. -/
def routineOf (e : QEntry) : Option Nat := match e.op with | .mcall r _ _ _ => some r.toNat | _ => none

/-- The started routine of the core, where it is `r` and has not run yet. -/
def Core.pendingRt (c : Core) (r : Nat) : Option XmRun :=
  match c.xmRun with
  | some x => if routineOf x.ent = some r && !x.ran && x.status == 0 then some x else none
  | none => none

/-- Routine `r` performs on core `id`. -/
def doRoutine (name : String) (r : Nat) (id : CoreId) (s : State) : Out :=
  let s := s.focus id
  match s.core.pendingRt r with
  | none => .fault (.notEnabled name)
  | some x =>
    let s := (s.updCore id (·.ordered x.ent)).rtSeen id
    let o := runRoutine s id r x.ent
    .next (o.s.updCore id fun c =>
      { c with
        during := []
        xmRun := some { x with ran := true, status := o.status, detail := o.detail, fl := o.fl, seen := o.seen, tile := o.tile } })

/-- MM.FP8 (11 R323). -/
def execMmFp8 (c : CoreId) (s : State) : Out := doRoutine "MM_FP8" 0 c s
/-- MM.INT8 (11 R323). -/
def execMmInt8 (c : CoreId) (s : State) : Out := doRoutine "MM_INT8" 1 c s
/-- MM.INT4 (11 R323). -/
def execMmInt4 (c : CoreId) (s : State) : Out := doRoutine "MM_INT4" 2 c s
/-- MM.BF16X3 (11 R325). -/
def execMmBf16x3 (c : CoreId) (s : State) : Out := doRoutine "MM_BF16X3" 3 c s
/-- MM.FP8.ACCSKIP (11 R324). -/
def execMmFp8Accskip (c : CoreId) (s : State) : Out := doRoutine "MM_FP8_ACCSKIP" 14 c s
/-- ACC.ZERO (11 R326). -/
def execAccZero (c : CoreId) (s : State) : Out := doRoutine "ACC_ZERO" 4 c s
/-- ACC.DRAIN.F32 (11 R326). -/
def execAccDrainF32 (c : CoreId) (s : State) : Out := doRoutine "ACC_DRAIN_F32" 5 c s
/-- ACC.DRAIN.BF16 (11 R326). -/
def execAccDrainBf16 (c : CoreId) (s : State) : Out := doRoutine "ACC_DRAIN_BF16" 6 c s
/-- ACC.DRAIN.I32 (11 R326). -/
def execAccDrainI32 (c : CoreId) (s : State) : Out := doRoutine "ACC_DRAIN_I32" 8 c s
/-- ACC.DRAIN.FP8 (11 R327). -/
def execAccDrainFp8 (c : CoreId) (s : State) : Out := doRoutine "ACC_DRAIN_FP8" 7 c s
/-- ACC.TOA (11 R327). -/
def execAccToa (c : CoreId) (s : State) : Out := doRoutine "ACC_TOA" 9 c s
/-- ACC.SCALEROW (11 R326). -/
def execAccScalerow (c : CoreId) (s : State) : Out := doRoutine "ACC_SCALEROW" 13 c s
/-- WB.LOAD (11 R328). -/
def execWbLoad (c : CoreId) (s : State) : Out := doRoutine "WB_LOAD" 10 c s
/-- CORR.LOAD (11 R329). -/
def execCorrLoad (c : CoreId) (s : State) : Out := doRoutine "CORR_LOAD" 11 c s
/-- CHK.READ (11 R329). -/
def execChkRead (c : CoreId) (s : State) : Out := doRoutine "CHK_READ" 12 c s
/-- NOP (11 R330). -/
def execNopRoutine (c : CoreId) (s : State) : Out := doRoutine "NOP_ROUTINE" 15 c s

/-! ## MLDSTORE (11 R316, R336) -/

/-- Bytes of an image, read under the leaf's right alone; where no access reaches them they end it as a page without the right does
(log 71). `fuel` bounds the pages. -/
def State.imageBytes (s : State) (c : CoreId) (ctx : Nat) : Nat → Nat → Nat → Reach (List Byte)
  | 0, _, _ => .got []
  | fuel + 1, va, n =>
    let k := min n (0x8000 - va % 0x8000)
    match s.reachVa c ctx (canonVa va) (·.r) with
    | .absent va => .absent va
    | .wait => .wait
    | .early x => .early x
    | .late x t => .late x t
    | .got pa =>
        let x := s.rdBytes pa k
        if (s.outOfReach pa).isSome then .early 6
        else if s.switching pa then .wait
        else if n ≤ k then .got x
        else match s.imageBytes c ctx fuel (va + k) (n - k) with
          | .got y => .got (x ++ y)
          | z => z

/-- The routine-image header (11 Table 11-3): index, version, ACCEPT, length. -/
def routineHdr (l : List Byte) : Option (Nat × Nat × Nat × Nat) :=
  let q (i : Nat) : Nat := bytesNat ((l.drop (8 * i)).take 8)
  let len := bitsAt (q 1) 0 32
  if bitsAt (q 0) 48 16 ≠ 0 && bitsAt (q 0) 40 8 < 64 && bitsAt (q 0) 32 8 == 1 && bitsAt (q 0) 0 32 == 0x5452574F &&
      bitsAt (q 1) 36 28 == 0 && bitsAt (q 1) 32 4 != 0 && len % 64 == 0 && 64 ≤ len && len ≤ 65536 &&
      (List.range 6).all (fun i => q (2 + i) == 0) then
    some (bitsAt (q 0) 40 8, bitsAt (q 0) 48 16, bitsAt (q 1) 32 4, len)
  else none

/-- Does a signature over `l` hold (02 R55): its digest is that of `l`, its reserved bytes are zero, and Rhoath finds the SM2
signature good (log 8)? -/
def sigHolds (l sig : List Byte) : Bool :=
  bytesNat ((sig.drop 8).take 32) == Config.sm3 l && bytesNat ((sig.drop 2).take 6) == 0 &&
    bytesNat ((sig.drop 104).take 24) == 0 && Config.signatureHolds (l ++ sig)

/-- What an MLDSTORE finds: a status with its detail, an absent page, a bank that is being switched (04 R96), or a routine to install. -/
inductive Mld where
  | status (n detail : Nat)
  | absent (va : Nat)
  | wait
  | install (slot version accept digest : Nat)
  deriving DecidableEq, Repr
def State.mldCheck (s : State) (c : CoreId) (ctx : Nat) (e : QEntry) : Mld :=
  let va := e.a.toNat
  if !isCanon va then .status 7 0
  else match s.imageBytes c ctx 2 va 64 with
    | .absent w => .absent w
    | .wait => .wait
    | .got h =>
      (match routineHdr h with
      | none => .status 1 9
      | some (ix, v, acc, len) =>
        match s.imageBytes c ctx 5 va (64 + len + 128) with
        | .absent w => .absent w
        | .wait => .wait
        | .got l =>
          if v ≤ (match (s.die c.die).directory.find? (·.1 == ix) with | some x => x.2.1 | none => 0) then .status 1 9
          else if sigHolds (l.take (64 + len)) (l.drop (64 + len)) && Config.gwynnosKey (bytesNat ((l.drop (64 + len)).take 2)) then
            .install ix v acc (Config.sm3 (l.take (64 + len)))
          else .status 0x11 0
        | _ => .status 6 0)
    | _ => .status 6 0

/-- The records of an MLDSTORE that an absent page holds (09 R243, R253). -/
def State.mldAbsent (s : State) (c : CoreId) (st : Strand) (va : Nat) : State :=
  let m := s.coreMaster c 0
  (s.badPteRec c.die st.ctx va (s.walkVa st.ctx va) m).faultRec c.die st.ctx 0x01 va 0 st.lcore m

/-! ## The XM queue (05 R124, 11 R317, R319, R334, R335) -/

/-- ROW0 and M of MCHK and MCLR. -/
def chkRows (c : CoreId) (e : QEntry) : Option (Nat × Nat) :=
  let r := bitsAt e.a.toNat 0 9
  let m := bitsAt e.a.toNat 16 9
  if m = 0 || accRows c < r + m then none else some (r, m)
/-- The signature of a row as its entries stand (11 R310). -/
def State.rowFold (s : State) (c : CoreId) (r : Nat) : Word :=
  (List.range (accCols c)).foldl (fun t j => t + foldEntry (s.accEntry c (r * accCols c + j))) 0

/-- The wall horizon that a finished XM operation leaves (13 R384). -/
def xmHorizon (e : QEntry) : Nat :=
  match routineOf e with
  | some r => if isMm r || r == 4 || r == 13 then 600 else 24
  | none => match e.op with | .mchk .. => 0 | _ => 24
/-- The core after the token of XM entry `e` has stopped pending. -/
def Core.xmDone (c : Core) (e : QEntry) : Core :=
  let c := c.tokenOver e
  if e.inst ≠ c.inst.id then c
  else { c with inst := { c.inst with wallHorizon := max c.inst.wallHorizon (c.wall + xmHorizon e) } }

/-- The core with room for the next XM entry: its predecessor's token has stopped pending, or it is an MM routine whose last
block has entered drain (05 R124). -/
def Core.xmRoom (c : Core) : Option Core :=
  match c.xmRun with
  | none => some c
  | some r =>
    if r.ran && r.status == 0 && (match routineOf r.ent with | some n => isMm n | none => false) then
      some { c with xmRun := none, xmDrain := c.xmDrain ++ [r] }
    else none

/-- XM_ENTRY_START: the head of the XM queue starts; its parameters are checked. A routine that MLDSTORE installed has
no content here. -/
def execXmEntryStart (id : CoreId) (s : State) : Out :=
  let s := s.focus id
  let c := s.core
  match c.xmq, c.xmRoom, c.strand with
  | e :: rest, some c', some st =>
    let s := s.onCore fun _ => c'
    if !c.depsDone e || c.stopping.isSome then .fault (.notEnabled "XM_ENTRY_START")
    else
      let run : XmRun := { ent := e, ran := false, status := 0, detail := 0, fl := 0, seen := 0, tile := none, hold := none }
      let start (s : State) (r : XmRun) : Out := .next (s.onCore fun c => { c with xmq := rest, xmRun := some r, during := [] })
      match e.op with
      | .mcall r _ _ _ =>
        if !(c.store.any fun x => x.1 == r.toNat && shipped.contains x) then .refused (.microcodeNotSpecified r.toNat)
        else
          let k := rtCheck c r.toNat e
          start s { run with ran := k.1 != 0, status := k.1, detail := k.2 }
      | .mchk .. | .mclr .. =>
        if (chkRows id e).isNone then start s { run with ran := true, status := 1, detail := 8 } else start s { run with ran := true }
      | .mldstore .. =>
        match s.mldCheck id st.ctx e with
        | .absent va => start (s.mldAbsent id st va) { run with hold := some va }
        | _ => start s run
      | _ => .next (s.wallNow.onCore fun c => { c with xmq := rest }.xmDone e)
  | _, _, _ => .fault (.notEnabled "XM_ENTRY_START")

/-- The opcode of an XM operation (11 Table 11-10). -/
def xmOpcode : Instr → Nat
  | .mcall .. => 0 | .mfmt .. => 1 | .mchk .. => 2 | .mclr .. => 3 | _ => 4

/-- The traps of an XM operation as its token stops pending (11 R337), in ascending code (13 R374). -/
def State.xmTraps (s : State) (id : CoreId) (r : XmRun) : State :=
  let en := (s.getCore id).enabledFlags &&& r.fl
  let s := s.updCore id fun c => { c with flags := c.flags ||| r.fl.setWidth 64 }
  let s := if en ≠ 0 then s.asyncTrap id ⟨.arith, r.fl.setWidth 64, 0⟩ else s
  let s := if r.status ≠ 0 then
    s.asyncTrap id ⟨.matrixStatus, .ofNat 64 (r.status * 2 ^ 24 + r.ent.tok.pt.toNat * 2 ^ 18 + xmOpcode r.ent.op * 2 ^ 12 + r.detail), 0⟩
    else s
  if r.seen ≠ 0 then s.asyncTrap id ⟨.reservedCode, .ofNat 64 r.seen, 0⟩ else s

/-- ROUTINE_COMPLETE: a started XM operation has taken effect; its token stops pending and its flags and traps are
raised. -/
def execRoutineComplete (id : CoreId) (s : State) : Out :=
  let s := s.focus id
  match s.core.xmDrain.head?.or s.core.xmRun, s.core.strand with
  | some r, some st =>
    let done (s : State) (r : XmRun) : Out :=
      let s := s.wallNow.onCore fun c =>
        { (if c.xmDrain.isEmpty then { c with xmRun := none } else { c with xmDrain := c.xmDrain.tail }).xmDone r.ent with
          tiles := c.tiles ++ r.tile.toList }
      .next (s.xmTraps id r)
    match r.ent.op with
    | .mcall .. => if r.ran then done s r else .fault (.notEnabled "ROUTINE_COMPLETE")
    | .mldstore .. =>
      if r.hold.isSome then .fault (.notEnabled "ROUTINE_COMPLETE")
      else (match s.mldCheck id st.ctx r.ent with
        | .status n d => done s { r with status := n, detail := d }
        | .wait => .fault (.notEnabled "ROUTINE_COMPLETE")
        | .absent va => .next ((s.mldAbsent id st va).onCore fun c => { c with xmRun := some { r with hold := some va } })
        | .install slot v acc dig =>
          done { s with
            nextId := s.nextId + 1
            effects := s.effects ++ [{ id := s.nextId, core := id, task := some st.task, gang := st.gang, lcore := st.lcore
                                       ctx := st.ctx, inst := r.ent.inst, committed := false, acked := false
                                       kind := .install slot v acc dig }] } r)
    | op =>
      match chkRows id r.ent, r.status with
      | some (r0, m), 0 =>
        let rows := (List.range m).map (r0 + ·)
        (match op with
        | .mclr .. => done (s.onCore fun c => rows.foldl (fun c x => c.setSig x (s.rowFold id x)) c) r
        | _ =>
          let bad := rows.filter fun x => s.core.sig x != s.rowFold id x
          done { s with inputs := s.inputs ++ bad.map fun _ => .detectorEvent id 7 0 } r)
      | _, _ => done s r
  | _, _ => .fault (.notEnabled "ROUTINE_COMPLETE")

/-- TILE_COMPLETION_CHECK: the next check that a routine left is made; one that fails is reported (11 R309, R311). -/
def execTileCompletionCheck (id : CoreId) (s : State) : Out :=
  let s := s.focus id
  match s.core.tiles with
  | [] => .fault (.notEnabled "TILE_COMPLETION_CHECK")
  | ok :: rest =>
    let s := s.onCore fun c => { c with tiles := rest, tileCmps := c.tileCmps + 1, injected := if ok then c.injected else c.injected ++ [6] }
    .next (if ok then s else { s with inputs := s.inputs ++ [.detectorEvent id 6 0] })

/-- ROUTINE_INSTALL: Rhoath installs a committed routine in the directory of the die (11 R315, R336). -/
def execRoutineInstall (id : Nat) (s : State) : Out :=
  match s.effects.find? fun e => e.id == id && e.committed with
  | some e =>
    (match e.kind with
    | .install slot v acc dig =>
      .next ({ s with effects := s.effects.filter (·.id != id) }.updDie e.core.die fun d =>
        { d with directory := (d.directory.filter fun x : Routine => x.1 != slot) ++ [(slot, v, acc)]
                 digests := (slot, dig) :: d.digests.filter (·.1 != slot) })
    | _ => .fault (.notEnabled "ROUTINE_INSTALL"))
  | none => .fault (.notEnabled "ROUTINE_INSTALL")

end Sys2Proof.Machine
end

