-- ==== Sys2Proof/Machine/Save.lean ====
section
/-! DEFINITION. Detector events and the retirement of a core, the save area, the resumption and the load of strands
(13 R387 to R397, 14 R399, R400, 06 R140, R147). -/

namespace Sys2Proof.Machine

/-! ## Detector events (13 R387, R388, 14 R399) -/

/-- The routine of the open instance stopped at its next block boundary: the promotions of its first `n` blocks stay. -/
def State.partialRoutine (s : State) (n : Nat) : State :=
  match s.core.xmRun with
  | some r =>
    match routineOf r.ent with
    | some k =>
      if isMm k && !r.ran && r.status == 0 && r.ent.inst == s.core.inst.id then (runMm s s.core.id k r.ent n).s else s
    | none => s
  | none => s

/-- Would an event be the 16th within 2^30 wall ticks (R388)? -/
def Core.sixteenth (c : Core) : Bool := 15 ≤ (c.events.filter fun t => c.wall < t + 2 ^ 30).length

/-- A gang is asked to stop, with every gang of its task where that is a superstep task (03 R79). -/
def State.stopWith (s : State) (t : TaskId) (g : Nat) : State :=
  match s.findTask t with
  | some x => if x.isSuper then x.gangs.foldl (fun s y => s.askStop t y.idx) s else s.askStop t g
  | none => s

/-- The focus core retires: its strand stops with REASON RETIRE, or its task ends where the pool has no slot; the other
strands of the gang are asked to stop (14 R399, 13 R393). -/
def State.retireCore (s : State) (st : Strand) (num : Nat) : State :=
  let id := s.core.id
  let own := (s.slotless st).filter (· == st.lcore)
  let slots := match s.reserveSlots with
    | some x => some x
    | none => s.takeSlots st own
  let s := match slots with
    | some x => x.onCore fun c => { c with stopping := some 3 }
    | none => s.endTask st.task 7 num st.gang
  let s := s.updDie id.die fun x => x.setReg 0 (x.reg 0 ||| .ofNat 64 (2 ^ (32 + id.num)))
  let s : State := { s with rhoath := { s.rhoath with retired := (id.die, id.num) :: s.rhoath.retired.filter (· != (id.die, id.num)) } }
  let s := s.faultRec id.die st.ctx 0x10 0 0 id.num (s.coreMaster id 0)
  s.stopWith st.task st.gang

/-- DETECTOR_EVENT: detector `num` reports a fault of the open instance; a routine of it that runs has completed `blocks`
blocks. The instance is discarded and replayed, the core retires, or the task ends. The report of a planted fault, known by its detector,
does not count toward the 16 events (R389). -/
def execDetectorEvent (id : CoreId) (num blocks : Nat) (s : State) : Out :=
  let s := s.focus id
  let c := s.core
  match c.strand with
  | none => .fault (.notEnabled "DETECTOR_EVENT")
  | some st =>
    if c.ended || c.stopping.isSome || num = 0 || 7 < num then .fault (.notEnabled "DETECTOR_EVENT")
    else
      let planted := c.injected.contains num
      let s := s.wallNow
      let esc := bitsAt c.rcvstat.toNat 0 2 == c.retryLimit || (!planted && s.core.sixteenth)
      let s := s.onCore fun c =>
        { c with injected := c.injected.erase num, events := if planted then c.events else c.wall :: c.events }
      if !c.recovEn then .next (s.endTask st.task 7 num st.gang)
      else
        let s := (s.partialRoutine blocks).discard id
        if esc then .next (s.retireCore st num)
        else .next (s.onCore fun c => { c with rcvstat := c.rcvstat + 1 + .ofNat 64 (2 ^ 32) })

/-- The blocks of the running routine that are complete at a stop whose place the spec leaves open (13 R387, log 2). -/
def State.partialStop (s : State) : State :=
  match s.core.xmRun.bind fun r => routineOf r.ent with
  | some _ => s.draw.2.partialRoutine (Config.choose s.draw.1 % 2 ^ 18)
  | none => s
/-- STOP_DEADLINE: the deadline of PAUSECFG has passed; the open instance is discarded, or the wait of a barrier or
drain is kept (13 R390). -/
def execStopDeadline (id : CoreId) (s : State) : Out :=
  let s := s.focus id
  let c := s.core
  if !c.stop || c.strand.isNone || c.ended || c.stopping.isSome then .fault (.notEnabled "STOP_DEADLINE")
  else
    match s.reserveSlots with
    | none => .fault (.notEnabled "STOP_DEADLINE")
    | some s => .next ((s.wallNow.partialStop.discard id).onCore fun c => { c with stopping := some 2 })

/-! ## The save area (13 R391 to R394) -/

/-- The memory with the `n` bytes from `a` copied to `b`; the ranges do not meet. -/
def memMove (m : List Host.Cell) (a n b : Nat) : List Host.Cell :=
  let src := (m.filter fun c => a ≤ c.1 && c.1 < a + n).map fun c => (c.1 - a + b, c.2)
  (m.filter fun c => c.1 < b) ++ src ++ m.filter fun c => b + n ≤ c.1

/-- Memory `m` with the `n` bytes from `a` as they stand in `old`. -/
def memKeep (m old : List Host.Cell) (a n : Nat) : List Host.Cell :=
  (m.filter fun c => c.1 < a) ++ (old.filter fun c => a ≤ c.1 && c.1 < a + n) ++ m.filter fun c => a + n ≤ c.1
/-- The pages of the slot at `b` that no access reaches, with the reason: those that count as reserved, on a die that does not answer,
or in a private memory or a register window (01 R32, R33, 14 R409, R413; log 14). -/
def State.slotBad (s : State) (b : Nat) : List (Verdict × Nat) :=
  ((List.range 256).map fun i => b + 0x8000 * i).filterMap fun a =>
    match s.outOfReach a, placeOf a with
    | some v, _ => some (v, a)
    | none, .dram | none, .deep | none, .bank .. => if s.inMirror a then some (.badPa, a) else none
    | none, _ => some (.badPa, a)
/-- Is a bank of the slot being switched (04 R96)? -/
def State.slotSwitching (s : State) (b : Nat) : Bool := (List.range 16).any fun i => s.switching (b + 0x80000 * i)
/-- The records of the pages of a slot that refuse an access of core `id` (R33). -/
def State.slotRecs (s : State) (id : CoreId) (ctx : Nat) (n : Need) (l : List (Verdict × Nat)) : State :=
  let w : Who := { chip := s.rhoath.chip, die := id.die.code, kind := 0, unit := id.num, ctx := ctx }
  l.foldl (fun s x => s.refusal id.die w n 0 x.2 x.1) s
/-- Memory `m` in which a slot at `b` has been written, as it takes effect: not on the pages `bad`, with valid seals, and on the
mirror too where the slot is protected (09 R267, 14 R409, R410, R413). -/
def State.slotMem (s : State) (b : Nat) (bad : List Nat) (m : List Host.Cell) : State :=
  let keep (m : List Host.Cell) (off : Nat) : List Host.Cell := bad.foldl (fun m a => memKeep m s.mem (a - b + off) 0x8000) m
  let m := keep m b
  let m := match paDie b with
    | some d =>
      (match (s.die d).mirror (b % 2 ^ 49) with
      | some (base, dest) => if (s.die d.twin).removed then m
        else
          let o := dieBase d.twin + dest + (b % 2 ^ 49 - base)
          keep (memMove m b (2 ^ 23) o) o
      | none => m)
    | none => m
  let good := ((List.range 256).map fun i => b + 0x8000 * i).filter fun a => !bad.contains a
  { s with mem := m, badSeal := if s.badSeal.isEmpty then [] else good.foldl (fun l a => cutSectors (a / 32) (a / 32 + 1024) l) s.badSeal }

/-- Values written at offsets from `b`: offset, bytes, value. -/
def State.putAt (s : State) (b : Nat) (l : List (Nat × Nat × Nat)) : State :=
  { s with mem := l.foldl (fun m x => memPut m (b + x.1) x.2.2 x.2.1) s.mem }

/-- The physical base of the slot of a strand (R393). -/
def State.slotBase (s : State) (d : DieId) (t : TaskId) (g l : Nat) : Option Nat :=
  ((s.die d).slots.find? fun x => x.2.1 == t && x.2.2.1 == g && x.2.2.2 == l).map fun x =>
    (bitsAt (s.reg d 0xA500) 23 29 + x.1) * 2 ^ 23

/-- The pause entry in force: every mask all ones, but at a pause point (Table 13-7). `o` stands for the offset that the
spec leaves open there. -/
def liveEntry (c : Core) (st : Strand) (reason : Nat) (o : Word) : Pause :=
  let all : Pause :=
    { q0 := .ofNat 64 (0xFFFF * 2 ^ 48 + c.loops.length * 2 ^ 32 + o.toNat % 2 ^ 32)
      q1 := BitVec.allOnes 64, q2 := BitVec.allOnes 64, q3 := BitVec.allOnes 64 }
  if reason = 0 then (pausePoint c st).getD all else all

/-- The bytes of a value of mask `m`, one bit for each byte. -/
def maskBytes (m : VWord) : Nat :=
  (List.range 256).foldl (fun acc n => if m.getLsbD (8 * n) then acc + 2 ^ n else acc) 0
/-- A register mask from a byte mask. -/
def wideMask (m : Nat) : VWord := ofLanes 8 ((List.range 256).map fun n => if bitAt m n then 0xFF else 0)

/-- A carried landing as it is saved: a VLDA takes the entries as they stand. -/
def State.fixLanding (s : State) (c : CoreId) (l : Landing) : Landing :=
  match l.wr with
  | some (.vlda int r e mask m sm _) =>
    let x := (List.range 64).map fun i => if mask.getLsbD (32 * i) then vldaLane int m sm (s.accEntry c (e + i)) else (0, 0)
    { l with wr := some (.v r (ofLanes 32 (x.map (·.1))) mask), fl := l.fl ||| orFlags (x.map (·.2)) }
  | _ => l

/-- The record of a carried landing; `now` is the strand tick. -/
def landingRec (now o : Nat) (l : Landing) : List (Nat × Nat × Nat) :=
  let x : Nat × Nat × Nat := match l.wr with
    | some (.s r v) => (v.toNat, r.toNat, 0xFF)
    | some (.v r v m) => (v.toNat, 0x40 + r.toNat, maskBytes m)
    | _ => (0, 0, 0)
  [(o, 256, x.1), (o + 256, 2, x.2.1), (o + 258, 32, x.2.2), (o + 290, 4, l.due - now)]

/-- The copy record of a command (Table 13-8); `landed` is none where it has not started. -/
def copyRec (o : Nat) (e : QEntry) (landed : Option Nat) : List (Nat × Nat × Nat) :=
  [(o, 256, e.desc.toNat),
   (o + 256, 8, b2n landed.isSome * 2 ^ 25 + e.k.toNat * 2 ^ 21 + e.tok.cm.toNat * 2 ^ 18 + e.tok.cb.toNat * 2 ^ 12 +
     e.tok.pt.toNat * 2 ^ 6 + ceOpcode e.op),
   (o + 264, 8, e.a.toNat), (o + 272, 8, e.b.toNat), (o + 280, 8, landed.getD 0), (o + 288, 224, 0)]

/-- The place of a part's data in its entry's record: its distance from the entry's VA, or, for a strided store whose elements
do not lie apart within 256 bytes, its place in the register (log 65). -/
def Trel.place (t : Trel) (p : Part) : Nat :=
  let l := t.parts
  if (l.zip l.tail).all (fun x => x.1.va + x.1.len ≤ x.2.va) && l.all (fun q => t.va ≤ q.va && q.va + q.len ≤ t.va + 256) then
    p.va - t.va
  else p.pos
/-- The data bytes of a Trellis entry and their mask. -/
def trelBytes (t : Trel) : Nat × Nat :=
  match t.act with
  | .dec _ | .launch .. => (0, 0)
  | _ => t.parts.foldl (fun acc p =>
      (acc.1 + p.data % 2 ^ (8 * p.len) * 2 ^ (8 * t.place p), acc.2 + (2 ^ p.len - 1) * 2 ^ t.place p)) (0, 0)

/-- The records of Trellis entry number `i` (Table 13-8b). -/
def trelRec (i : Nat) (t : Trel) : List (Nat × Nat × Nat) :=
  let d := trelBytes t
  let os := t.ord.code * 5 + t.sc.code
  let q1 : Nat := match t.act with
    | .red op w => os * 2 ^ 27 + b2n w * 2 ^ 26 + redOpcode op * 2 ^ 8 + 1
    | .dec n => n * 2 ^ 40 + 2
    | .launch q vd => (q % 64 + vd % 4 * 2 ^ 6) * 2 ^ 32 + 3
    | _ => if t.copy.isSome then 4 else 0
  let n := if d.2 = 0 then 0 else d.2.log2 + 1
  [(0xD000 + 32 * i, 8, t.va), (0xD008 + 32 * i, 8, q1 + b2n t.committed * 2 ^ 25 + n * 2 ^ 16), (0xD010 + 32 * i, 16, 0),
   (0x10000 + 256 * i, 256, d.1), (0x660000 + 32 * i, 32, d.2)]

/-- The endpoints that a strand holds, with their counters (10 R297). -/
def Die.endpoints (d : Die) (st : Strand) : List (Nat × Reg16) :=
  ((List.range 2) ++ (List.range 16).map (16 + ·)).filterMap fun a =>
    match d.endpointBind a with
    | some b => if mineBind st b then some (a, b.k) else none
    | none => none

/-- Register file contents at `o`, `n` bytes each, for the registers that the mask marks live. -/
def liveRegs (o n mask : Nat) (l : List Nat) : List (Nat × Nat × Nat) :=
  (l.zipIdx).filterMap fun x => if bitAt mask x.2 then some (o + n * x.2, n, x.1) else none

/-- The save area but for the private memories (Table 13-6). LOOP_DEPTH of the header counts the entries that are saved: those that
the pause entry names and the stack holds (Table 13-7; log 64). -/
def saveWords (c : Core) (st : Strand) (d : Die) (reason : Nat) (live : Pause) (lands : List Landing) : List (Nat × Nat × Nat) :=
  let runs : List (QEntry × Option Nat) := c.ceRun.map (fun r => (r.ent, some r.landed)) ++ c.ceq.map (fun e => (e, none))
  let depth := min (bitsAt live.q0.toNat 32 3) c.loops.length
  let waits : Bool := match c.wait with | some (.barrier ..) | some .drain => true | _ => false
  let pendMask := (List.range 64).foldl (fun acc n =>
    if live.q3.getLsbD n && c.tokPending (.ofNat 6 n) then acc + 2 ^ n else acc) 0
  let k (n : Nat) : Nat :=
    (c.kreg.toList.getD n 0 + .ofNat 32 ((c.ceRun.filter fun r => r.ent.k.toNat == n && descCnt r.ent.desc == 1).map (·.landed)).sum).toNat
  let eps := d.endpoints st
  [(0x00, 8, b2n c.id.isAttn * 2 ^ 52 + st.ctx % 16 * 2 ^ 48 + reason * 2 ^ 40 + 2 ^ 32 + 0x5653574F),
   (0x08, 8, b2n ((reason == 2 || reason == 3) && waits) * 2 ^ 55 + lands.length * 2 ^ 48 + runs.length * 2 ^ 40 + depth * 2 ^ 32 +
     c.pc % 2 ^ 32),
   (0x10, 8, st.task.seq % 2 ^ 32 * 2 ^ 32 + st.lcore % 256 * 2 ^ 24 + st.gang % 256 * 2 ^ 16 + c.trellis.length),
   (0x18, 8, live.q0.toNat), (0x20, 8, live.q1.toNat), (0x28, 8, live.q2.toNat), (0x30, 8, live.q3.toNat), (0x38, 8, 0),
   (0x40, 8, c.flags.toNat), (0x48, 8, c.mode.toNat), (0x50, 8, c.efmt.toNat), (0x58, 8, c.rx.toNat),
   (0x60, 8, c.freezeCnt.toNat), (0x68, 8, c.issueCnt.toNat), (0x70, 8, c.tvec.toNat), (0x78, 8, (c.tscr.get 0).toNat),
   (0x80, 8, (c.tscr.get 1).toNat), (0x88, 8, (c.tscr.get 2).toNat), (0x90, 8, (c.tscr.get 3).toNat),
   (0x98, 8, c.rcvstat.toNat), (0xA0, 8, pendMask)] ++
  ((c.loops.take depth).zipIdx.flatMap fun x =>
    let o := 0x100 + 16 * x.2
    [(o, 4, x.1.index.toNat), (o + 4, 4, x.1.limit.toNat), (o + 8, 4, x.1.start), (o + 12, 4, x.1.last)]) ++
  liveRegs 0x180 4 (bitsAt live.q2.toNat 48 16) ((List.range 16).map k) ++
  liveRegs 0x1C0 8 (bitsAt live.q2.toNat 40 8) (c.mpreg.toList.map (·.toNat)) ++
  liveRegs 0x200 8 live.q1.toNat (c.sreg.toList.map (·.toNat)) ++
  liveRegs 0x400 32 (bitsAt live.q2.toNat 32 8) (c.preg.toList.map (·.toNat)) ++
  liveRegs 0x500 16 (bitsAt live.q0.toNat 48 16) (c.hreg.toList.map (·.toNat)) ++
  ((List.range 4).map fun i => (0x600 + 8 * i, 8, match eps[i]? with
    | some x => 2 ^ 63 + x.2.toNat * 2 ^ 8 + x.1
    | none => 0)) ++
  liveRegs 0x800 256 (bitsAt live.q2.toNat 0 32) (c.vreg.toList.map (·.toNat)) ++
  (runs.zipIdx.flatMap fun x => copyRec (0x2800 + 512 * x.2) x.1.1 x.1.2) ++
  (lands.zipIdx.flatMap fun x => landingRec c.tick (0x5000 + 512 * x.2) x.1) ++
  (c.trellis.zipIdx.flatMap fun x => trelRec x.2 x.1)

/-- Has the core quiesced (R391): every packet in flight has landed, every carried landing's data is there, and no command waits to be
completed? -/
def Core.quiet (c : Core) : Bool :=
  c.arb.all (·.wr.isSome) && !(c.ceRun.any fun r => runDone r || !r.air.isEmpty) && c.xmq.isEmpty && c.xmRun.isNone && c.xmDrain.isEmpty

/-- What a stopped strand keeps beside its save area, with the asynchronous traps that have reached it since it stopped (log 91). -/
def countsOf (c : Core) (lands : List Landing) : Counts :=
  { bars := c.bars, ssteps := c.ssteps, seq := c.seq, amos := c.amos, reds := c.reds, fences := c.fences, logged := c.trellis
    carried := lands, efmtPend := c.efmtPend.map fun x => (x.1 - c.issueNo, x.2)
    cmds := c.ceRun.map (fun r => (r.ent.id, r.ent.inst, r.ent.seq)) ++ c.ceq.map (fun e => (e.id, e.inst, e.seq))
    wait := match c.wait with | some (.barrier b n) => some (.barrier b n) | some .drain => some .drain | _ => none
    kver := c.kver, core := c.id, traps := c.trapq }

/-- The gang after the save of strand `l` (13 R391, 14 R399). -/
def Gang.save (g : Gang) (size l : Nat) (k : Counts) : Gang :=
  Gang.settle { g with
    saved := l :: g.saved.filter (· != l), loaded := g.loaded.filter (· != l)
    counts := (l, k) :: g.counts.filter (·.1 != l) } size

/-- SAVE_AREA_WRITE: the core of a stopped strand has quiesced; its save area is written and the core is free. A write to a page of the
slot that no access reaches is dropped with its record. -/
def execSaveAreaWrite (id : CoreId) (s : State) : Out :=
  let s := s.focus id
  let c := s.core
  match c.strand, c.stopping with
  | some st, some reason =>
    match s.slotBase id.die st.task st.gang st.lcore with
    | none => .fault (.notEnabled "SAVE_AREA_WRITE")
    | some b =>
      if !c.quiet || c.ended || s.slotSwitching b then .fault (.notEnabled "SAVE_AREA_WRITE")
      else
        let bad := s.slotBad b
        let s := s.slotRecs id st.ctx needW bad
        let live := liveEntry c st reason (Config.freeWord s.free)
        let s := s.draw.2
        let lands := c.arb.map (s.fixLanding id)
        let m := (s.putAt b (saveWords c st (s.die id.die) reason live lands)).mem
        let m := memMove m (nspBase id) (nspSize id) (b + 0x20000)
        let m := memMove m (accBase id) (10 * accEntries id) (b + 0x420000)
        let m := c.wb.foldl (fun m x => memSet m (x.1 + b + 0x560000) x.2) (memZero m (b + 0x560000) 0x100000)
        let s : State := { s.slotMem b (bad.map (·.2)) m with core := { c.free with trellis := [], ceq := [], ceRun := [], stale := [] } }
        let old := match (s.findTask st.task).bind fun t => t.gangs.find? (·.idx == st.gang) with
          | some g => g.cores
          | none => []
        let s := s.updTask st.task fun t => t.updGang st.gang fun g =>
          g.save st.gangSize st.lcore (countsOf c (lands.map (·.rel c.tick)))
        match (s.findTask st.task).bind fun t => t.yielding with
        | some w => .next (s.updDie id.die fun d => { d with held := d.held ++ (old.filter (· == id)).map fun x => (x, st.task, w) })
        | none => .next s
  | _, _ => .fault (.notEnabled "SAVE_AREA_WRITE")

/-! ## The loader (06 R140, R147, 02 R53, R58, 04 R87, R97, 11 R310, R315, 13 R395, R396) -/

/-- The set bits of a mask of four. -/
def setBits4 (m : Nat) : List Nat := (List.range 4).filter (bitAt m ·)
def Task.vdieMask (t : Task) : Nat := bitsAt (t.pkt.getD 2 0).toNat 48 4
/-- The virtual die that the packet gives gang `g` of a superstep task (02 R57). -/
def Task.gangVdie (t : Task) (g : Nat) : Option Nat :=
  let l := setBits4 t.vdieMask
  if t.isSuper then l[g % l.length]? else none
/-- STRANDID.VDIE (R147). -/
def State.strandVdie (s : State) (t : Task) (g : Gang) : Option Nat :=
  match t.gangVdie g.idx with
  | some v => some v
  | none => (List.range 4).find? fun v => vdieOf s t.ctx v == some g.die

/-- The base of an image's code in the address space. -/
def Image.base (im : Image) : Nat := canonVa im.codeVa

def strandOf (s : State) (t : Task) (im : Image) (g : Gang) (l : Nat) : Strand :=
  let v := s.strandVdie t g
  { task := t.id, gang := g.idx, lcore := l, ctx := t.ctx, gangSize := t.gangSize
    gangCount := bitsAt (t.pkt.getD 1 0).toNat 48 8, superstep := t.isSuper, vdie := v.getD 0, novdie := v.isNone
    codeVa := im.base, codeSize := im.codeSize, regions := im.regions, pauses := im.pauses
    grants := match im.grants with | some x => x.2.filter fun e => bitsAt e.1.toNat 24 5 == l | none => []
    hasGrant := im.grants.isSome, priv := im.priv }

/-- The core as the loader sets it for a strand, before its registers: its store is a copy of the directory. -/
def State.loaded (s : State) (id : CoreId) (t : Task) (im : Image) (g : Gang) (l : Nat) : Core :=
  let c := s.getCore id
  { Core.reset id with
    strand := some (strandOf s t im g l)
    mode := (t.pkt.getD 4 0) &&& 0x1FFF
    layoutId := .ofNat 64 (g.layout.getD 0)
    hashKey := .ofNat 64 (cfgReg s (0x2008 + t.ctx % 16 * 16) % 2 ^ 32)
    store := (s.die id.die).directory
    wall := c.wall, events := c.events, wb := c.wb, stale := c.stale, lastCtx := c.lastCtx }

/-- The rows of the accumulator memory that hold a nonzero byte. -/
def State.accRowsUsed (s : State) (id : CoreId) : List Nat :=
  ((s.mem.filter fun c => accBase id ≤ c.1 && c.1 < accBase id + 10 * accEntries id).map fun c =>
    (c.1 - accBase id) / 10 / accCols id).eraseDups
/-- Every row signature set from the entries as they stand (11 R310). -/
def State.resign (s : State) (id : CoreId) : State :=
  let l := (s.accRowsUsed id).map fun r => (r, s.rowFold id r)
  s.updCore id fun c => { c with rowSig := l }

/-- The gang's strand `l` now runs on its core; with the last of them the gang starts (03 R74). -/
def Gang.load (g : Gang) (l : Nat) : Gang :=
  let now := l :: g.loaded.filter (· != l)
  { g with
    loaded := now, saved := g.saved.filter (· != l), counts := g.counts.filter (·.1 != l)
    started := g.started || (List.range g.cores.length).all fun i => now.contains i || g.ended.contains i }
/-- Does the gang hold cores whose strands may still be loaded? One that is asked to stop before its strands have started loads the
rest, since they start together (03 R74). -/
def Gang.loads (g : Gang) : Bool := g.state == .running || (g.state == .stopping && !g.started)

/-- The task and gang of a strand that its core may take now. -/
def State.toLoad (s : State) (id : CoreId) (t : TaskId) (g l : Nat) : Option (Task × Image × Gang) :=
  match s.findTask t with
  | none => none
  | some x =>
    match x.image, x.gangs.find? (·.idx == g) with
    | some im, some y =>
      if y.loads && y.cores[l]? == some id && !y.loaded.contains l && !y.ended.contains l &&
          (s.getCore id).strand.isNone && x.status == 0 then some (x, im, y) else none
    | _, _ => none

/-- STRAND_LOAD: a new strand is set on its core; private memories are zeroed where the context changes (R396). -/
def execStrandLoad (id : CoreId) (t : TaskId) (g l : Nat) (s : State) : Out :=
  match s.toLoad id t g l with
  | none => .fault (.notEnabled "STRAND_LOAD")
  | some (x, im, y) =>
    if y.saved.contains l then .fault (.notEnabled "STRAND_LOAD")
    else
      let zero : Bool := match (s.getCore id).lastCtx with | some k => k != x.ctx | none => false
      let c := s.loaded id x im y l
      let c := { c with pc := bitsAt (x.pkt.getD 1 0).toNat 0 32 }
      let s : State := if zero then
        { s with mem := memZero (memZero s.mem (nspBase id) (nspSize id)) (accBase id) (10 * accEntries id) } else s
      let c := if zero then { c with wb := [], stale := [] } else c
      let s := ((s.setCore c).resign id).focus id
      .next ((s.beginInst false).updTask t fun x => x.updGang g (·.load l))

/-- The value of a live register, and zero for another. -/
def liveVal (s : State) (b o n mask i : Nat) : Nat := if bitAt mask i then s.rd (b + o + n * i) n else 0

/-- A landing restored: its write from the record, what the record does not hold from `l`. -/
def restLanding (s : State) (o : Nat) (l : Landing) : Landing :=
  let dst := s.rd (o + 256) 2
  { l with
    due := s.rd (o + 290) 4
    no := 0
    wr := match l.wr with
      | some (.s ..) => some (.s (.ofNat 6 dst) (.ofNat 64 (s.rd o 8)))
      | some (.v ..) => some (.v (.ofNat 5 dst) (.ofNat 2048 (s.rd o 256)) (wideMask (s.rd (o + 258) 32)))
      | w => w }

/-- The entry of copy record at `o`, which keeps its command's number; `prev` are the entries before it. -/
def restCopy (s : State) (o : Nat) (cmd : Nat × Nat × Nat) (prev : List QEntry) : QEntry :=
  let q := s.rd (o + 256) 8
  let tk : Tok := ⟨.ofNat 6 (bitsAt q 6 6), .ofNat 6 (bitsAt q 12 6), .ofNat 3 (bitsAt q 18 3)⟩
  let k : Reg16 := .ofNat 4 (bitsAt q 21 4)
  { id := cmd.1, inst := cmd.2.1, seq := cmd.2.2, tok := tk, k := k
    op := if bitsAt q 0 6 = 1 then .cpysig tk 0 0 0 k false 0 else .cpy tk 0 0 0 k false 0
    deps := (prev.filter fun e => (consumed tk).contains e.tok.pt).map (·.id)
    mp := .replicate 8 0, efmt := 0, a := .ofNat 64 (s.rd (o + 264) 8), b := .ofNat 64 (s.rd (o + 272) 8)
    desc := .ofNat 2048 (s.rd o 256), entered := 0 }

/-- Entry number `i` of the log restored: its data from the slot, its place, addresses and key from `t`. -/
def restTrel (s : State) (b i : Nat) (t : Trel) : Trel :=
  let q1 := s.rd (b + 0xD008 + 32 * i) 8
  let data (p : Part) : Part := { p with data := s.rd (b + 0x10000 + 256 * i + t.place p) p.len }
  let u : Trel := { t with va := s.rd (b + 0xD000 + 32 * i) 8, committed := bitAt q1 25 }
  match t.act with
  | .dec _ => { u with act := .dec (bitsAt q1 40 14) }
  | .launch .. => { u with act := .launch (bitsAt q1 32 6) (bitsAt q1 38 2) }
  | _ => { u with part := data t.part, rest := t.rest.map data }

/-- STRAND_RESUME: a saved strand is restored on its core from its slot, which is free again (R395). Pages of the slot that no access
reaches are read as zeros, each with its record. After a YIELD stop its bundle has issued since the last COMMIT (06 R179; log 112). -/
def execStrandResume (id : CoreId) (t : TaskId) (g l : Nat) (s : State) : Out :=
  match s.toLoad id t g l, s.slotBase id.die t g l with
  | some (x, im, y), some b =>
    match y.counts.find? (·.1 == l) with
    | none => .fault (.notEnabled "STRAND_RESUME")
    | some (_, k) =>
      if s.slotSwitching b then .fault (.notEnabled "STRAND_RESUME") else
      let bad := s.slotBad b
      let r : State := { s with mem := bad.foldl (fun m x => memZero m x.2 0x8000) s.mem }
      let q (i : Nat) : Nat := r.rd (b + 8 * i) 8
      let lv (o n mask i : Nat) : Nat := liveVal r b o n mask i
      let c : Core := { s.loaded id x im y l with
        pc := bitsAt (q 1) 0 32
        sreg := .ofFn fun i : Fin 64 => .ofNat 64 (lv 0x200 8 (q 4) i.val)
        vreg := .ofFn fun i : Fin 32 => .ofNat 2048 (lv 0x800 256 (bitsAt (q 5) 0 32) i.val)
        preg := .ofFn fun i : Fin 8 => .ofNat 256 (lv 0x400 32 (bitsAt (q 5) 32 8) i.val)
        hreg := .ofFn fun i : Fin 16 => hInvalid (.ofNat 128 (lv 0x500 16 (bitsAt (q 3) 48 16) i.val))
        mpreg := .ofFn fun i : Fin 8 => .ofNat 64 (lv 0x1C0 8 (bitsAt (q 5) 40 8) i.val)
        kreg := .ofFn fun i : Fin 16 => .ofNat 32 (lv 0x180 4 (bitsAt (q 5) 48 16) i.val)
        loops := (List.range (bitsAt (q 1) 32 3)).map fun i =>
          let o := b + 0x100 + 16 * i
          ⟨.ofNat 32 (r.rd o 4), .ofNat 32 (r.rd (o + 4) 4), r.rd (o + 8) 4, r.rd (o + 12) 4⟩
        flags := .ofNat 64 (q 8), mode := .ofNat 64 (q 9), efmt := .ofNat 64 (q 10), rx := .ofNat 8 (q 11)
        freezeCnt := .ofNat 64 (q 12), issueCnt := .ofNat 64 (q 13), tvec := .ofNat 64 (q 14)
        tscr := #v[.ofNat 64 (q 15), .ofNat 64 (q 16), .ofNat 64 (q 17), .ofNat 64 (q 18)]
        rcvstat := .ofNat 64 (q 19)
        issueNo := 1, efmtPend := k.efmtPend.map fun x => (x.1 + 1, x.2)
        bars := k.bars, ssteps := k.ssteps, seq := k.seq, amos := k.amos, reds := k.reds, fences := k.fences
        kver := k.kver, trapq := k.traps
        trellis := (k.logged.zipIdx).map fun x => restTrel r b x.2 x.1
        arb := (k.carried.zipIdx).map fun x => restLanding r (b + 0x5000 + 512 * x.2) x.1
        ceq := (k.cmds.zipIdx).foldl (fun acc x => acc ++ [restCopy r (b + 0x2800 + 512 * x.2) x.1 acc]) []
        wb := (r.mem.filter fun x => b + 0x560000 ≤ x.1 && x.1 < b + 0x660000).map fun x => (x.1 - (b + 0x560000), x.2)
        stale := [] }
      let st := strandOf s x im y l
      let d := s.die id.die
      let c := (d.endpoints st).foldl (fun c e =>
        match d.endpointBind e.1 with
        | some bd => c.setK e.2 (c.k e.2 - .ofNat 32 bd.owed)
        | none => c) c
      let d := (d.endpoints st).foldl (fun d e =>
        d.setBind e.1 ((d.endpointBind e.1).map fun bd => { bd with owed := 0 })) d
      let d := { d with slots := d.slots.filter fun z => !(z.2.1 == t && z.2.2.1 == g && z.2.2.2 == l) }
      let m := memMove r.mem (b + 0x20000) (nspSize id) (nspBase id)
      let m := memMove m (b + 0x420000) (10 * accEntries id) (accBase id)
      let m := bad.foldl (fun m x => memKeep m s.mem x.2 0x8000) m
      let s := (((({ s with mem := m }.setDie d).slotRecs id x.ctx needR bad).setCore c).resign id).focus id
      let s := (s.beginInst false).onCore fun c => { c with atCommit := bitsAt (q 0) 40 8 != 1 }
      let s := if bitAt (q 1) 55 then s.onCore fun c => { c with wait := k.wait, frozen := true } else s
      .next ((s.updTask t fun x => x.updGang g (·.load l)).pump)
  | _, _ => .fault (.notEnabled "STRAND_RESUME")

end Sys2Proof.Machine
end

