-- ==== Sys2Proof/Machine/Image.lean ====
section
/-! DEFINITION. What the launch unit reads through page tables, and its check of an image (02 R45 to R55, 03 R433). -/

namespace Sys2Proof.Machine

/-! ## Reads of the launch unit (03 R433) -/

/-- The launch unit of die `d` as a master. -/
def State.luMaster (s : State) (d : DieId) : Nat := masterOf s.rhoath.chip d.code 0 0

/-- The physical address of `va` for an access of the launch unit that needs right `r`, or the cause for which it is not
made: 0 absent, 1 right missing, 2 reserved range or retired page, and a die in reset or removed (log 17). The access tables do not
apply, and what a page maps in a near scratchpad, accumulator memory or a register window is read and written as memory: a DESIGN
CHOICE (log 109). -/
def State.luPlace (s : State) (ctx va : Nat) (r : Leaf → Bool) : Except Nat Nat :=
  match s.translate ctx va with
  | none => .error 0
  | some (l, pa) =>
    if !r l then .error 1
    else if s.isReserved (s.redirect pa) || !s.answers pa then .error 2
    else .ok (s.redirect pa)

/-- Of `n` bytes from virtual address `va`, page by page, those before the first address that cannot be read, and it with its cause.
`fuel` bounds the pages. -/
def State.luBytes (s : State) (ctx : Nat) : Nat → Nat → Nat → List Byte × Option (Nat × Nat)
  | 0, _, _ => ([], none)
  | fuel + 1, va, n =>
    if n = 0 then ([], none)
    else
      let k := min n (0x8000 - va % 0x8000)
      match s.luPlace ctx va (·.r) with
      | .error c => ([], some (va, c))
      | .ok pa =>
        let r := s.luBytes ctx fuel (canonVa (va + k)) (n - k)
        (s.rdBytes pa k ++ r.1, r.2)
def State.luPart (s : State) (ctx va n : Nat) : List Byte × Option (Nat × Nat) := s.luBytes ctx (n / 0x8000 + 2) va n
/-- `n` bytes from virtual address `va`, or the first address that cannot be read and its cause. -/
def State.luRead (s : State) (ctx va n : Nat) : Except (Nat × Nat) (List Byte) :=
  match s.luPart ctx va n with
  | (l, none) => .ok l
  | (_, some e) => .error e

/-- What an access of the launch unit of die `d` at `va` waits for: its bank, while that is being switched (04 R96), and the writes that
causally precede its walk and, of a `read`, itself (12 R349); none while it must wait. -/
def State.luHold (s : State) (d : DieId) (ctx va : Nat) (r : Leaf → Bool) (read : Bool) : Option State :=
  match s.translate ctx va with
  | none => s.directReads d (s.walkDies ctx va)
  | some (l, pa) =>
    if r l && s.switching (s.redirect pa) then none
    else s.directReads d (s.walkDies ctx va ++ if r l && read then (paDie (s.redirect pa)).toList else [])

/-- The records of an access of the launch unit of die `d` that is not made: `what` is the structure. -/
def State.luRec (s : State) (d : DieId) (ctx va what cause : Nat) : State :=
  let s := s.badPteRec d ctx va (s.walkVa ctx va) (s.luMaster d)
  s.faultRec d ctx 0x0A va 0 (what * 2 ^ 4 + cause) (s.luMaster d)

/-! ## The image check (02 R45 to R55) -/

/-- Word `i` of bytes. -/
def byteWord (l : List Byte) (i : Nat) : Nat := bytesNat ((l.drop (8 * i)).take 8)
/-- The first offset whose check fails. -/
def leastBad (l : List (Nat × Bool)) : Option Nat :=
  ((l.filter (·.2)).map (·.1)).foldl (fun m x => match m with | none => some x | some y => some (min x y)) none

/-- The offsets that offend. -/
def badOffs (l : List (Nat × Bool)) : List Nat := (l.filter (·.2)).map (·.1)

/-- The checks of the header (Table 02-1): offset, and whether it offends. The reserved words QW3 to QW7 count as five fields
(log 88). -/
def headerChecks (h : List Byte) : List (Nat × Bool) :=
  let q := byteWord h
  let cnt := bitsAt (q 1) 32 16
  let dir := bitsAt (q 2) 0 32
  [(0, bitsAt (q 0) 0 32 != 0x4D49574F), (4, bitsAt (q 0) 32 8 != 1), (5, bitsAt (q 0) 40 4 != 1 || bitsAt (q 0) 44 4 != 0),
   (6, bitsAt (q 0) 51 13 != 0 || (bitAt (q 0) 49 && !bitAt (q 0) 50)), (8, bitsAt (q 1) 0 32 % 64 != 0),
   (12, cnt == 0 || 64 < cnt), (14, bitsAt (q 1) 48 16 != 0),
   (16, dir % 32 != 0 || bitsAt (q 1) 0 32 < dir + 32 * cnt), (20, bitsAt (q 2) 32 32 != 0)] ++
  (List.range 5).map fun i => (24 + 8 * i, q (3 + i) != 0)

/-- A directory entry (Table 02-2). -/
structure Section where
  type : Nat
  off : Nat
  size : Nat
  mem : Nat
  va : Nat
  q0 : Nat
  q2 : Nat
  q3 : Nat
  deriving DecidableEq, Repr
def sectionAt (l : List Byte) (i : Nat) : Section :=
  let q (n : Nat) : Nat := byteWord l (4 * i + n)
  { type := bitsAt (q 0) 0 8, off := bitsAt (q 0) 32 32, size := bitsAt (q 1) 0 32, mem := bitsAt (q 1) 32 32
    va := bitsAt (q 2) 0 56, q0 := q 0, q2 := q 2, q3 := q 3 }

/-- The count that Table 02-3 allows a type, and its entry size. -/
def typeMax (signed : Bool) : Nat → Nat
  | 1 | 3 | 4 | 5 | 6 | 7 => 1
  | 2 => 60
  | 8 => b2n signed
  | _ => 0
def typeSize : Nat → Nat
  | 3 => 96 | 4 => 32 | 5 | 6 => 16 | 7 => 8 | 8 => 128 | _ => 1

/-- Do two ranges share a byte? -/
def meet (a n b m : Nat) : Bool := n != 0 && m != 0 && a < b + m && b < a + n
def Section.mapped (x : Section) : Bool := x.type == 1 || x.type == 2

/-- The checks of entry `x` at offset `o`, after the entries `prev`: of two that overlap the later offends, and a section
beyond the image offends at OFFSET (log 88). -/
def sectionChecks (signed : Bool) (imageSize o : Nat) (prev : List Section) (x : Section) : List (Nat × Bool) :=
  [(o, typeMax signed x.type ≤ (prev.filter (·.type == x.type)).length), (o + 1, bitsAt x.q0 8 8 != 0),
   (o + 2, bitsAt x.q0 18 14 != 0 || (x.type != 2 && bitsAt x.q0 16 2 != 0)),
   (o + 4, x.off % 64 != 0 || imageSize < x.off + x.size || prev.any fun y => meet x.off x.size y.off y.size),
   (o + 8, x.size % typeSize x.type != 0 || (x.type == 3 && (x.size == 0 || 16 * 96 < x.size)) ||
     (x.type == 8 && x.size != 128)),
   (o + 12, x.mem < x.size),
   (o + 16, if x.mapped then x.va % 0x8000 != 0 || prev.any fun y => y.mapped && meet x.va x.mem y.va y.mem else x.va != 0),
   (o + 23, bitsAt x.q2 56 8 != 0), (o + 24, x.q3 != 0)]

/-- The checks of the entries `l`, the first at offset `o`. -/
def directoryChecks (signed : Bool) (imageSize : Nat) : Nat → List Section → List Section → List (Nat × Bool)
  | _, _, [] => []
  | o, prev, x :: r => sectionChecks signed imageSize o prev x ++ directoryChecks signed imageSize (o + 32) (prev ++ [x]) r

/-- A type whose count is exactly 1 and that has no entry; in a signed image SIGNATURE is one (log 88). -/
def missing (signed : Bool) (l : List Section) : Bool :=
  [1, 3, 5].any (fun t => !l.any (·.type == t)) || (signed && !l.any (·.type == 8))

/-- A layout record (Table 02-4): its words, and the class of pair (i, j), i < j. -/
def layId (l : List Word) : Nat := bitsAt (l.getD 0 0).toNat 0 8
def laySize (l : List Word) : Nat := bitsAt (l.getD 0 0).toNat 8 5
def layAttn (l : List Word) : Bool := bitAt (l.getD 0 0).toNat 16
/-- The ids of the alternates in use. -/
def layAlts (l : List Word) : List Nat :=
  (List.range (bitsAt (l.getD 0 0).toNat 17 3)).map fun i => bitsAt (l.getD 0 0).toNat (24 + 8 * i) 8
def layClass (l : List Word) (i j : Nat) : Nat :=
  let k := j * (j - 1) / 2 + i
  bitsAt (l.getD (2 + k / 32) 0).toNat (2 * (k % 32)) 2 + 1

/-- DIST holds class 4 in a pair of the gang, or a bit beyond the last pair. -/
def distBad (l : List Word) : Bool :=
  let n := laySize l * (laySize l - 1) / 2
  (List.range 320).any fun k =>
    let v := bitsAt (l.getD (2 + k / 32) 0).toNat (2 * (k % 32)) 2
    if k < n then v == 3 else v != 0

/-- The checks of a layout record; a KIND of attention cores with a GANG_SIZE above 8 offends at GANG_SIZE, a DESIGN CHOICE between the two
fields (log 109). -/
def layoutChecks (all : List (List Word)) (o i : Nat) (l : List Word) : List (Nat × Bool) :=
  let q := (l.getD 0 0).toNat
  [(o, (all.take i).any fun x => layId x == layId l),
   (o + 1, laySize l == 0 || 24 < laySize l || bitsAt q 13 3 != 0 || (layAttn l && 8 < laySize l)),
   (o + 2, 3 < bitsAt q 17 3 || bitsAt q 20 4 != 0)] ++
  ((layAlts l).zipIdx.map fun x => (o + 3 + x.2, !all.any fun y =>
    layId y == x.1 && laySize y == laySize l && layAttn y == layAttn l)) ++
  [(o + 6, bitsAt q 48 16 != 0), (o + 8, (l.getD 1 0) != 0), (o + 16, distBad l)]

/-- The words of entry `i` of `n` words each. -/
def entryWords (l : List Byte) (n i : Nat) : List Word := (List.range n).map fun k => .ofNat 64 (byteWord l (n * i + k))
def entries (l : List Byte) (n : Nat) : List (List Word) := (List.range (l.length / (8 * n))).map (entryWords l n)

/-- The checks of a table that starts at offset `o` (Tables 02-4, 02-6 to 02-8, R54, R55). -/
def tableChecks (type o : Nat) (l : List Byte) : List (Nat × Bool) :=
  let q (w : List Word) (i : Nat) : Nat := (w.getD i 0).toNat
  let es := entries l (typeSize type / 8)
  let before (i : Nat) : List Word := es.getD (i - 1) []
  es.zipIdx.flatMap fun x =>
    let w := x.1
    let o := o + typeSize type * x.2
    match type with
    | 3 => layoutChecks es o x.2 w
    | 4 =>
      [(o, bitsAt (q w 0) 0 1 != 0 || (x.2 != 0 && bitsAt (q w 0) 0 32 ≤ bitsAt (q (before x.2) 0) 0 32)),
       (o + 4, bitsAt (q w 0) 32 3 == 7 || bitsAt (q w 0) 35 13 != 0), (o + 8, bitAt (q w 1) 0), (o + 20, bitAt (q w 2) 32)]
    | 5 =>
      [(o, bitsAt (q w 0) 0 1 != 0 || (x.2 != 0 && bitsAt (q w 0) 0 32 ≤ bitsAt (q (before x.2) 0) 32 32)),
       (o + 4, bitsAt (q w 0) 32 32 < bitsAt (q w 0) 0 32), (o + 8, 16384 < bitsAt (q w 1) 0 15), (o + 9, bitsAt (q w 1) 15 49 != 0)]
    | 6 =>
      [(o + 2, bitsAt (q w 0) 21 3 != 0), (o + 3, 24 ≤ bitsAt (q w 0) 24 5 || bitsAt (q w 0) 29 3 != 0),
       (o + 4, bitsAt (q w 0) 33 31 != 0), (o + 10, bitsAt (q w 1) 22 10 != 0),
       (o + 12, bitsAt (q w 1) 32 22 < bitsAt (q w 1) 0 22), (o + 14, bitsAt (q w 1) 54 10 != 0)]
    | 7 => [(o, 63 < bitsAt (q w 0) 0 8), (o + 1, bitsAt (q w 0) 8 8 != 0)]
    | 8 => [(o + 2, bitsAt (q w 0) 16 48 != 0), (o + 104, (List.range 3).any fun i => q w (13 + i) != 0)]
    | _ => []

/-- What the check of an image finds: an offset that offends, a byte that cannot be read with its address and cause, or
the image. -/
inductive ImageCheck where
  | bad (off : Nat)
  | unread (off va cause : Nat)
  | ok (im : Image)
  deriving DecidableEq, Repr

/-- What the check of an image has found at an offset: a field that offends, or a byte that cannot be read, with its address
and the cause. -/
abbrev Finding := Nat × Option (Nat × Nat)
/-- The finding that comes first in byte order. -/
def firstFinding (l : List Finding) : Option Finding :=
  l.foldl (fun m x => match m with | none => some x | some y => some (if x.1 < y.1 then x else y)) none
/-- Offending fields as findings. -/
def badAt (l : List (Nat × Bool)) : List Finding := (badOffs l).map fun o => (o, none)

/-- Does the entry name a table that can be checked: of a type with tables, and beginning in the image? An entry that offends does so
in its own fields; its table's fields are checked all the same, as far as the image goes. -/
def hasTable (imageSize : Nat) (x : Section) : Bool := 3 ≤ x.type && x.type ≤ 8 && x.off < imageSize

/-- The finding of a byte that cannot be read. -/
def unreadAt (base : Nat) (e : Nat × Nat) : Finding := ((e.1 + 2 ^ 64 - base) % 2 ^ 64, some e)
/-- What offends in the readable bytes `l` of a table before offset `stop`; whether an alternate of a layout is there cannot be
told (log 88). -/
def partFindings (x : Section) (l : List Byte) (stop : Nat) : List Finding :=
  let n := typeSize x.type
  let whole := l ++ List.replicate ((n - l.length % n) % n) 0
  badAt ((tableChecks x.type x.off whole).filter fun y =>
    y.1 < stop && !(x.type == 3 && 3 ≤ (y.1 - x.off) % n && (y.1 - x.off) % n < 6))
/-- The tables that can be read, and the findings of each that cannot: its first unreadable byte, and what offends before it. -/
def State.readTables (s : State) (ctx base imageSize : Nat) (l : List Section) : List (Section × List Byte) × List Finding :=
  l.foldl (fun acc x =>
    match s.luPart ctx (canonVa (base + x.off)) (min x.size (imageSize - x.off)) with
    | (t, some e) => (acc.1, acc.2 ++ unreadAt base e :: partFindings x t (unreadAt base e).1)
    | (t, none) => (acc.1 ++ [(x, t)], acc.2)) ([], [])

/-- The tables of a type. -/
def tableOfType (l : List (Section × List Byte)) (t : Nat) : List (List Word) :=
  match l.find? (·.1.type == t) with | some x => entries x.2 (typeSize t / 8) | none => []

/-- The image of checked tables; its code extends for the MEM_SIZE of CODE (log 88). -/
def makeImage (ctx base : Nat) (h : List Byte) (dir : List Section) (tabs : List (Section × List Byte)) : Image :=
  let q (w : List Word) (i : Nat) : Word := w.getD i 0
  let code := (dir.find? (·.type == 1)).getD (sectionAt [] 0)
  { ctx := ctx, va := base, size := bitsAt (byteWord h 1) 0 32
    sign := (dir.find? (·.type == 8)).map fun x => (x.off, x.size), verified := false
    restartable := bitAt (byteWord h 0) 48, priv := bitAt (byteWord h 0) 49, codeVa := code.va, codeSize := code.mem
    layouts := tableOfType tabs 3
    pauses := (tableOfType tabs 4).map fun w => ⟨q w 0, q w 1, q w 2, q w 3⟩
    regions := (tableOfType tabs 5).map fun w =>
      ⟨bitsAt (q w 0).toNat 0 32, bitsAt (q w 0).toNat 32 32, bitsAt (q w 1).toNat 0 15⟩
    grants := (dir.find? (·.type == 6)).map fun x => (x.off, (tableOfType tabs 6).map fun w => (q w 0, q w 1))
    routines := (tableOfType tabs 7).map fun w => q w 0 }

/-- The layout record of an id. -/
def Image.layoutOf (im : Image) (id : Nat) : Option (List Word) := im.layouts.find? (layId · == id)

/-- The checks of the grants against the layout of the packet: the offset from the image base. -/
def grantChecks (im : Image) (lay : List Word) : List (Nat × Bool) :=
  match im.grants with
  | none => []
  | some (o, l) => l.zipIdx.flatMap fun x =>
    [(o + 16 * x.2 + 3, laySize lay ≤ bitsAt x.1.1.toNat 24 5),
     (o + 16 * x.2 + 12, (if layAttn lay then 0x400000 else 0x200000) ≤ bitsAt x.1.2.toNat 32 22)]

/-- The check of the image at `base` in context `ctx`: of everything that offends or cannot be read, the first in byte order
(R47, R433). The directory is read where SECTION_COUNT and DIR_OFFSET name one, a table where its directory entry does; of one that can be
read in part the readable bytes are checked. The grants are held against the layout `lid` of the packet. -/
def State.checkImage (s : State) (ctx base lid : Nat) : ImageCheck :=
  let verdict (l : List Finding) (im : Image) : ImageCheck := match firstFinding l with
    | some (o, none) => .bad o
    | some (o, some e) => .unread o e.1 e.2
    | none => .ok im
  let none' : Image := makeImage ctx base [] [] []
  match s.luRead ctx base 64 with
  | .error e => verdict [unreadAt base e] none'
  | .ok h =>
    let head := badAt (headerChecks h)
    let d := bitsAt (byteWord h 2) 0 32
    let n := bitsAt (byteWord h 1) 32 16
    let size := bitsAt (byteWord h 1) 0 32
    let signed := bitAt (byteWord h 0) 50
    if head.any fun x => x.1 == 12 || x.1 == 16 then verdict head none'
    else
        let r := s.luPart ctx (canonVa (base + d)) (32 * n)
        let dir := (List.range (r.1.length / 32)).map (sectionAt r.1)
        let t := s.readTables ctx base size (dir.filter (hasTable size))
        let im := makeImage ctx base h dir t.1
        verdict (head ++ (r.2.map (unreadAt base)).toList ++ badAt ((12, r.2.isNone && missing signed dir) ::
          directoryChecks signed size d [] dir) ++ t.2 ++
          badAt (t.1.flatMap fun x => tableChecks x.1.type x.1.off x.2) ++
          badAt (match im.layoutOf lid with | some lay => grantChecks im lay | none => [])) im

/-! ## The image cache (R47, R48) -/

/-- The cached image, if the die has it. -/
def Die.cached (d : Die) (ctx va : Nat) : Option Image := d.imageCache.find? fun x => x.ctx == ctx && x.va == va
/-- An image as the most recently admitted of the die: of 64 the least recently admitted is dropped. -/
def Die.cache (d : Die) (im : Image) : Die :=
  { d with imageCache := (im :: d.imageCache.filter fun x => !(x.ctx == im.ctx && x.va == im.va)).take 64 }

/-! ## Checks of a packet against its image (02 R51, R53, R54, R57, R58, 04 R91) -/

/-- The packet's checks against its image: the byte offset, and whether it offends. -/
def State.packetImageChecks (s : State) (t : Task) (im : Image) : List (Nat × Bool) :=
  let q (i : Nat) : Nat := (t.pkt.getD i 0).toNat
  let lay := im.layoutOf (bitsAt (q 1) 56 8)
  [(8, !im.regions.any fun r => r.start == bitsAt (q 1) 0 32),
   (13, match lay with | some l => laySize l != t.gangSize | none => false), (15, lay.isNone),
   (22, t.isSuper && (setBits4 t.vdieMask).any fun v => (vdieOf s t.ctx v).isNone),
   (23, bitAt (q 2) 63 && !im.restartable)]

/-- The digest of a routine of a die: an installed one's, or that of a shipped one (log 12). -/
def Die.digest (d : Die) (slot : Nat) : Nat :=
  match d.digests.find? (·.1 == slot) with | some x => x.2 | none => Config.routineDigest slot
/-- Does a routine entry pass on die `d` (R54)? -/
def Die.routineOk (d : Die) (w : Word) : Bool :=
  let e := w.toNat
  match d.directory.find? fun x => x.1 == bitsAt e 0 8 with
  | some x => bitsAt e 16 16 ≤ x.2.1 && (bitsAt e 32 32 == 0 || bitsAt e 32 32 == d.digest x.1 % 2 ^ 32)
  | none => false

end Sys2Proof.Machine
end

