-- ==== Sys2Proof/Machine/Launch.lean ====
section
/-! DEFINITION. The launch queues: their registers, acceptance of packets, timetables and their frames (02 R56 to R61,
03 R63 to R68, R78, 14 R405, R408). -/

namespace Sys2Proof.Machine

/-! ## Acceptance (02 R56 to R58, 03 R67) -/

/-- The checks of a packet at enqueue, with the queue's QCFG; `frameLen` is that of its timetable: the byte of the lowest bit
of each field, and whether the field offends. -/
def packetChecks (p : List Word) (cfg : Nat) (frameLen : Option Nat) : List (Nat × Bool) :=
  let q (i : Nat) : Nat := (p.getD i 0).toNat
  let size := bitsAt (q 1) 43 5
  let rel := bitsAt (q 2) 0 48
  let dl := bitsAt (q 3) 0 48
  [(0, bitsAt (q 0) 0 6 != 0), (7, bitsAt (q 0) 56 8 != 0), (8, bitAt (q 1) 0),
   (12, bitsAt (q 1) 32 4 != 0 || bitsAt (q 1) 36 4 != cfgCtx cfg),
   (13, bitsAt (q 1) 40 3 != 0 || size == 0 || 24 < size), (14, bitsAt (q 1) 48 8 == 0 || 64 < bitsAt (q 1) 48 8),
   (16, match frameLen with | some n => n ≤ rel | none => false),
   (22, bitsAt (q 2) 52 10 != 0 || (!bitAt (q 2) 62 && bitsAt (q 2) 48 4 != 0)),
   (24, if cfgEdf cfg then decide (dl < rel) else dl != 0), (30, bitsAt (q 3) 48 16 != 0),
   (32, bitsAt (q 4) 0 2 == 3 || bitsAt (q 4) 2 2 == 3 || bitsAt (q 4) 5 2 != cfgTrace cfg),
   (33, bitsAt (q 4) 11 2 != b2n (cfgEdf cfg) || bitsAt (q 4) 13 51 != 0)]

/-- A task as it is accepted; `entry` is its entry of the timetable, or its number in the order in which EDF queues accept. -/
def newTask (id : TaskId) (p : List Word) (release start entry : Nat) : Task :=
  let n := bitsAt (p.getD 1 0).toNat 48 8
  { id := id, pkt := p, ctx := bitsAt (p.getD 1 0).toNat 36 4, released := false, release := release, frameStart := start
    entry := entry, ready := none, image := none, layout := none
    gangs := (List.range n).map fun g =>
      { idx := g, die := homeOf id, state := .waiting, cores := [], loaded := [], saved := [], ended := [], counts := []
        since := none, layout := none }
    status := 0, detail := 0, statusGang := 0, admitTick := 0, admitted := false, demoted := false, traceDiv := false
    restarted := false, asks := none, yielding := none, yields := [], noted := false, spells := [] }

/-- The acceptance of a packet by an EDF queue: the next sequence number, the checks, the task or the rejection. -/
def State.accept (s : State) (d : DieId) (q : Nat) (p : List Word) : State :=
  let x := (s.die d).seqOf q
  let s := s.updDie d (·.setSeq q (x.1, (x.2 + 1) % 2 ^ 32))
  match leastBad (packetChecks p (s.qreg d q 0) none) with
  | some off => s.qfault d q 1 x.2 off
  | none =>
    let s := s.now
    let rel := max (bitsAt (p.getD 2 0).toNat 0 48) s.frame.toNat
    { s with tasks := s.tasks ++ [newTask (taskIdOf d q x.1 x.2) p rel 0 s.nextId], nextId := s.nextId + 1 }

/-- The words of a 64-byte packet at a physical address. -/
def State.packetAt (s : State) (pa : Nat) : List Word := (List.range 8).map fun i => .ofNat 64 (s.rd (s.redirect (pa + 8 * i)) 8)

/-- Can the launch unit of a die act? -/
def State.launchUp (s : State) (d : DieId) : Bool := !s.down d && !(s.die d).removed

/-! ## The ring (03 R65, R66, R67) -/

/-- QTAIL_WRITE. -/
def execQtailWrite (d : DieId) (q : Nat) (v : Word) (s : State) : Out :=
  if s.down d || !s.queueThere d q then .next s
  else
    let cfg := s.qreg d q 0
    let tail := bitsAt v.toNat 0 32
    if !cfgEdf cfg then .next (s.qrefuse d q 0xB)
    else if 2 ^ cfgLog cfg < (tail + 2 ^ 32 - bitsAt (s.qreg d q 0x18) 0 32) % 2 ^ 32 then .next (s.qrefuse d q 0xA)
    else .next (s.setQreg d q 0x10 tail)

/-- Does the launch unit have a ring slot to read? -/
def State.ringReady (s : State) (d : DieId) (q : Nat) : Bool :=
  let cfg := s.qreg d q 0
  s.launchUp d && cfgEn cfg && cfgEdf cfg && bitsAt (s.qreg d q 0x18) 0 32 != bitsAt (s.qreg d q 0x10) 0 32 &&
    s.queueLoad d q < 64

/-- The address of the slot at HEAD. -/
def State.ringSlot (s : State) (d : DieId) (q : Nat) : Nat :=
  bitsAt (s.qreg d q 8) 6 46 * 2 ^ 6 + bitsAt (s.qreg d q 0x18) 0 32 % 2 ^ cfgLog (s.qreg d q 0) * 64
/-- What a read of the launch unit of die `d` of 64 bytes at physical address `pa` waits for: its bank (04 R96), and what causally precedes
it (12 R349). -/
def State.packetHold (s : State) (d : DieId) (pa : Nat) : Option State :=
  let a := s.redirect pa
  if s.switching a then none else s.directReads d (paDie a).toList

/-- RING_SLOT_READ: the slot at HEAD is read at its home slice and its packet accepted. A slot that names no memory reads
as zeros, and so does one on a die in reset (log 45). -/
def execRingSlotRead (d : DieId) (q : Nat) (s : State) : Out :=
  match if s.ringReady d q then s.packetHold d (s.ringSlot d q) else none with
  | none => .fault (.notEnabled "RING_SLOT_READ")
  | some s =>
    let h := s.qreg d q 0x18
    let head := bitsAt h 0 32
    let pa := s.ringSlot d q
    let bad := s.inMirror pa || s.isReserved (s.redirect pa) || !s.answers pa
    let s := if bad then s.faultRec d (cfgCtx (s.qreg d q 0)) 0x05 0 pa 0 (s.luMaster d) else s
    let p := if bad then List.replicate 8 0 else s.packetAt pa
    let s := s.setQreg d q 0x18 (h - head + (head + 1) % 2 ^ 32)
    .next (s.accept d q p)

/-! ## LAUNCH (03 R68) -/

/-- A packet that has been read arrives at its queue: it is rejected, waits, or is accepted. BAD_FIELD comes before QUEUE_OFF
(log 89), and CTX, or a queue that is a TIMETABLE, before any other field: a DESIGN CHOICE (log 109). -/
def State.arrivePacket (s : State) (d : DieId) (q ctx : Nat) (p : List Word) : State :=
  let cfg := s.qreg d q 0
  let seq := ((s.die d).seqOf q).2
  let refuse (off : Nat) : State :=
    (s.updDie d fun x => x.setSeq q ((x.seqOf q).1, (seq + 1) % 2 ^ 32)).qfault d q 1 seq off
  if bitsAt (p.getD 1 0).toNat 36 4 ≠ ctx then refuse 12
  else if !cfgEdf cfg then refuse 33
  else if !cfgEn cfg then s.qrefuse d q 0xC
  else if 64 ≤ s.queueLoad d q || (s.die d).waitingOf q ≠ 0 then
    if 256 ≤ (s.die d).launchWait.length then s.qrefuse d q 0xA
    else s.updDie d fun x => { x with launchWait := x.launchWait ++ [(q, p)] }
  else s.accept d q p

/-- May the packet of LAUNCH access `a` be read: no earlier one of its strand for the same queue is on its way? -/
def State.launchTurn (s : State) (a : Access) : Bool :=
  match a.act with
  | .launch q _ =>
    a.stage == .home && !a.held && !s.down a.home && !s.flight.any fun b =>
      sameStrand a b && b.seq < a.seq && b.home == a.home && (match b.act with | .launch p _ => p == q | _ => false)
  | _ => false

/-- LAUNCH_PACKET_ARRIVE: the launch unit of the target die reads the 64 bytes of a committed LAUNCH once, checked as an
access of its strand (04 R99, R100). One of a sector whose seal fails is dropped, with the SEAL record, and the strand takes SEAL
(log 71). -/
def execLaunchPacketArrive (id : Nat) (s : State) : Out :=
  match s.flight.find? (·.id == id) with
  | none => .fault (.notEnabled "LAUNCH_PACKET_ARRIVE")
  | some a =>
    match if s.launchTurn a then s.packetHold a.home ((a.parts.map (·.pa)).headD 0) else none with
    | none => .fault (.notEnabled "LAUNCH_PACKET_ARRIVE")
    | some s =>
      match a.act, a.parts with
      | .launch q _, p :: _ =>
        .next (s.checkWhole a
          (match s.failedSector p.pa 64 false with
          | some x => (s.sealRec (s.whoIs a) p.va x).failAccess a .seal p.va
          | none => ((s.arrivePacket a.home q a.ctx (s.packetAt p.pa)).performedAccess a)))
      | _, _ => .fault (.notEnabled "LAUNCH_PACKET_ARRIVE")

/-- WAITING_PACKET_ACCEPT: a task of the queue has retired, and the first packet that waits is accepted. -/
def execWaitingPacketAccept (d : DieId) (q : Nat) (s : State) : Out :=
  match (s.die d).launchWait.find? (·.1 == q) with
  | some x =>
    if s.launchUp d && s.queueLoad d q < 64 then
      .next ((s.updDie d fun y => { y with launchWait := y.launchWait.erase x }).accept d q x.2)
    else .fault (.notEnabled "WAITING_PACKET_ACCEPT")
  | none => .fault (.notEnabled "WAITING_PACKET_ACCEPT")

/-! ## Slip events (03 R78, Table 03-6) -/

def State.slip (s : State) (d : DieId) (q cause reason seq overrun ctx ref : Nat) : State :=
  let s := s.now
  s.ringPut d 0x100 0x108 s.frame.toNat
    (b2n (64 ≤ q) * 2 ^ 63 + q % 64 * 2 ^ 52 + cause * 2 ^ 48 + reason * 2 ^ 44 + seq % 2 ^ 32) (overrun % 2 ^ 48)
    (ctx % 16 * 2 ^ 48 + ref % 2 ^ 48)

/-! ## Timetables (02 R59 to R61) -/

def Die.tt (d : Die) (q : Nat) : Option TTable := d.tts.find? fun t => t.queue + 64 * b2n t.adopted == q
def Die.dropTt (d : Die) (q : Nat) : Die := { d with tts := d.tts.filter fun t => t.queue + 64 * b2n t.adopted != q }
def Die.putTt (d : Die) (t : TTable) : Die :=
  { d.dropTt (t.queue + 64 * b2n t.adopted) with tts := t :: (d.dropTt (t.queue + 64 * b2n t.adopted)).tts }

/-- The checks of a timetable header (Table 02-12); a reserved word that is not zero offends at its own offset (log 88). -/
def ttChecks (h : List Byte) : List (Nat × Bool) :=
  let q := byteWord h
  let n := bitsAt (q 1) 32 16
  [(6, bitsAt (q 0) 48 16 != 0), (8, bitsAt (q 1) 0 32 == 0), (12, n == 0 || 4096 < n), (14, bitsAt (q 1) 48 16 != 0),
   (20, bitsAt (q 2) 32 32 != 0), (31, bitsAt (q 3) 56 8 != 0)] ++ (List.range 4).map fun i => (32 + 8 * i, q (4 + i) != 0)

/-- The address of entry `e` of the timetable at `va`. -/
def entryVa (va e : Nat) : Nat := canonVa (va + 64 + 64 * e)
/-- The first entry whose RELEASE lies below that of an entry before it; `last` is the last RELEASE. An entry that cannot be
read is recorded (03 R433) and passed over. -/
def State.orderBad (s : State) (d : DieId) (ctx va : Nat) : Nat → Nat → Nat → State × Option Nat
  | 0, _, _ => (s, none)
  | n + 1, e, last =>
    match s.luRead ctx (entryVa va e) 64 with
    | .error x => (s.luRec d ctx x.1 2 x.2).orderBad d ctx va n (e + 1) last
    | .ok l =>
      let r := bitsAt (byteWord l 2) 0 48
      if r < last then (s, some e) else s.orderBad d ctx va n (e + 1) r

/-- The header at `va` of queue `q` read and checked: the state and its bytes, or the state with the rejection. An order that
fails is recorded in the form of an entry, at its RELEASE; a RELEASE beyond the frame is left for the frame's start (log 89). -/
def State.readTt (s : State) (d : DieId) (q va : Nat) : Except State (State × List Byte) :=
  let ctx := cfgCtx (s.qreg d q 0)
  match s.luRead ctx va 64 with
  | .error e => .error ((s.luRec d ctx e.1 1 e.2).qfault d q 1 0 0x80)
  | .ok h =>
    match leastBad (ttChecks h) with
    | some o => .error (s.qfault d q 1 0 (0x80 + o))
    | none =>
      match s.orderBad d ctx va (bitsAt (byteWord h 1) 32 16) 0 0 with
      | (s, some e) => .error (s.qfault d q 1 e 16)
      | (s, none) => .ok (s, h)

/-- TIMETABLE_BIND: the queue binds the timetable at `va`, or stays unbound. LATE_START names no task: its SEQ and REASON are 0
(log 89). -/
def State.bindTt (s : State) (d : DieId) (q va : Nat) : State :=
  match s.readTt d q (canonVa va) with
  | .error s => (s.updDie d (·.dropTt q)).setQreg d q 0x20 0
  | .ok (s, h) =>
    let s := s.now
    let start := bitsAt (byteWord h 0) 0 48
    let late : Bool := start < s.frame.toNat
    let at' := if late then s.frame.toNat else start
    let s := (s.setQreg d q 0x20 (va % 2 ^ 56)).updDie d fun x => x.putTt
      { queue := q % 64, adopted := 64 ≤ q, va := canonVa va, frameLen := bitsAt (byteWord h 1) 0 32
        count := bitsAt (byteWord h 2) 0 32, alt := bitsAt (byteWord h 3) 0 56, entries := bitsAt (byteWord h 1) 32 16
        frame := 0, s := at', began := false, next := none, degraded := false }
    if late then s.slip d q 0 0 0 (at' - start) (cfgCtx (s.qreg d q 0)) start else s

/-- QTT_WRITE. -/
def execQttWrite (d : DieId) (q : Nat) (v : Word) (app : AppCore) (s : State) : Out := s.byApp app <|
  if s.down d || !s.queueThere d q then .next s
  else
    let va := bitsAt v.toNat 0 56
    let s := s.setQreg d q 0x20 va
    let cfg := s.qreg d q 0
    match (s.die d).tt q with
    | some t => .next (s.updDie d (·.putTt { t with next := some va }))
    | none => if cfgEn cfg && !cfgEdf cfg && va ≠ 0 then .next (s.bindTt d q va) else .next s

/-- Is the timetable to be unbound now: at the end of its frame, or after its last one? -/
def State.unbindDue (s : State) (t : TTable) : Bool :=
  !t.began && ((t.next.isSome && (t.frame == 0 || t.s ≤ s.frame.toNat)) || (t.count ≠ 0 && t.count ≤ t.frame))

/-- TIMETABLE_UNBIND: the timetable leaves its queue; one that was written meanwhile is bound. -/
def execTimetableUnbind (d : DieId) (q : Nat) (s : State) : Out :=
  match (s.die d).tt q with
  | some t =>
    if !s.launchUp d || !s.unbindDue t then .fault (.notEnabled "TIMETABLE_UNBIND")
    else
      let s := s.updDie d (·.dropTt q)
      let va := t.next.getD 0
      let cfg := s.qreg d q 0
      if va = 0 then .next (s.setQreg d q 0x20 0)
      else if cfgEn cfg && !cfgEdf cfg then .next (s.bindTt d q va)
      else .next (s.setQreg d q 0x20 va)
  | none => .fault (.notEnabled "TIMETABLE_UNBIND")

/-- SEQ of a timetable task: frame[19:0] and entry. -/
def ttSeq (f e : Nat) : Nat := f % 2 ^ 20 * 2 ^ 12 + e

/-- The entries of frame `t.frame` read and accepted, from entry `e` on. -/
def State.readEntries (s : State) (d : DieId) (q : Nat) (t : TTable) : Nat → Nat → State
  | 0, _ => s
  | n + 1, e =>
    let ctx := cfgCtx (s.qreg d q 0)
    let seq := ttSeq t.frame e
    let s := match s.luRead ctx (entryVa t.va e) 64 with
      | .error x => (s.luRec d ctx x.1 2 x.2).qfault d q 1 seq 0
      | .ok l =>
        let p := (List.range 8).map fun i => BitVec.ofNat 64 (byteWord l i)
        match leastBad (packetChecks p (s.qreg d q 0) (some t.frameLen)) with
        | some off => s.qfault d q 1 seq off
        | none =>
          { s with tasks := s.tasks ++
              [newTask (taskIdOf d q ((s.die d).seqOf q).1 seq) p (t.s + bitsAt (p.getD 2 0).toNat 0 48) t.s e] }
    s.readEntries d q t n (e + 1)

/-- The timetable of a queue whose next frame starts now; while EN is 0 none starts, and the timetable stays bound (log 89). -/
def State.frameDue (s : State) (d : DieId) (q : Nat) : Option TTable :=
  match (s.die d).tt q with
  | some t =>
    if s.launchUp d && cfgEn (s.qreg d q 0) && t.next.isNone && !t.began && (t.count == 0 || t.frame < t.count) &&
        t.s ≤ s.frame.toNat then some t else none
  | none => none

/-- FRAME_START: at S(f) the entries of frame f are read and released as tasks. A frame without any is over at once. -/
def execFrameStart (d : DieId) (q : Nat) (s : State) : Out :=
  match s.frameDue d q with
  | some t =>
    if t.degraded then .fault (.notEnabled "FRAME_START")
    else
      let n := s.tasks.length
      let s := s.readEntries d q t t.entries 0
      let t := if s.tasks.length = n then { t with frame := t.frame + 1, s := t.s + t.frameLen } else { t with began := true }
      .next (s.updDie d (·.putTt t))
  | none => .fault (.notEnabled "FRAME_START")

/-- DEGRADED_SWITCH: at the next frame start after a failover the queue takes its alternate timetable (14 R408). -/
def execDegradedSwitch (d : DieId) (q : Nat) (s : State) : Out :=
  match s.frameDue d q with
  | some t =>
    if !t.degraded then .fault (.notEnabled "DEGRADED_SWITCH")
    else
      let s := s.faultRec d (cfgCtx (s.qreg d q 0)) 0x15 0 0 q (s.luMaster d)
      match s.readTt d q (canonVa t.alt) with
      | .error s => .next ((s.updDie d (·.dropTt q)).setQreg d q 0x20 0)
      | .ok (s, h) =>
        let n := bitsAt (byteWord h 2) 0 32
        .next ((s.setQreg d q 0x20 t.alt).updDie d (·.putTt { t with
          va := canonVa t.alt, alt := 0, degraded := false, frameLen := bitsAt (byteWord h 1) 0 32
          entries := bitsAt (byteWord h 1) 32 16, count := if n = 0 then 0 else t.frame + n }))
  | none => .fault (.notEnabled "DEGRADED_SWITCH")

/-! ## QCFG (03 R63, R67, R68, R78) -/

/-- The writable bits of QCFG. -/
def qcfgMask : Nat := 0xFFFFF0F000E01
/-- QCFG takes `v`: a queue that starts counts its packets from 0 and binds the timetable that QTT names; the waiting packets
of a queue that stops are rejected. -/
def State.setQcfg (s : State) (d : DieId) (q v : Nat) : State :=
  let old := s.qreg d q 0
  let s := s.setQreg d q 0 v
  if cfgEn old && !cfgEn v then (s.dropWaiting d q).notSince fun t => ofQueue d q t.id
  else if !cfgEn old && cfgEn v then
    let s := s.updDie d fun x => { x.setSeq q ((x.seqOf q).1 + 1, 0) with ran := x.ran.filter (·.1 != q) }
    let va := s.qreg d q 0x20
    if !cfgEdf v && va ≠ 0 && ((s.die d).tt q).isNone then s.bindTt d q va else s
  else s

/-- QCFG_WRITE. -/
def execQcfgWrite (d : DieId) (q : Nat) (v : Word) (app : AppCore) (s : State) : Out := s.byApp app <|
  if s.down d || !s.queueThere d q then .next s
  else
    let old := s.qreg d q 0
    let v := v.toNat &&& qcfgMask
    let bad := cfgTrace v == 3 || cfgLog v < 4 || 12 < cfgLog v
    if bad then .next (s.accViol d (qOff q) app)
    else if cfgEn old then
      let s := if v / 2 ≠ old / 2 then s.accViol d (qOff q) app else s
      .next (s.setQcfg d q (old - b2n (cfgEn old) + b2n (cfgEn v)))
    else .next (s.setQcfg d q v)

/-- QTRACE_WRITE: a write resets POS (Table 03-1). -/
def execQtraceWrite (d : DieId) (q : Nat) (v : Word) (app : AppCore) (s : State) : Out := s.byApp app <|
  if s.down d || !s.queueThere d q then .next s
  else
    let v := v.toNat % 2 ^ 52 &&& 0xFFFFFFFFFF01F
    if cfgEn (s.qreg d q 0) || v % 32 < 4 || 11 < v % 32 then .next (s.accViol d (qOff q + 0x30) app)
    else .next (s.setQreg d q 0x30 v)

/-- QFAULT_READ: the value, and the register cleared. -/
def execQfaultRead (d : DieId) (q : Nat) (s : State) : Out :=
  if s.down d || !s.queueThere d q then .next s
  else .next { s.setQreg d q 0x38 0 with reply := some (.ofNat 64 (s.qreg d q 0x38)) }

end Sys2Proof.Machine
end

