-- ==== Sys2Proof/Machine/Bind.lean ====
section
/-! DEFINITION. Rank, the binder, and what the launch unit checks of a task as it considers it (03 R71, 04 R83 to R87,
02 R47 to R58). -/

namespace Sys2Proof.Machine

def Task.q (t : Task) (i : Nat) : Nat := (t.pkt.getD i 0).toNat
def Task.deadline (t : Task) : Nat := bitsAt (t.q 3) 0 48
/-- A task of a TIMETABLE queue. -/
def Task.timed (t : Task) : Bool := bitsAt (t.q 4) 11 2 == 0

/-! ## Rank (03 R71) -/

/-- The class of a task: 0 timetable, 1 EDF, 2 background. -/
def Task.rankClass (t : Task) : Nat := if t.timed then 0 else if t.demoted then 2 else 1
/-- The keys of a gang in the order of comparison; queues compare by the pair of die code and number. -/
def Task.rank (t : Task) (g : Nat) : List Nat :=
  [t.rankClass, if t.timed then t.release else t.deadline, t.id.die.code, t.id.queue, t.entry, g]
def rankLt : List Nat → List Nat → Bool
  | x :: r, y :: t => x < y || (x == y && rankLt r t)
  | [], _ :: _ => true
  | _, [] => false

/-! ## Cores (04 R85) -/

def State.eligible (s : State) (c : CoreId) : Bool :=
  c.num < coreCount c.die && Config.coreEn c.die / 2 ^ c.num % 2 == 1 && !bitAt (s.reg c.die 0) (32 + c.num)
/-- Is the core bound to a strand that has not started? -/
def State.promised (s : State) (c : CoreId) : Bool :=
  s.tasks.any fun t => t.status == 0 && t.gangs.any fun g => (g.loads || g.state == .waiting) &&
    g.cores.zipIdx.any fun x => x.1 == c && !g.loaded.contains x.2 && !g.ended.contains x.2
/-- Is the core free for gang `g` of task `t`? -/
def State.freeFor (s : State) (t : TaskId) (g : Nat) (c : CoreId) : Bool :=
  let k := s.getCore c
  s.eligible c && k.strand.isNone && k.trellis.isEmpty && !s.promised c &&
    !(s.die c.die).held.any fun x => x.1 == c && !(x.2.1 == t && x.2.2 == g)

/-! ## The binder (04 R83 to R86) -/

def gridDist (a b : Nat) : Nat := max (a / 3) (b / 3) - min (a / 3) (b / 3) + (max (a % 3) (b % 3) - min (a % 3) (b % 3))
def adjacent (a b : Nat) : Bool := gridDist a b == 1
/-- The groups of a layout: logical cores joined by chains of class-1 pairs, in order of their lowest core. -/
def layGroups (l : List Word) : List (List Nat) :=
  let n := laySize l
  let gs := (List.range n).foldl (fun (gs : List (List Nat)) j =>
    let mine := gs.filter fun g => g.any fun i => layClass l i j == 1
    (gs.filter fun g => !g.any fun i => layClass l i j == 1) ++ [mine.flatten ++ [j]]) []
  (List.range n).filterMap fun i =>
    (gs.find? fun g => g.contains i && g.all (i ≤ ·)).map fun g => (List.range n).filter (g.contains ·)

/-- Every pair of a group has class 1, and it has at most 4 cores. -/
def groupOk (l : List Word) (g : List Nat) : Bool :=
  g.length ≤ 4 && g.all fun i => g.all fun j => j ≤ i || layClass l i j == 1
/-- Do the classes between two groups fit the clusters `a` and `b`? -/
def groupsFit (l : List Word) (g h : List Nat) (a b : Nat) : Bool :=
  g.all fun i => h.all fun j => (layClass l (min i j) (max i j) == 2) == adjacent a b

/-- The first cluster assignment, in lexicographic order, of the groups that remain. -/
def assign (l : List Word) (clusters : Nat) (room : Nat → Nat) : List (List Nat) → List (List Nat × Nat) →
    Option (List (List Nat × Nat))
  | [], acc => some acc
  | g :: r, acc => (List.range clusters).findSome? fun c =>
    if g.length ≤ room c && acc.all fun x => x.2 != c && groupsFit l x.1 g x.2 c then
      assign l clusters room r (acc ++ [(g, c)])
    else none

/-- The cores of a cluster that `ok` admits, ascending. -/
def clusterCores (d : DieId) (ok : CoreId → Bool) (c : Nat) : List CoreId :=
  ((List.range 4).map fun i => CoreId.mk d (4 * c + i)).filter ok
/-- CORE_BIND: the core of each logical core of layout `l` on die `d`, among those that `ok` admits. -/
def bindLayout (d : DieId) (l : List Word) (ok : CoreId → Bool) : Option (List CoreId) :=
  let gs := layGroups l
  if layAttn l != d.isMem || !gs.all (groupOk l) then none
  else
    match assign l (clusterCount d) (fun c => (clusterCores d ok c).length) gs [] with
    | none => none
    | some a => some ((List.range (laySize l)).filterMap fun i =>
        (a.find? fun x => x.1.contains i).bind fun x => (clusterCores d ok x.2)[x.1.idxOf i]?)

/-- Is the layout realisable on the eligible cores of every die of `ds` (R86)? -/
def State.realisable (s : State) (ds : List DieId) (l : List Word) : Bool :=
  ds.all fun d => (bindLayout d l s.eligible).isSome

/-! ## The consideration of a task (02 R47, R51 to R58, 04 R86) -/

/-- The gangs that wait. -/
def Task.waiting (t : Task) : List Gang := t.gangs.filter (·.state == .waiting)
/-- The dies of the waiting gangs. -/
def Task.dies (t : Task) : List DieId := (t.waiting.map (·.die)).eraseDups

/-- The gangs of a superstep task on the dies that the context's table names (02 R57). -/
def State.placeGangs (s : State) (t : Task) : Task :=
  { t with gangs := t.gangs.map fun g =>
      if g.state == .waiting && g.saved.isEmpty then
        { g with die := ((t.gangVdie g.idx).bind fun v => vdieOf s t.ctx v).getD g.die } else g }

/-- IMAGE_CHECK: the image of a task, from the cache of its die or checked, and the checks of the packet against it. -/
def State.findImage (s : State) (d : DieId) (t : Task) : State :=
  let va := canonVa (bitsAt (t.q 0) 0 56)
  let x : ImageCheck := match (s.die d).cached t.ctx va with
    | some im => .ok im
    | none => s.checkImage t.ctx va (bitsAt (t.q 1) 56 8)
  match x with
  | .bad o => s.endTask t.id 1 o 0
  | .unread o a c => (s.luRec d t.ctx a 0 c).endTask t.id 1 (o % 2 ^ 32) 0
  | .ok im =>
    let s := if ((s.die d).cached t.ctx va).isNone then s.updDie d (·.cache im) else s
    match leastBad (s.packetImageChecks t im) with
    | some o => s.endTask t.id 1 o 0
    | none =>
      let lay := (im.layoutOf (bitsAt (t.q 1) 56 8)).getD []
      match leastBad (grantChecks im lay) with
      | some o => s.endTask t.id 1 o 0
      | none =>
        let t := s.placeGangs t
        match im.routines.find? fun w => !t.dies.all fun e => (s.die e).routineOk w with
        | some w => s.endTask t.id 3 (bitsAt w.toNat 0 8) 0
        | none => s.updTask t.id fun _ => { t with image := some im }

/-- The layout that a task keeps, from those that follow `from'` where one has been kept before. -/
def State.findLayout (s : State) (t : Task) (im : Image) : State :=
  let id := bitsAt (t.q 1) 56 8
  let ids := id :: ((im.layoutOf id).map layAlts).getD []
  let rest := match t.layout with
    | some k => (ids.drop (ids.idxOf k + 1))
    | none => ids
  match rest.find? fun i => match im.layoutOf i with | some l => s.realisable t.dies l | none => false with
  | some i => s.updTask t.id fun x => { x with layout := some i }
  | none => s.endTask t.id 2 (ids.getLastD 0) 0

/-- Has the task the image that the cache of its die holds (02 R48: a revocation, or 64 later admissions, drop it)? -/
def State.imageStands (s : State) (d : DieId) (t : Task) : Bool :=
  match t.image with
  | some im => (s.die d).cached im.ctx im.va == some im
  | none => false

/-- The launch unit considers a task: its state, and the layout record to bind once nothing stands in the way. -/
def State.consider (s : State) (d : DieId) (tid : TaskId) : State × Option (List Word) :=
  let s := match s.findTask tid with
    | some t => if s.imageStands d t then s else s.findImage d t
    | none => s
  match s.findTask tid with
  | none => (s, none)
  | some t =>
    let s := s.updTask tid fun x => if x.status == 0 then s.placeGangs x else x
    match t.image with
    | none => (s, none)
    | some im =>
      if t.status != 0 || (im.sign.isSome && !im.verified) then (s, none)
      else
        let t := s.placeGangs t
        let kept (t : Task) : Option (List Word) := t.layout.bind im.layoutOf
        let s := match kept t with
          | some l => if s.realisable t.dies l then s else s.findLayout t im
          | none => s.findLayout t im
        match s.findTask tid with
        | some t => (s, if t.status == 0 then kept t else none)
        | none => (s, none)

/-- SIGNATURE_CHECK: Rhoath checks the signature of the image that task `tid` waits for (02 R55). A privileged image whose key is
not a Gwynnos key ends as one whose signature fails, and so does one that cannot be read, with the record of an entry that the walk
rejects (09 R243; log 88). -/
def execSignatureCheck (tid : TaskId) (s : State) : Out :=
  match s.findTask tid with
  | none => .fault (.notEnabled "SIGNATURE_CHECK")
  | some t =>
    match t.image with
    | none => .fault (.notEnabled "SIGNATURE_CHECK")
    | some im =>
      match im.sign with
      | none => .fault (.notEnabled "SIGNATURE_CHECK")
      | some (o, n) =>
        if im.verified || t.status != 0 then .fault (.notEnabled "SIGNATURE_CHECK")
        else
          let ok : Bool := match s.luRead t.ctx im.va im.size with
            | .error _ => false
            | .ok l =>
              let sig := (l.drop o).take n
              Config.sm3 (l.take o ++ l.drop (o + n)) == bytesNat ((sig.drop 8).take 32) && Config.signatureHolds sig &&
                (!im.priv || Config.gwynnosKey (bytesNat (sig.take 2)))
          if ok then
            let im := { im with verified := true }
            let d := homeOf tid
            .next ((s.updTask tid fun x => { x with image := some im }).updDie d fun x =>
              if (x.cached im.ctx im.va).isSome then { x with imageCache := x.imageCache.map fun y =>
                if y.ctx == im.ctx && y.va == im.va then im else y } else x)
          else
            let s := match s.luRead t.ctx im.va im.size with
              | .error e => s.badPteRec (homeOf tid) t.ctx e.1 (s.walkVa t.ctx e.1) (s.luMaster (homeOf tid))
              | .ok _ => s
            .next (s.endTask tid 4 0 0)

end Sys2Proof.Machine
end

