-- ==== Sys2Proof/Machine/Admit.lean ====
section
/-! DEFINITION. Release, admission passes, reservations, superstep binding, the starvation yield, deadlines and retirement
(03 R70 to R82, R433). -/

namespace Sys2Proof.Machine

/-! ## Release and wait conditions (02 R57, 03 R70, R433) -/

/-- Wait condition `i` of a task, if it is in use: the counter's address and its LIMIT. -/
def Task.cond (t : Task) (i : Nat) : Option (Nat × Nat) :=
  let w := t.q (6 + i)
  if bitsAt w 53 11 = 0 then none else some (canonVa (bitsAt w 0 53 * 2 ^ 3), bitsAt w 53 11)

/-- What the read of the counter of condition `i` waits for: none while it must wait. -/
def State.sampleHold (s : State) (t : Task) (i : Nat) : Option State :=
  match t.cond i with
  | none => some s
  | some (va, _) => s.luHold (homeOf t.id) t.ctx va (·.r) true
/-- One sample of a condition: whether it holds, where its read need not wait, or the cause for which its counter cannot be read. -/
def State.sample (s : State) (t : Task) (i : Nat) : Except Nat (Option Bool) :=
  match t.cond i, s.sampleHold t i with
  | none, _ => .ok (some true)
  | _, none => .ok none
  | some (va, lim), some _ =>
    match s.luPlace t.ctx va (·.r) with
    | .error c => .error c
    | .ok pa => .ok (some (s.rd pa 8 < lim))
/-- Do both conditions hold, as far as they can be told? -/
def bothHold : Option Bool → Option Bool → Option Bool
  | some false, _ | _, some false => some false
  | some true, some true => some true
  | _, _ => none

/-- Both conditions of a task sampled: `ready` keeps the tick since which they have held, `spells` the spells in which they held
before, each to the tick at which one of them failed. What the homes of the counters know is known from then on (12 R349, R368). -/
def State.sampleTask (s : State) (t : Task) : State :=
  let fail (i c : Nat) : State :=
    match t.cond i with
    | some (va, _) => (s.luRec (homeOf t.id) t.ctx va 3 c).endTask t.id 1 (48 + 8 * i) 0
    | none => s
  match s.sample t 0, s.sample t 1 with
  | .error c, _ => fail 0 c
  | _, .error c => fail 1 c
  | .ok a, .ok b =>
    match bothHold a b with
    | none => s
    | some ab =>
      let s := (List.range 2).foldl (fun s i => (s.sampleHold t i).getD s) s
      let s := if ab || t.admitted then s else s.notSince fun x => x.id == t.id
      s.updTask t.id fun x =>
        { x with
          ready := if ab then some (x.ready.getD s.frame.toNat) else none
          spells := match x.ready with | some f => if ab then x.spells else (f, s.frame.toNat) :: x.spells | none => x.spells }

/-- TASK_RELEASE: the release tick is reached, and the wait conditions are sampled. -/
def execTaskRelease (tid : TaskId) (s : State) : Out :=
  match s.findTask tid with
  | some t =>
    if t.released || t.status != 0 || !s.launchUp (homeOf tid) || s.frame.toNat < t.release then
      .fault (.notEnabled "TASK_RELEASE")
    else .next ((s.updTask tid fun x => { x with released := true }).sampleTask { t with released := true })
  | none => .fault (.notEnabled "TASK_RELEASE")

/-- The conditions that the launch unit of a die tests, in order of acceptance. -/
def State.conds (s : State) (d : DieId) : List (TaskId × Nat) :=
  s.tasks.flatMap fun t =>
    if homeOf t.id == d && t.released && !t.admitted && t.status == 0 then
      ((List.range 2).filter fun i => (t.cond i).isSome).map fun i => (t.id, i) else []
/-- Would a new sample change the task? -/
def State.sampleNews (s : State) (t : Task) : Bool :=
  match s.sample t 0, s.sample t 1 with
  | .ok a, .ok b => (bothHold a b).any (· != t.ready.isSome)
  | _, _ => true
/-- The tasks of conditions `l` whose sample brings news. -/
def State.newsOf (s : State) (l : List (TaskId × Nat)) : List Task :=
  ((l.map (·.1)).eraseDups.filterMap s.findTask).filter s.sampleNews

/-- COUNTER_WATCH: a watched counter has been written and its condition is tested again; a die watches 256. -/
def execCounterWatch (d : DieId) (s : State) : Out :=
  match s.newsOf ((s.conds d).take 256) with
  | [] => .fault (.notEnabled "COUNTER_WATCH")
  | l => if s.launchUp d then .next (l.foldl State.sampleTask s) else .fault (.notEnabled "COUNTER_WATCH")
/-- COUNTER_POLL: the counters that are not watched are read again every 16 frame ticks. -/
def execCounterPoll (d : DieId) (s : State) : Out :=
  match s.newsOf ((s.conds d).drop 256) with
  | [] => .fault (.notEnabled "COUNTER_POLL")
  | l => if s.launchUp d then .next (l.foldl State.sampleTask s) else .fault (.notEnabled "COUNTER_POLL")

/-! ## The dispatch trace (03 R81, R82) -/

/-- The records of a trace buffer; at a size of 0 it has none: nothing is recorded, and the order is the ordinary one (log 61). -/
def traceSize (r : Nat) : Nat := if bitsAt r 0 5 = 0 then 0 else 2 ^ bitsAt r 0 5
def tracePos (r : Nat) : Nat := bitsAt r 52 12
def tracePa (r i : Nat) : Nat := bitsAt r 12 40 * 2 ^ 12 + 16 * i
/-- SEQ and GANG of trace record `i`. -/
def State.traceAt (s : State) (r i : Nat) : Nat × Nat :=
  let w := s.rdRec (tracePa r i)
  (bitsAt w 0 32, bitsAt w 32 8)

/-- Has the task that a record of queue `q` names ended without admission: it ends early, or it was accepted and is no longer
there, and no gang of it was admitted? A packet rejected at acceptance counts as one (log 61). -/
def State.seqEnded (s : State) (d : DieId) (q seq : Nat) : Bool :=
  match s.tasks.find? fun t => ofQueue d q t.id && t.id.seq == seq with
  | some t => t.status != 0 && !t.admitted
  | none =>
    !(s.die d).ran.contains (q, seq) && match (s.die d).tt q with
    | some t => seq / 2 ^ 12 < t.frame % 2 ^ 20 || (seq / 2 ^ 12 == t.frame % 2 ^ 20 && t.began)
    | none =>
      let n := (((s.die d).seqOf q).2 + 2 ^ 32 - seq % 2 ^ 32) % 2 ^ 32
      n ≠ 0 && n < 2 ^ 31

/-- Records that name tasks that have ended without admission are skipped. -/
def State.skipTrace (s : State) (d : DieId) (q : Nat) : Nat → State
  | 0 => s
  | n + 1 =>
    let r := s.qreg d q 0x30
    let k := s.traceAt r (tracePos r)
    if cfgTrace (s.qreg d q 0) = 2 && tracePos r < traceSize r && s.seqEnded d q k.1 then
      ((s.updTask (taskIdOf d q ((s.die d).seqOf q).1 k.1) fun t => { t with traceDiv := true }).setQreg d q
        0x30 (r + 2 ^ 52)).skipTrace d q n
    else s

/-- Does the trace of queue `q` let gang `g` of the task with number `seq` be admitted? -/
def State.traceLets (s : State) (d : DieId) (q seq g : Nat) : Bool :=
  let r := s.qreg d q 0x30
  !(cfgTrace (s.qreg d q 0) == 2 && tracePos r < traceSize r) || s.traceAt r (tracePos r) == (seq, g)

/-- TRACE_RECORD: an admission is recorded, or its record passed. QUEUE_FULL names the task whose record fills the buffer
(log 61). -/
def State.traceAdmit (s : State) (d : DieId) (q seq g : Nat) : State :=
  let r := s.qreg d q 0x30
  let mode := cfgTrace (s.qreg d q 0)
  if traceSize r ≤ tracePos r then s
  else if mode = 1 then
    let a := tracePa r (tracePos r)
    let s := ((s.wrRec a (g % 2 ^ 8 * 2 ^ 32 + seq % 2 ^ 32)).wrRec (a + 8) s.frame.toNat).setQreg d q 0x30 (r + 2 ^ 52)
    if tracePos r + 1 = traceSize r then s.qfault d q 0xA seq 0 else s
  else if mode = 2 then s.setQreg d q 0x30 (r + 2 ^ 52)
  else s

/-! ## Admission (03 R71 to R74, 04 R85) -/

/-- Is the task to be admitted by its launch unit: released, its conditions holding or a gang admitted before? -/
def State.admissible (s : State) (t : Task) : Bool :=
  t.status == 0 && t.released && (t.ready.isSome || t.admitted) && cfgEn (s.qreg (homeOf t.id) (qnOf t.id) 0)
/-- The units that a pass of die `d` considers: a task with one of its gangs, a superstep task as a whole. -/
def State.candidates (s : State) (d : DieId) : List (Task × Nat) :=
  (s.tasks.filter fun t => homeOf t.id == d && s.admissible t).flatMap fun t =>
    if t.isSuper then
      (match t.waiting with
      | g :: _ => if t.gangs.all fun x => x.state == .waiting || x.state == .done then [(t, g.idx)] else []
      | [] => [])
    else t.waiting.map fun g => (t, g.idx)
def insRank (x : Task × Nat) : List (Task × Nat) → List (Task × Nat)
  | [] => [x]
  | y :: r => if rankLt (x.1.rank x.2) (y.1.rank y.2) then x :: y :: r else y :: insRank x r
def byRank (l : List (Task × Nat)) : List (Task × Nat) := l.foldl (fun acc x => insRank x acc) []

/-- Does a reservation of die `d` bar gang `g` of task `t` (R72)? -/
def State.barred (s : State) (d : DieId) (t : Task) (g : Nat) : Bool :=
  t.rankClass != 0 && (s.die d).reserve.any fun r =>
    !(r.2.1 == t.id && r.2.2.1 == g) &&
      (!r.1 || match s.findTask r.2.1 with | some x => rankLt (x.rank r.2.2.1) (t.rank g) | none => false)

/-- Reservations whose gangs still wait. -/
def State.cleanReserve (s : State) (d : DieId) : State :=
  let live (r : Bool × TaskId × Nat × Nat) : Bool := match s.findTask r.2.1 with
    | some t => t.status == 0 && t.gangs.any fun g => g.idx == r.2.2.1 && g.state == .waiting
    | none => false
  s.updDie d fun x => { x with reserve := x.reserve.filter live }

/-- A timetable gang that does not fit takes the reservation of the die unless one of higher rank has it. -/
def State.takeReserve (s : State) (d : DieId) (t : Task) (g : Nat) : State :=
  if t.rankClass != 0 then s
  else
    let stands := (s.die d).reserve.any fun r => !r.1 && match s.findTask r.2.1 with
      | some x => !rankLt (t.rank g) (x.rank r.2.2.1)
      | none => false
    if stands then s
    else s.updDie d fun x => { x with reserve := x.reserve.filter (·.1) ++ [(false, t.id, g, s.frame.toNat)] }

/-- Gang `g` admitted to `cores`, whose dies then know what the launch unit knows (12 R368). -/
def State.admitTick (s : State) (tid : TaskId) (g : Nat) (cores : List CoreId) : State :=
  let s := s.now
  let s := s.updTask tid fun t =>
    { t.updGang g fun x => { x with state := .running, cores := cores, loaded := [], started := false, since := none, layout := t.layout } with
      admitted := true, admitTick := if t.admitted then t.admitTick else s.frame.toNat, asks := none
      yielding := if t.yielding = some g then none else t.yielding }
  let s : State := { s with dies := s.dies.map fun d =>
    { d with reserve := d.reserve.filter fun r => !(r.2.1 == tid && r.2.2.1 == g)
             held := d.held.filter fun r => !(r.2.1 == tid && r.2.2 == g) } }
  let s := (cores.map (·.die)).eraseDups.foldl (fun s d => s.tellAll (homeOf tid) d) s
  let s := match (s.findTask tid).bind (·.image) with
    | some im => if ((s.die (homeOf tid)).cached im.ctx im.va).isSome then s.updDie (homeOf tid) (·.cache im) else s
    | none => s
  s.traceAdmit (homeOf tid) (qnOf tid) tid.seq g

/-- Does another task of the context of `t` that carries a GRANT section keep `t`, which carries one, from being admitted
(10 R283)? -/
def State.grantHeld (s : State) (t : Task) : Bool :=
  let grants (x : Task) : Bool := match x.image with | some im => im.grants.isSome | none => false
  grants t && s.tasks.any fun u => u.id != t.id && u.ctx == t.ctx && grants u &&
    u.gangs.any fun g => g.state == .running || g.state == .stopping

/-- The launch unit tries one candidate in its turn. -/
def State.tryAdmit (s : State) (d : DieId) (tid : TaskId) (g : Nat) : State :=
  match s.findTask tid with
  | none => s
  | some t =>
    if !s.admissible t || !t.gangs.any (fun x => x.idx == g && x.state == .waiting) then s
    else
      let x := s.consider d tid
      match x.2 with
      | none => x.1
      | some lay =>
        let s := x.1.updTask tid fun t =>
          { t with gangs := t.gangs.map fun y =>
              if (y.idx == g || t.isSuper) && y.state == .waiting && y.since.isNone then { y with since := some s.frame.toNat } else y }
        if (!t.isSuper && s.barred d t g) || !s.traceLets d (qnOf tid) tid.seq g then s
        else if (match s.findTask tid with | some t => s.grantHeld t | none => false) then
          (if t.isSuper then s else s.takeReserve d t g)
        else if t.isSuper then s.updTask tid fun t => { t with asks := some (t.asks.getD []) }
        else
          match bindLayout d lay (s.freeFor tid g) with
          | some cores => s.admitTick tid g cores
          | none => s.takeReserve d t g

/-- The gang by which a superstep task is ranked. -/
def Task.head (t : Task) : Nat := (t.waiting.map (·.idx)).headD 0
/-- Does a superstep task of die `d` that ranks above gang `g` of task `t`, and has gangs on the die, await the answers of its dies?
Its turn is not over, so what ranks below it waits (R71, R72, R79; log 108). -/
def State.askedAbove (s : State) (d : DieId) (t : Task) (g : Nat) : Bool :=
  s.tasks.any fun u => homeOf u.id == d && u.id != t.id && u.asks.isSome && u.status == 0 && u.dies.contains d &&
    rankLt (u.rank u.head) (t.rank g)
/-- A pass of die `d` over the candidates that `f` takes, in rank order. -/
def State.pass (s : State) (d : DieId) (f : Task × Nat → Bool) : State :=
  let s := (List.range 128).foldl (fun s q => if (s.tasks.any fun t => ofQueue d q t.id) then s.skipTrace d q 4096 else s)
    (s.cleanReserve d)
  (byRank ((s.candidates d).filter f)).foldl (fun s x => if s.askedAbove d x.1 x.2 then s else s.tryAdmit d x.1.id x.2) s

/-- May die `d` bind gangs? -/
def State.admits (s : State) (d : DieId) : Bool := s.launchUp d && (s.die d).coresUp

/-- ADMISSION_PASS: a pass that changes a task or a reservation. -/
def execAdmissionPass (d : DieId) (s : State) : Out :=
  if !s.admits d then .fault (.notEnabled "ADMISSION_PASS")
  else
    let s' := s.pass d fun _ => true
    if s'.tasks = s.tasks && (s'.die d).reserve = (s.die d).reserve then .fault (.notEnabled "ADMISSION_PASS")
    else .next s'

/-! ## Superstep tasks (03 R79) -/

/-- The die that is asked next: the lowest code among those involved that have not answered. -/
def Task.nextAsk (t : Task) : Option DieId :=
  match t.asks with
  | some l => DieId.all.find? fun d => t.dies.contains d && !l.contains d
  | none => none

/-- The gangs of a task bound on die `d`, one after the other, each to cores that remain free. -/
def State.bindAll (s : State) (d : DieId) (tid : TaskId) (lay : List Word) : List Nat → Option State
  | [] => some s
  | g :: r =>
    match bindLayout d lay (s.freeFor tid g) with
    | some cores => (s.updTask tid fun t => t.updGang g fun x => { x with cores := cores }).bindAll d tid lay r
    | none => none

/-- The pass of a superstep task's own die goes on below it, once the task has been answered (R72). -/
def State.passBelow (s : State) (t : Task) : State :=
  let d := homeOf t.id
  if s.admits d then s.pass d fun x => x.1.id != t.id && rankLt (t.rank t.head) (x.1.rank x.2) else s

/-- SUPERSTEP_BIND_REQUEST: the next die is asked; it serves what ranks higher first, then grants or refuses. A refusal
releases every binding; with the last grant the task is admitted. The pass of the task's own die then goes on below it. -/
def execSuperstepBindRequest (d : DieId) (tid : TaskId) (s : State) : Out :=
  match s.findTask tid with
  | none => .fault (.notEnabled "SUPERSTEP_BIND_REQUEST")
  | some t =>
    if t.nextAsk ≠ some d || t.status != 0 || !s.launchUp (homeOf tid) then .fault (.notEnabled "SUPERSTEP_BIND_REQUEST")
    else
      let s := if s.admits d then s.pass d fun x => x.1.id != tid && rankLt (x.1.rank x.2) (t.rank t.head) else s
      let mine := (t.waiting.filter (·.die == d)).map (·.idx)
      let lay := ((t.image.bind fun im => t.layout.bind im.layoutOf)).getD []
      let free (s : State) : State := s.updTask tid fun x =>
        { x with asks := none, gangs := x.gangs.map fun y : Gang => if y.state == .waiting then { y with cores := [] } else y }
      if s.admits d && s.askedAbove d t t.head then .fault (.notEnabled "SUPERSTEP_BIND_REQUEST")
      else match if s.admits d && !s.barred d t (mine.headD 0) && !s.grantHeld t then s.bindAll d tid lay mine else none with
      | none => .next (((free s).takeReserve d t (mine.headD 0)).passBelow t)
      | some s =>
        let s := s.updTask tid fun x => { x with asks := x.asks.map (· ++ [d]) }
        match s.findTask tid with
        | some x =>
          if x.nextAsk.isSome then .next s
          else .next ((x.waiting.foldl (fun s y => s.admitTick tid y.idx y.cores) s).passBelow t)
        | none => .next s

/-! ## Reservations (03 R72, R73) -/

/-- AGING_RESERVATION: an EDF gang has been admissible and unadmitted for 65,536 frame ticks. -/
def execAgingReservation (d : DieId) (tid : TaskId) (g : Nat) (s : State) : Out :=
  match s.findTask tid with
  | none => .fault (.notEnabled "AGING_RESERVATION")
  | some t =>
    match t.gangs.find? (·.idx == g) with
    | none => .fault (.notEnabled "AGING_RESERVATION")
    | some x =>
      if x.die == d && x.state == .waiting && t.rankClass == 1 && s.admissible t && s.launchUp d &&
          (match x.since with | some f => f + 65536 ≤ s.frame.toNat | none => false) &&
          !(s.die d).reserve.any (fun r => r.1 && r.2.1 == tid && r.2.2.1 == g) then
        .next (s.updDie d fun y => { y with reserve := y.reserve ++ [(true, tid, g, s.frame.toNat)] })
      else .fault (.notEnabled "AGING_RESERVATION")

/-- The gangs of die `d` in state `st`, with their tasks. -/
def State.gangsOn (s : State) (d : DieId) (st : GangState) : List (Task × Nat) :=
  s.tasks.flatMap fun t => (t.gangs.filter fun g => g.die == d && g.state == st).map fun g => (t, g.idx)
/-- The cores of a gang. -/
def Task.coresOf (t : Task) (g : Nat) : List CoreId := match t.gangs.find? (·.idx == g) with | some x => x.cores | none => []

/-- Do the gangs `l` fit on die `d` one after the other, each among the cores that `ok` admits and that those before it leave? -/
def fitAll (d : DieId) (lay : List Word) (ok : Nat → CoreId → Bool) : List Nat → List CoreId → Bool
  | [], _ => true
  | g :: r, used => match bindLayout d lay fun c => ok g c && !used.contains c with
    | some l => fitAll d lay ok r (used ++ l)
    | none => false
/-- Would gang `g` of task `t` fit once the cores `more` are free? Of a superstep task, all its gangs on the die must. -/
def State.fitsWith (s : State) (t : Task) (g : Nat) (more : List CoreId) : Bool :=
  match t.gangs.find? (·.idx == g), t.image.bind fun im => t.layout.bind im.layoutOf with
  | some x, some lay =>
    fitAll x.die lay (fun h c => s.freeFor t.id h c || (more.contains c && s.eligible c))
      (if t.isSuper then (t.waiting.filter (·.die == x.die)).map (·.idx) else [g]) []
  | _, _ => false

/-- The reservation of a timetable gang that has stood for PREEMPT_AFTER frame ticks. -/
def State.preemptFor (s : State) (d : DieId) : Option (Task × Nat) :=
  (s.die d).reserve.findSome? fun r =>
    match s.findTask r.2.1 with
    | some t =>
      let n := cfgPreempt (s.qreg (homeOf t.id) (qnOf t.id) 0)
      if !r.1 && n ≠ 0 && r.2.2.2 + n ≤ s.frame.toNat then some (t, r.2.2.1) else none
    | none => none

/-- The last of a list in rank order. -/
def lowest (l : List (Task × Nat)) : Option (Task × Nat) := (byRank l).getLast?

/-- RESERVATION_PREEMPT: the lowest-ranked EDF or background gang that runs is asked to stop, while the reserved gang would
not fit with the cores of those that stop already. -/
def execReservationPreempt (d : DieId) (attention : Bool) (s : State) : Out :=
  match if attention == d.isMem && s.launchUp d then s.preemptFor d else none with
  | none => .fault (.notEnabled "RESERVATION_PREEMPT")
  | some (t, g) =>
    let more := (s.gangsOn d .stopping).flatMap fun x => x.1.coresOf x.2
    match lowest ((s.gangsOn d .running).filter fun x => x.1.rankClass != 0) with
    | some (y, h) => if s.fitsWith t g more then .fault (.notEnabled "RESERVATION_PREEMPT") else .next (s.stopWith y.id h)
    | none => .fault (.notEnabled "RESERVATION_PREEMPT")

/-! ## The starvation yield (03 R80) -/

/-- Has the strand of core `c` executed EXIT? -/
def Core.exited (c : Core) : Bool := c.ended || c.wait == some (.commit .exit)

/-- The barriers on which the strands of a gang wait: gang, core, barrier and the count of its changes; none if a strand that
has not executed EXIT does not wait. -/
def State.blockedOn (s : State) (t : Task) (g : Gang) : Option (List (Nat × Nat × Nat × Nat)) :=
  (List.range t.gangSize).foldl (fun acc l =>
    match acc with
    | none => none
    | some r =>
      if g.ended.contains l then some r
      else match s.holderOf t.id g.idx l with
        | some c =>
          if c.exited then some r
          else (match c.waiting with
          | some (.lt k _) => some (r ++ [(g.idx, l, k.toNat, c.kver.get k.toFin)])
          | _ => none)
        | none => none) (some [])

/-- The counts of changes of every counting barrier of the task's strands: gang, core, barrier and count. -/
def State.barriersOf (s : State) (t : Task) : List (Nat × Nat × Nat × Nat) :=
  t.gangs.flatMap fun g => (List.range t.gangSize).flatMap fun l =>
    let v : Option (Vector Nat 16) := match (s.coreOf t.id g.idx l).map s.getCore with
      | some c => some c.kver
      | none => (g.counts.find? (·.1 == l)).map (·.2.kver)
    match v with
    | some v => v.toList.zipIdx.map fun x => (g.idx, l, x.2, x.1)
    | none => []

/-- The gangs of a task that hold cores. -/
def Task.resident (t : Task) : List Gang := t.gangs.filter fun g => g.state == .running || g.state == .stopping

/-- STARVATION_YIELD: the resident gangs of a task are blocked while gang `w` has no room; one after the other, the highest
first, they are asked to stop until `w` fits. SCHED_STALL is written as an end of the whole task, GANG 0: a DESIGN CHOICE (log 109). -/
def execStarvationYield (tid : TaskId) (w : Nat) (s : State) : Out :=
  match s.findTask tid with
  | none => .fault (.notEnabled "STARVATION_YIELD")
  | some t =>
    let waits := t.gangs.any fun g => g.idx == w && g.state == .waiting
    if t.isSuper || !waits || !s.admissible t || t.layout.isNone || t.gangs.any (·.state == .stopping) ||
        !s.admits (homeOf tid) || s.fitsWith t w [] then .fault (.notEnabled "STARVATION_YIELD")
    else
      let stop (s : State) : Out :=
        match t.resident.getLast? with
        | some g => .next ((s.updTask tid fun x => { x with yielding := some w }).askStop tid g.idx)
        | none => .next (s.endTask tid 5 w 0)
      if t.yielding = some w then stop s
      else if t.yielding.isSome || t.resident.isEmpty then .fault (.notEnabled "STARVATION_YIELD")
      else
        match t.resident.foldl (fun (acc : Option (List (Nat × Nat × Nat × Nat))) g =>
            match acc, s.blockedOn t g with
            | some l, some m => some (l ++ m)
            | _, _ => none) (some []) with
        | none => .fault (.notEnabled "STARVATION_YIELD")
        | some now =>
          let same : Bool := match t.yields.find? (·.1 == w) with
            | some x => now.all (x.2.contains ·)
            | none => false
          if same || !s.fitsWith t w (t.resident.flatMap (·.cores)) then .next (s.endTask tid 5 w 0)
          else stop (s.updTask tid fun x => { x with yields := (w, s.barriersOf t) :: x.yields.filter (·.1 != w) })

/-! ## Deadlines and retirement (03 R75 to R78) -/

/-- REASON: the phase of a task at a frame tick. -/
def Task.phaseAt (t : Task) (f : Nat) : Nat :=
  if t.admitted && t.admitTick ≤ f then 2
  else if t.ready.any (· ≤ f) || t.spells.any fun x => x.1 ≤ f && f < x.2 then 1 else 0

/-- Has the task reached a deadline that it misses? -/
def State.missed (s : State) (t : Task) : Bool := !t.timed && !t.demoted && t.deadline ≤ s.frame.toNat

/-- The frame counter has reached the deadline of task `t`, which is demoted (03 R78). -/
def State.demote (s : State) (t : Task) : State :=
  (s.slip (homeOf t.id) (qnOf t.id) 2 (t.phaseAt t.deadline) t.id.seq 0 t.ctx t.deadline).updTask t.id fun x =>
    { x with demoted := true }

/-- DEADLINE_MISS: the frame counter has reached the deadline of an unretired EDF task, which is demoted. -/
def execDeadlineMiss (tid : TaskId) (s : State) : Out :=
  match s.findTask tid with
  | some t =>
    if !s.missed t || !s.launchUp (homeOf tid) then .fault (.notEnabled "DEADLINE_MISS")
    else
      .next (s.demote t)
  | none => .fault (.notEnabled "DEADLINE_MISS")

/-- Is the effect one that the retirement of its task waits for? A PSEND waits in its channel. -/
def Effect.blocks (e : Effect) : Bool := match e.kind with | .psend .. => false | _ => true

/-- May a task retire: every strand is over, every effect of it performed, every hold applied? A deadline that it misses comes first
where its launch unit can still act; otherwise the retirement notes it (14 R407). -/
def State.canRetire (s : State) (t : Task) : Bool :=
  (t.status != 0 || t.gangs.all (·.state == .done)) &&
    s.cores.all (fun c => match c.strand with | some st => st.task != t.id | none => true) &&
    !s.flight.any (fun a => a.task == some t.id && isWrite a.act) &&
    !s.effects.any (fun e => e.task == some t.id && e.blocks) &&
    s.dies.all (fun d => d.removed || d.holds.all (·.task != t.id)) && !(s.missed t && s.launchUp (homeOf t.id))

/-- The completion counter of a task. -/
def Task.counterVa (t : Task) : Nat := canonVa (bitsAt (t.q 5) 0 53 * 2 ^ 3)
/-- What the completion counter of a task names: none, or the place that its VA reaches or the cause of its failure. -/
def State.completionPlace (s : State) (t : Task) : Option (Except Nat Nat) :=
  if bitsAt (t.q 5) 53 11 = 0 then none else some (s.luPlace t.ctx t.counterVa (·.a))
/-- What the access to it waits for: none while it must wait. -/
def State.completionHold (s : State) (d : DieId) (t : Task) : Option State :=
  if bitsAt (t.q 5) 53 11 = 0 then some s else s.luHold d t.ctx t.counterVa (·.a) false
/-- The decrement of the completion counter, a write of die `d` (12 R347): whether it saturated and whether it failed. -/
def State.complete (s : State) (d : DieId) (t : Task) : State × Bool × Bool :=
  let s := (s.completionHold d t).getD s
  match s.completionPlace t with
  | none => (s, false, false)
  | some (.error c) => (s.luRec d t.ctx t.counterVa 4 c, false, true)
  | some (.ok pa) =>
    let s := (s.directWrites d (homesOf pa 8)).getD s
    let r := s.decrement t.ctx pa (bitsAt (t.q 5) 53 11)
    (r.1, r.2, false)
/-- Must the completion decrement wait: its bank is being switched (04 R96), or a write that causally precedes it has not been
delivered (12 R349)? -/
def State.completionHeld (s : State) (d : DieId) (t : Task) : Bool :=
  (s.completionHold d t).isNone || match s.completionPlace t with
    | some (.ok pa) => (s.directWrites d (homesOf pa 8)).isNone
    | _ => false

/-- QW0 of a completion record (Table 03-3). -/
def completionWord (t : Task) (sat fail : Bool) : Nat :=
  t.statusGang % 2 ^ 8 * 2 ^ 48 + b2n fail * 2 ^ 44 + b2n t.traceDiv * 2 ^ 43 + b2n t.restarted * 2 ^ 42 + b2n sat * 2 ^ 41 +
    b2n t.demoted * 2 ^ 40 + t.status % 2 ^ 8 * 2 ^ 32 + t.id.seq % 2 ^ 32

/-- A completion record on the ring that queue `q` of die `d` names, for a retirement at frame tick `f`. -/
def State.completion (s : State) (d : DieId) (q : Nat) (t : Task) (sat fail : Bool) (f : Nat) : State :=
  let h := s.qreg d q 0x18
  let n := h / 2 ^ 32
  let a := bitsAt (s.qreg d q 0x28) 6 46 * 2 ^ 6 + n % 2 ^ cfgLog (s.qreg d q 0) * 32
  ((((s.wrRec a (completionWord t sat fail)).wrRec (a + 8) (t.detail % 2 ^ 32)).wrRec (a + 16) (t.admitTick % 2 ^ 48)).wrRec (a + 24)
    f).setQreg d q 0x18 ((n + 1) % 2 ^ 32 * 2 ^ 32 + h % 2 ^ 32)

/-- Nothing of a retired task remains. -/
def State.forget (s : State) (tid : TaskId) : State :=
  { s with
    tasks := s.tasks.filter (·.id != tid)
    dies := s.dies.map fun d =>
      { d with
        reserve := d.reserve.filter (·.2.1 != tid), held := d.held.filter (·.2.1 != tid), holds := d.holds.filter (·.task != tid)
        slots := d.slots.filter (·.2.1 != tid), arrivals := d.arrivals.filter (·.2.1 != tid)
        diverged := d.diverged.filter (·.2 != tid)
        ports := d.ports.map fun p => { p with bind := match p.bind with | some b => if b.task = tid then none else some b | none => none }
        chans := d.chans.filter (·.2.task != tid) } }

/-- The frame of a timetable whose last entry has retired, at frame tick `f`, is over: its overrun slides the next (02 R60). -/
def State.endFrame (s : State) (d : DieId) (t : Task) (f : Nat) : State :=
  match (s.die d).tt (qnOf t.id) with
  | some x =>
    if !x.began || x.s != t.frameStart || (s.tasks.any fun y => ofQueue d (qnOf t.id) y.id && y.frameStart == t.frameStart) then s
    else
      let late := f - (x.s + x.frameLen)
      let s := s.updDie d (·.putTt { x with frame := x.frame + 1, s := x.s + x.frameLen + late, began := false })
      if late = 0 then s else s.slip d (qnOf t.id) 1 (t.phaseAt (x.s + x.frameLen)) t.id.seq late t.ctx x.s
  | none => s

/-- Does a record of the trace from POS on name the task? -/
def State.traceNames (s : State) (d : DieId) (q seq : Nat) : Bool :=
  let r := s.qreg d q 0x30
  cfgTrace (s.qreg d q 0) == 2 && (List.range (traceSize r)).any fun i => tracePos r ≤ i && (s.traceAt r i).1 == seq

/-- The retirement of a task on die `d`: the decrement, the record, then the slip events. A deadline that the frame counter
reaches by then is missed. -/
def State.retire (s : State) (d : DieId) (t : Task) : State :=
  let q := qnOf t.id
  let s := s.now
  let f := s.frame.toNat
  let late := s.missed t
  let s := if late then s.demote t else s
  let t := { t with demoted := t.demoted || late }
  let s := if t.admitted && cfgTrace (s.qreg d q 0) = 2 then s.updDie d fun x => { x with ran := (q, t.id.seq) :: x.ran } else s
  let t := { t with traceDiv := t.traceDiv || (!t.admitted && s.traceNames d q t.id.seq) }
  let x := s.complete d t
  let s := (x.1.completion d q t x.2.1 x.2.2 f).forget t.id
  let s := if t.timed then s.endFrame d t f else s
  if t.demoted then s.slip d q 3 (t.phaseAt t.deadline) t.id.seq (f - t.deadline) t.ctx t.deadline else s

/-- TASK_RETIRE: a task that is over retires: no agent sees the decrement before the record. -/
def execTaskRetire (tid : TaskId) (s : State) : Out :=
  match s.findTask tid with
  | some t =>
    let d := homeOf tid
    let lost := (s.die d).removed && (s.die d.twin).removed && s.dies.any (·.uncoreUp)
    if (s.launchUp d || lost) && s.canRetire t && (lost || !s.completionHeld d t) then .next (s.retire (homeOf tid) t) else .fault (.notEnabled "TASK_RETIRE")
  | none => .fault (.notEnabled "TASK_RETIRE")

end Sys2Proof.Machine
end

