-- ==== Sys2Proof/Machine/Regs.lean ====
section
/-! DEFINITION. Reads and writes of the register window and of CTXCFG, revocation, PFDONE (00 R9, R11, 01 R44, 03 R63, R64,
04 R90, R99, 09 R245, R249, R257, 10 R287, R296, 12 R353, R358, R361, R362, 13 R393, 14 R409, R420). -/

namespace Sys2Proof.Machine

/-- Has context `ctx` a task that is accepted and unretired, on any die or on die `d`? -/
def State.busyCtx (s : State) (ctx : Nat) : Bool := s.tasks.any (·.ctx == ctx)
def State.busyOn (s : State) (d : DieId) (ctx : Nat) : Bool := s.tasks.any fun t => t.ctx == ctx && homeOf t.id == d

/-! ## CTXCFG (04 R89, R90) -/

def Rhoath.put (r : Rhoath) (off v : Nat) : Rhoath :=
  { r with regs := (off, .ofNat 64 v) :: r.regs.filter (·.1 != off) }
def State.setMb (s : State) (off v : Nat) : State := { s with rhoath := s.rhoath.put off v }

/-- Dirty lines of a die written back. -/
def State.writeBack (s : State) (d : DieId) (lines : List Nat) : State :=
  lines.foldl (fun s l => match execDramWriteback d (64 * l) s with | .next t => t | _ => s) s
/-- The dirty lines that context `ctx` owns written back (R90). -/
def State.flushContext (s : State) (ctx : Nat) : State :=
  s.dies.foldl (fun s d => s.writeBack d.id ((d.dirty.filter (·.2 == ctx)).map (·.1))) s

/-- CTXCFG_WRITE. -/
def execCtxcfgWrite (ctx : BitVec 4) (qw : Bool) (v : Word) (app : AppCore) (s : State) : Out := s.byApp app <|
  let o := 0x2000 + ctx.toNat * 16
  let bad := s.busyCtx ctx.toNat || (!qw && (List.range 4).any fun n => bitAt v.toNat (8 * n + 7) && bitAt v.toNat (8 * n + 2))
  if s.rhoath.faultN then .next s
  else if bad then
    let x := cfgReg s (o + 8)
    .next (s.setMb (o + 8) (satTo 0xFFFF (bitsAt x 48 16 + 1) * 2 ^ 48 + x % 2 ^ 32))
  else if qw then .next ((s.flushContext ctx.toNat).setMb (o + 8) (bitsAt (cfgReg s (o + 8)) 48 16 * 2 ^ 48 + v.toNat % 2 ^ 32))
  else .next (s.setMb o (v.toNat &&& 0x87878787))

/-! ## CTXMMU and revocation (09 R245, R249) -/

/-- A register of the window on every non-trust die. -/
def State.setAll (s : State) (off v : Nat) : State := { s with dies := s.dies.map fun d => d.setReg off (.ofNat 64 v) }

/-- CTXMMU_WRITE: ROOT and EN, on every die. -/
def execCtxmmuWrite (d : DieId) (ctx : BitVec 4) (v : Word) (s : State) : Out :=
  let o := 0xA000 + ctx.toNat * 0x10
  if s.down d then .next s
  else if s.busyCtx ctx.toNat then
    .next (s.setAll (o + 8) (satTo 0xFFFF (s.reg d (o + 8) + 1)))
  else .next (s.setAll o (v.toNat &&& 0xFFFFFFFFF8001))

/-- A pending handle write that a revocation covers. -/
def revokedPend (p : Pend) : Pend := { p with wr := match p.wr with | .h r x => .h r (hInvalid x) | w => w }
/-- The core of a strand of the revoked context. -/
def Core.revoked (c : Core) : Core :=
  { c.hinvAll with
    pend := c.pend.map revokedPend
    snap := c.snap.map fun n => { n with pend := n.pend.map revokedPend }, tlb := [] }

/-- REVOKE: the handles, translations and cached images of a context are invalid; BUSY reads 1 until REVOKE_COMPLETE. -/
def execRevoke (ctx : BitVec 4) (s : State) : Out :=
  let n := ctx.toNat
  let f (c : Core) : Core := match c.strand with | some st => if st.ctx = n then c.revoked else c | none => c
  .next { s with
    core := f s.core, parked := s.parked.map f
    walks := s.walks.map fun w => if w.ctx = n then { w with stale := true } else w
    dies := s.dies.map fun d => { d with imageCache := d.imageCache.filter (·.ctx != n) }
    revokes := s.revokes ++ [(n, s.nextId)], nextId := s.nextId + 1 }

/-- Has everything that carries a translation read before the write with number `m` performed, and has every open region
of the context committed or been discarded? -/
def State.revokeOver (s : State) (ctx m : Nat) : Bool :=
  s.flight.all (fun a => a.app.isSome || a.ctx != ctx || m ≤ a.xl || a.stage == .walk || a.stage == .absent || a.stage == .reply) &&
    s.effects.all (fun e => e.ctx != ctx || m ≤ e.id || match e.kind with | .signal .. => false | _ => true) &&
    s.cores.all fun c => match c.strand with
      | some st => st.ctx != ctx || c.ended || c.stopping.isSome || m ≤ c.inst.id
      | none => true

/-- REVOKE_COMPLETE: the revocations of the context end. -/
def execRevokeComplete (ctx : BitVec 4) (s : State) : Out :=
  let n := ctx.toNat
  match s.revokes.find? fun x => x.1 == n && s.revokeOver n x.2 with
  | some x => .next { s with revokes := s.revokes.erase x }
  | none => .fault (.notEnabled "REVOKE_COMPLETE")

/-! ## PFDONE (09 R253, R254, R257, 05 R105, 10 R280, 11 R336) -/

/-- Does the write `v` name the fault at `va`: in the named page, or in a page, as found now, that contains it? -/
def State.names (s : State) (v va : Nat) : Bool :=
  bitAt v 63 || bitsAt va 15 41 == bitsAt v 15 41 ||
    match (s.walkVa (v % 16) va).leaf with
    | some l => va % 2 ^ 56 / pageBytes l.size == bitsAt v 15 41 * 2 ^ 15 / pageBytes l.size
    | none => false

/-- The held accesses that the write names are walked again. -/
def State.pfLoads (s : State) (v : Nat) : State :=
  (s.flight.filter fun a => a.stage == .absent && a.ctx == v % 16).foldl (fun s a =>
    if a.parts.any fun p => s.names v p.va then s.retryLanding a else s) s

/-- A held copy command or PGLOAD tries again: it reads its source anew, as its packet is sent or by `pgloadRun`. -/
def State.pfRun (s : State) (c : Core) (st : Strand) (v : Nat) (r : CeRun) : State :=
  match r.hold with
  | none => s
  | some va =>
    if !s.names v va then s
    else match s.reachVa c.id st.ctx va (·.r) with
      | .absent _ => s.absentRec c.id st.ctx va 0x01 st.lcore
      | _ => s.updCore c.id fun k => setRun k { r with hold := none }

/-- An MLDSTORE on hold tries again. -/
def State.pfXm (s : State) (c : Core) (st : Strand) (v : Nat) : State :=
  match c.xmRun with
  | some r =>
    (match r.hold with
    | none => s
    | some va =>
      if !s.names v va then s
      else match s.mldCheck c.id st.ctx r.ent with
        | .absent w => (s.mldAbsent c.id st w).updCore c.id fun k => { k with xmRun := some { r with hold := some w } }
        | _ => s.updCore c.id fun k => { k with xmRun := some { r with hold := none } })
  | none => s

/-- A held fetch: a write that names a page of the bundle releases it where it finds the bundle's pages present. -/
def State.pfFetch (s : State) (c : Core) (st : Strand) (v : Nat) : State :=
  match c.wait with
  | some (.fetch pc) =>
    let s := s.focus c.id
    if !(s.names v pc || s.names v (s.bundleEnd st)) then s
    else
      (match s.find st with
      | .absent w => s.fetchHold st w
      | _ => s.unwait)
  | _ => s

/-- The entries of the log whose page the write names and the walk finds may replay. -/
def State.pfTrel (s : State) (ctx v : Nat) (t : Trel) : Trel :=
  if (t.parts.any fun p => s.names v p.va) && (s.walkVa ctx t.va).leaf.isSome then { t with ready := true } else t
/-- The record of an entry that the walk of a page of the log rejects (09 R243). -/
def State.pfBad (s : State) (d : DieId) (ctx v : Nat) (t : Trel) (master : Nat) : State :=
  if t.parts.any fun p => s.names v p.va then s.badPteRec d ctx t.va (s.walkVa ctx t.va) master else s
/-- The entries of strands that had stopped when their task ended (03 R75). -/
def State.pfLogged (s : State) (v : Nat) : State :=
  let s := s.effects.foldl (fun s e => match e.kind with
    | .logged t => if e.ctx = v % 16 then s.pfBad e.core.die e.ctx v t (s.coreMaster e.core 0) else s
    | _ => s) s
  { s with effects := s.effects.map fun e => match e.kind with
    | .logged t => if e.ctx = v % 16 then { e with kind := .logged (s.pfTrel e.ctx v t) } else e
    | _ => e }

/-- What the write does at core `id`. -/
def State.pfCore (s : State) (v : Nat) (id : CoreId) : State :=
  let c := s.getCore id
  match c.strand with
  | some st =>
    if st.ctx ≠ v % 16 then s
    else
      let s := c.trellis.foldl (fun s t => s.pfBad c.id.die st.ctx v t (s.coreMaster id 0)) s
      let s := s.updCore id fun c => { c with trellis := c.trellis.map (s.pfTrel st.ctx v) }
      let s := c.ceRun.foldl (fun s r => s.pfRun (s.getCore id) st v r) s
      let s := s.pfXm (s.getCore id) st v
      s.pfFetch (s.getCore id) st v
  | none => s

/-- PFDONE: the faults that the write names are retried. -/
def execPfdone (v : Word) (s : State) : Out :=
  .next ((s.cores.map (·.id)).foldl (fun s id => s.pfCore v.toNat id) ((s.pfLoads v.toNat).pfLogged v.toNat))

/-! ## Access tables and keys (04 R99, 14 R420) -/

/-- The valid entries of the DRAM table, as their words. -/
def Die.dramEntries (d : Die) : List (Nat × Nat × Nat) :=
  ((d.entries 1).map fun o => (d.nat o, d.nat (o + 8), d.nat (o + 16))).filter fun e => bitAt e.1 63
/-- The contexts whose entries cover a page, each once; 16 stands for the masters without one. -/
def pageKeys (l : List (Nat × Nat × Nat)) (page : Nat) : List Nat :=
  let m := l.filter fun e => bitsAt e.2.1 15 37 ≤ page && page ≤ bitsAt e.2.2 15 37
  (m.map fun e => if 2 ≤ bitsAt e.1 12 2 then 16 else bitsAt e.1 52 4).eraseDups
/-- The key of a page: that of the one context whose entries cover it, or the package key, 16. -/
def pageKey (l : List (Nat × Nat × Nat)) (page : Nat) : Nat :=
  match pageKeys l page with
  | [k] => k
  | _ => 16
/-- Are the lines of a page shared (04 R98)? -/
def pageShared (l : List (Nat × Nat × Nat)) (page : Nat) : Bool :=
  (pageKeys l page).contains 16 || 2 ≤ (pageKeys l page).length
/-- The pages at which the cover by entries changes. -/
def bounds (l : List (Nat × Nat × Nat)) : List Nat := l.flatMap fun e => [bitsAt e.2.1 15 37, bitsAt e.2.2 15 37 + 1]
def insNat (x : Nat) : List Nat → List Nat
  | [] => [x]
  | y :: r => if x < y then x :: y :: r else if x = y then y :: r else y :: insNat x r
/-- The runs of pages whose key differs between two tables, as ranges of sectors. -/
def keyChanges (a b : List (Nat × Nat × Nat)) : List (Nat × Nat) :=
  let l := (bounds (a ++ b)).foldl (fun acc x => insNat x acc) []
  (l.zip l.tail).filterMap fun x => if pageKey a x.1 = pageKey b x.1 then none else some (1024 * x.1, 1024 * x.2)

/-- The dirty lines that become shared, or cease to be, written back (04 R98; log 25). -/
def State.flushShared (s : State) (d : DieId) (a b : List (Nat × Nat × Nat)) : State :=
  s.writeBack d (((s.die d).dirty.filter fun x => pageShared a (x.1 / 512) != pageShared b (x.1 / 512)).map (·.1))

/-- The parts of ranges of sectors that lie in the DRAM of a die. -/
def dramSectors (l : List (Nat × Nat)) : List (Nat × Nat) :=
  l.flatMap fun r => (DieId.all.map fun d => (max r.1 (dieBase d / 32), min r.2 ((dieBase d + dramSize d) / 32))).filter fun x => x.1 < x.2
/-- Sectors of the DRAM whose ciphertext stays under an old key: their seals fail, but for lines that the shared cache holds. -/
def State.rekey (s : State) (l : List (Nat × Nat)) : State :=
  let bad := s.dies.foldl (fun bad d => d.dirty.foldl (fun bad x => cutSectors (2 * x.1) (2 * x.1 + 2) bad) bad) (dramSectors l)
  { s with badSeal := s.badSeal ++ bad.filter fun r => r.1 < r.2 }

/-- The writable bits of an entry's words (Table 04-8). -/
def entryMask (qw : Nat) : Nat :=
  if qw = 0 then 0x87F0000000FFFFE0 else if qw = 3 then 0 else 0xFFFFFFFFF8000

/-- ACCESS_TABLE_WRITE. -/
def execAccessTableWrite (d : DieId) (table entry qw : Nat) (v : Word) (app : AppCore) (s : State) : Out := s.byApp app <|
  if s.down d || 3 ≤ table || 256 ≤ entry || 4 ≤ qw then .next s
  else
    let o := 0x4000 + table * 0x2000 + entry * 0x20
    let new (i : Nat) : Nat := if i = qw then v.toNat &&& entryMask qw else s.reg d (o + 8 * i)
    let bad := bitAt (new 0) 63 && (bitsAt (new 2) 15 37 < bitsAt (new 1) 15 37 || bitsAt (new 1) 49 3 != d.code ||
      (bitsAt (new 0) 12 2 == 2 && bitsAt (new 0) 52 4 != 0))
    if bad then .next (s.accViol d (o + 8 * qw) app)
    else
      let old := (s.die d).dramEntries
      let s := (s.setReg d (o + 8 * qw) (new qw)).updDie d fun x => if (x.regs.any (·.1 == o)) then x else x.setReg o (x.reg o)
      let now := (s.die d).dramEntries
      .next (if table = 1 then (s.flushShared d old now).rekey (keyChanges old now) else s)

/-! ## Channels and ports (10 R287, R296) -/

/-- Are the two banks that a port or channel would take in FIFO mode and free? -/
def Die.banksFree (d : Die) (cl b : Nat) : Bool :=
  b % 2 == 0 && cl < clusterCount d.id && b + 1 < bankCount d.id && [b, b + 1].all fun x => d.bankMode cl x == 2 && !d.bankBound cl x

/-- PPCFG_WRITE: while the channel is enabled only EN takes the written value (log 46). -/
def execPpcfgWrite (d : DieId) (n : Nat) (v : Word) (app : AppCore) (s : State) : Out := s.byApp app <|
  let o := 0xB000 + n * 0x20
  let old := s.reg d o
  let v := v.toNat &&& 0x73F07F1
  if s.down d || 16 ≤ n then .next s
  else if bitAt old 0 then .next (s.setReg d o (old - 1 + v % 2))
  else if !bitAt v 0 then .next (s.setReg d o v)
  else if !(s.die d).banksFree (bitsAt v 8 3) (bitsAt v 16 6) then .next (s.accViol d o app)
  else
    let s := (s.setReg d o v).setReg d (o + 8) (bitsAt (s.reg d (o + 8)) 32 32 * 2 ^ 32 + 2)
    .next { s with permits := s.permits.filter (· != (d, n)) }

/-- PORTCFG_WRITE: an enabled port finds its ring empty and the pointers of its banks zero (10 R285, R296). -/
def execPortcfgWrite (d : DieId) (n : Nat) (v : Word) (app : AppCore) (s : State) : Out := s.byApp app <|
  let o := portOff n
  let old := s.reg d o
  let v := v.toNat &&& 0x3F07F3
  if s.down d || d.isMem || 2 ≤ n then .next s
  else if bitAt old 0 then .next (s.setReg d o (old - 1 + v % 2))
  else if !bitAt v 0 then .next (s.setReg d o v)
  else if !(s.die d).banksFree (bitsAt v 8 3) (bitsAt v 16 6) then .next (s.accViol d o app)
  else
    let b := bitsAt v 16 6
    let s := ((s.setReg d o v).setReg d (o + 8) 0).setReg d (fifoOff (bitsAt v 8 3) b) 0
    .next ((s.setReg d (fifoOff (bitsAt v 8 3) (b + 1)) 0).updDie d (·.modPort n fun p => { p with expect := [], frames := [] }))

/-! ## Order logs, quotas, mirrors, the save pool (12 R358, R361, 14 R409, 13 R393) -/

/-- CTXORD_WRITE: register 0 LOG, 1 LOGCNT, 2 RPBASE, 3 RPCNT. -/
def execCtxordWrite (d : DieId) (ctx : BitVec 4) (reg : Nat) (v : Word) (app : AppCore) (s : State) : Out := s.byApp app <|
  let o := 0xA200 + ctx.toNat * 0x20 + reg * 8
  let lg := v.toNat % 32
  if s.down d || 4 ≤ reg || reg = 1 then .next s
  else if s.busyOn d ctx.toNat || (reg = 0 && lg ≠ 0 && (lg < 5 || 20 < lg)) then .next (s.accViol d o app)
  else
    let m := if reg = 0 then 0xFFFFFFFFFF01F else if reg = 2 then 0xFFFFFFFFFFFC0 else 0xFFFFFFFF
    .next (s.setReg d o (v.toNat &&& m))

/-- DETQUOTA_WRITE. -/
def execDetquotaWrite (d : DieId) (ctx : BitVec 4) (v : Word) (app : AppCore) (s : State) : Out := s.byApp app <|
  let o := 0xA408 + ctx.toNat * 8
  let n := v.toNat % 2 ^ 17
  let others := (((List.range 16).filter (· != ctx.toNat)).map fun c => s.reg d (0xA408 + c * 8)).sum
  if s.down d then .next s
  else if s.busyOn d ctx.toNat || 65536 < n + others then .next (s.accViol d o app)
  else .next (s.setReg d o n)

/-- The valid mirror entries of a die, in GiB: first, last, mirror; one with BASE above LAST protects nothing. -/
def Die.mirrors (d : Die) : List (Nat × Nat × Nat) :=
  (List.range 8).filterMap fun n =>
    let q (i : Nat) : Nat := d.nat (0xA600 + n * 0x20 + i * 8)
    if bitAt (q 0) 63 && bitsAt (q 0) 30 19 ≤ bitsAt (q 1) 30 19 then
      some (bitsAt (q 0) 30 19, bitsAt (q 1) 30 19, bitsAt (q 2) 30 19) else none
/-- The mirror of an entry, as first and last GiB. -/
def mirrorRange (e : Nat × Nat × Nat) : Nat × Nat := (e.2.2, e.2.2 + (e.2.1 - e.1))
def rangesMeet (a b : Nat × Nat) : Bool := a.1 ≤ b.2 && b.1 ≤ a.2
/-- Do two of the ranges meet? -/
def anyMeet : List (Nat × Nat) → Bool
  | [] => false
  | x :: r => r.any (rangesMeet x) || anyMeet r
/-- May a die with entries `l`, whose twin has entries `t`, keep them (R409)? -/
def mirrorsOk (d : DieId) (l t : List (Nat × Nat × Nat)) : Bool :=
  let top (x : DieId) : Nat := dramSize x / 2 ^ 30
  l.all (fun e => e.2.1 < top d && (mirrorRange e).2 < top d.twin) && !anyMeet (l.map mirrorRange) &&
    !l.any (fun e => t.any fun x => rangesMeet (mirrorRange e) (x.1, x.2.1)) &&
    !t.any fun e => l.any fun x => rangesMeet (mirrorRange e) (x.1, x.2.1)

/-- MIRRORCFG_WRITE. -/
def execMirrorcfgWrite (d : DieId) (n qw : Nat) (v : Word) (app : AppCore) (s : State) : Out := s.byApp app <|
  let o := 0xA600 + n * 0x20 + qw * 8
  let m := if qw = 0 then 0x8001FFFFC0000000 else if qw = 3 then 0 else 0x1FFFFC0000000
  if s.down d || 8 ≤ n || 4 ≤ qw then .next s
  else
    let t := s.setReg d o (v.toNat &&& m)
    if (s.tasks.any fun x => homeOf x.id == d || homeOf x.id == d.twin) ||
        !mirrorsOk d (t.die d).mirrors (s.die d.twin).mirrors then .next (s.accViol d o app)
    else .next t

/-- SAVEPOOL_WRITE. -/
def execSavepoolWrite (d : DieId) (v : Word) (app : AppCore) (s : State) : Out := s.byApp app <|
  if s.down d then .next s
  else if !(s.die d).slots.isEmpty then .next (s.accViol d 0xA500 app)
  else .next (s.setReg d 0xA500 (v.toNat &&& 0xFFFFFFF8000FF))

/-! ## REGISTER_WRITE -/

/-- A ring register, SLIPRING or FLTRING (03 R64). -/
def State.writeRing (s : State) (d : DieId) (off v : Nat) (app : AppCore) : State :=
  let lg := v % 32
  if lg ≠ 0 && (lg < 5 || 16 < lg) then s.accViol d off app else s.setReg d off (v &&& 0xFFFFFFFFFF01F)
/-- QRING or QDONE. -/
def State.writeBase (s : State) (d : DieId) (q off v : Nat) (app : AppCore) : State :=
  if cfgEn (s.qreg d q 0) then s.accViol d off app else s.setReg d off (v &&& 0xFFFFFFFFFFFC0)

/-- A write in the blocks of the launch queues. -/
def State.writeQueue (s : State) (d : DieId) (off : Nat) (v : Word) (app : AppCore) : Out :=
  let q := (off - 0x1000) / 0x40
  if !s.queueThere d q then .next s
  else match off % 0x40 with
    | 0x00 => execQcfgWrite d q v app s
    | 0x08 => .next (s.writeBase d q off v.toNat app)
    | 0x10 => execQtailWrite d q v s
    | 0x20 => execQttWrite d q v app s
    | 0x28 => .next (s.writeBase d q off v.toNat app)
    | 0x30 => execQtraceWrite d q v app s
    | _ => .next s

/-- Eight bytes written at an offset of the window of die `d` (00 R9); a write to a field that is read only or reserved
does nothing. -/
def State.writeWindow (s : State) (d : DieId) (off : Nat) (v : Word) (app : AppCore) : Out :=
  let n := v.toNat
  if s.down d || off % 8 ≠ 0 then .next s
  else if off = 0x100 || off = 0xA110 then .next (s.writeRing d off n app)
  else if 0x1000 ≤ off && off < 0x3000 then s.writeQueue d off v app
  else if 0x4000 ≤ off && off < 0xA000 then
    execAccessTableWrite d ((off - 0x4000) / 0x2000) (off % 0x2000 / 0x20) (off % 0x20 / 8) v app s
  else if 0xA000 ≤ off && off < 0xA100 then
    (if off % 16 = 0 then execCtxmmuWrite d (.ofNat 4 ((off - 0xA000) / 16)) v s
    else if bitAt n 63 then execRevoke (.ofNat 4 ((off - 0xA000) / 16)) s else .next s)
  else if off = 0xA100 then execPfdone v s
  else if 0xA200 ≤ off && off < 0xA400 then
    execCtxordWrite d (.ofNat 4 ((off - 0xA200) / 0x20)) (off % 0x20 / 8) v app s
  else if 0xA408 ≤ off && off < 0xA488 then execDetquotaWrite d (.ofNat 4 ((off - 0xA408) / 8)) v app s
  else if off = 0xA500 then execSavepoolWrite d v app s
  else if off = 0xA508 then .next (if n % 32 < 12 || 30 < n % 32 then s else s.setReg d off (n % 32))
  else if 0xA600 ≤ off && off < 0xA700 then execMirrorcfgWrite d ((off - 0xA600) / 0x20) (off % 0x20 / 8) v app s
  else if 0xB000 ≤ off && off < 0xB200 && off % 0x20 = 0 then execPpcfgWrite d ((off - 0xB000) / 0x20) v app s
  else if (off = 0xC000 || off = 0xC080) then execPortcfgWrite d ((off - 0xC000) / 0x80) v app s
  else .next s

/-! ## Reads that clear (00 R9) -/

/-- The read of a register whose bits from `lo` up clear. -/
def State.readClear (s : State) (d : DieId) (off : Nat) (keep : Nat) : State :=
  if s.down d then s
  else { s.setReg d off (s.reg d off &&& keep) with reply := some (.ofNat 64 (s.reg d off)) }

/-- ACCVIOL_READ, VIOLOG1_READ: COUNT clears (01 R44, 04 R100). -/
def execAccviolRead (d : DieId) (s : State) : Out := .next (s.readClear d 0x3F10 0xFFFFFFFFFFFF)
def execViolog1Read (d : DieId) (s : State) : Out := .next (s.readClear d 0x3F08 0xFFFFFFFFFFFF)
/-- DETCNT_READ (12 R362). -/
def execDetcntRead (d : DieId) (s : State) : Out := .next (s.readClear d 0xA400 0)
/-- PORTCNT_READ: PORTCNT0 or PORTCNT1 (10 R296). -/
def execPortcntRead (d : DieId) (port : Nat) (reg1 : Bool) (s : State) : Out :=
  if d.isMem || 2 ≤ port then .next s else .next (s.readClear d (portOff port + 0x10 + 8 * b2n reg1) 0)
/-- FABCNT_READ: DISCARDED clears; ROB_USED is the number of entries in use (12 R353). -/
def execFabcntRead (d : DieId) (s : State) : Out :=
  let x := s.readClear d 0xD008 0
  .next (if s.down d then s else { x with reply := some (.ofNat 64 (bitsAt (s.reg d 0xD008) 32 32 * 2 ^ 32 + s.robUsed d)) })

end Sys2Proof.Machine
end

