-- ==== Sys2Proof/Machine/Trust.lean ====
section
/-! DEFINITION. Rhoath: its mailbox, SPDM, boot and resets, failover, links and heat (01 R34, R39 to R41, 04 R92, 12 R352,
14 R400 to R408, R417 to R422). -/

namespace Sys2Proof.Machine

/-! ## Reset domains (01 R39 to R41) -/

/-- The state without anything that the cores of die `d` hold: its core domain is in reset. Accesses that have been delivered
elsewhere stay (12 R352). -/
def State.coresDown (s : State) (d : DieId) : State :=
  let gone (a : Access) : Bool := a.app.isNone && a.core.die == d && (a.held || !(a.home != d && (a.stage == .rob || a.stage == .home || a.stage == .turn)))
  let s : State := { s with
    core := if s.core.id.die = d then Core.reset s.core.id else s.core
    parked := s.parked.filter (·.id.die != d)
    flight := s.flight.filter fun a => !gone a
    walks := s.walks.filter (·.core.die != d)
    effects := s.effects.filter fun e => e.core.die != d || (match e.kind with | .install .. => e.committed | _ => false) }
  s.updDie d fun x => { x with coresUp := false }

/-- An access of another die whose home, die `d`, goes: a request on its way there, or held there, is held at its sender, and an effect
that is held until COMMIT is no longer pinned; one that has not been sent, or that has been answered, stays (14 R404). -/
def Access.homeless (a : Access) : Access :=
  match a.act, a.stage with
  | .launch .., _ | _, .walk | _, .absent | _, .away | _, .reply => a
  | _, _ => { a with stage := if a.held then .home else .away, checked := false }
/-- Both domains of die `d` in reset: what its fabric endpoint and its units hold is gone. -/
def State.darken (s : State) (d : DieId) : State :=
  let s := s.coresDown d
  let gone (a : Access) : Bool := a.app.isSome && a.core.die == d && (a.home == d || !(a.stage == .rob || a.stage == .home || a.stage == .turn))
  let s : State := { s with
    credits := s.credits.filter fun x => x.1 != d && x.2.1 != d, permits := s.permits.filter (·.1 != d)
    appReqs := s.appReqs.filter (·.app.die != d), appDone := s.appDone.filter (·.app.die != d)
    flight := (s.flight.filter fun a => !gone a).map fun a => if a.home = d && a.core.die ≠ d then a.homeless else a }
  s.updDie d fun x => { x with uncoreUp := false, holds := [], dirty := [], lines := [], switches := [], launchWait := [], reserve := [], held := [] }

/-- DIECFG.RETIRED as Rhoath's key store holds it (14 R400). -/
def Rhoath.retiredMask (r : Rhoath) (d : DieId) : Nat :=
  ((r.retired.filter (·.1 == d)).map fun x => 2 ^ x.2).eraseDups.sum
/-- A die as its domains leave reset: every register at its reset value, its retired set reapplied, the matrix and counts of
the fabric zero, the shipped routines installed (10 R10, 01 R41, 11 R315). -/
def State.bornDie (s : State) (d : DieId) (cores : Bool) : Die :=
  let x := Die.reset d
  let e := match s.dies.find? fun y => y.uncoreUp && !y.removed && y.id != d with | some y => y.epoch | none => 0
  let x := x.setReg 0 (.ofNat 64 ((x.reg 0).toNat + s.rhoath.retiredMask d * 2 ^ 32))
  let x := ((s.rhoath.retPages.filter (·.1 == d)).zipIdx).foldl (fun (x : Die) p => x.setRetPage p.2 p.1.2) x
  let mmu := (List.range 32).map fun i => 0xA000 + 8 * i
  let m := s.mmuDie
  let x := if s.down m then x else mmu.foldl (fun x o => if (s.die m).nat o = 0 then x else x.setReg o ((s.die m).reg o)) x
  { x with coresUp := cores, epoch := e }

/-- The matrix of a die without what it says of die `d`. -/
def Die.forgetDie (x : Die) (d : DieId) : Die :=
  { x with
    know := (List.range 16).map fun i => if i / 4 = d.code || i % 4 = d.code then 0 else x.know.getD i 0
    dlv := x.dlv.set d.code 0, seen := x.seen.set d.code 0 }

/-- The memories of the uncore and of the core domain of die `d` written to zero, with valid seals (R41). -/
def State.zeroUncore (s : State) (d : DieId) : State :=
  let b := dieBase d
  let z (m : List Host.Cell) (a n : Nat) : List Host.Cell := memZero m a n
  { s with
    mem := z (z (z s.mem b (dramSize d)) (b + 0x100000000000) 0x10000000000) (b + 0x140000000000) 0x20000000
    badSeal := cutSectors (b / 32) ((b + 2 ^ 49) / 32) s.badSeal }
def State.zeroCores (s : State) (d : DieId) : State :=
  { s with
    mem := memZero (memZero s.mem (dieBase d + 0x110000000000) 0x10000000000) (dieBase d + 0x120000000000) 0x20000000000
    badSeal := cutSectors ((dieBase d + 0x110000000000) / 32) ((dieBase d + 0x140000000000) / 32) s.badSeal }

/-- UNCORE_LEAVE_RESET: the uncore of a die that Rhoath has verified leaves reset. -/
def execUncoreLeaveReset (d : DieId) (s : State) : Out :=
  if !s.down d || s.rhoath.faultN || s.rhoath.recovering.contains d then .fault (.notEnabled "UNCORE_LEAVE_RESET")
  else
    let s : State := { s with dies := s.dies.map fun x : Die => x.forgetDie d }
    let s := s.zeroUncore d
    .next (s.setDie (s.bornDie d false))

/-- CORE_DOMAIN_LEAVE_RESET: the cores of a die whose uncore is up leave reset, with every memory of theirs zero. -/
def execCoreDomainLeaveReset (d : DieId) (s : State) : Out :=
  if s.down d || (s.die d).coresUp then .fault (.notEnabled "CORE_DOMAIN_LEAVE_RESET")
  else .next ((s.zeroCores d).updDie d fun x => { x with coresUp := true })

/-- Has the uncore of die `d` answered every request that it accepted (09 R268)? -/
def State.drained (s : State) (d : DieId) : Bool :=
  !s.flight.any fun a => a.home == d && a.core.die != d &&
    (match a.stage with | .rob | .home | .turn | .pinned => true | _ => false)

/-- UNCORE_RESET_REQUEST: the core domain goes into reset first; the uncore follows once it has answered what it accepted,
and until then the request stands. The die's queues lose their tasks. -/
def execUncoreResetRequest (d : DieId) (s : State) : Out :=
  if s.down d then .fault (.notEnabled "UNCORE_RESET_REQUEST")
  else
    let s := s.coresDown d
    if !s.drained d then .next { s with inputs := s.inputs ++ [.uncoreResetRequest d] }
    else
      let lost := (s.tasks.filter fun t => homeOf t.id == d).map (·.id)
      let s := lost.foldl (fun s t => (s.endTask t 0 0 0).forget t) (s.darken d)
      .next (s.updDie d fun x => { x with regs := [], tts := [], qseq := [], imageCache := [] })

/-! ## Boot (14 R417, R418) -/

/-- The image of a die, or of Rhoath's own firmware, in the board flash. -/
def Rhoath.bootImage (r : Rhoath) (d : Option DieId) : List Byte :=
  match r.flash.find? fun x => some x.1 == d with
  | some x => x.2
  | none => Config.flashImage d
/-- The dies whose images fail a check at boot: the signature, or the security version. -/
def Rhoath.failing (r : Rhoath) : List DieId :=
  DieId.all.filter fun d => !(Config.signatureHolds (r.bootImage (some d)) && Config.versionOk (r.bootImage (some d)))
/-- POWER_GOOD_BOOT: Rhoath boots the dies but for those whose images fail; its key store stays. `flash` holds the images that the
board has put into its flash. With a firmware of its own that fails Rhoath boots none (log 102). -/
def execPowerGoodBoot (flash : List (DieId × List Byte)) (s : State) : Out :=
  let s : State := { s with rhoath := { s.rhoath with flash := flash ++ s.rhoath.flash } }
  let bad := s.rhoath.failing
  let dead := (bad.contains .md0 && bad.contains .md1) || !Config.signatureHolds (s.rhoath.bootImage none)
  let off (d : DieId) : Bool := dead || bad.contains d
  let r : Rhoath := { Rhoath.reset with
    retired := s.rhoath.retired, retPages := s.rhoath.retPages, ue := s.rhoath.ue, chip := s.rhoath.chip, faultN := dead
    keyGen := s.rhoath.keyGen.map (· + 1), recovering := if dead then DieId.all else bad
    power := s.rhoath.power, endpoints := s.rhoath.endpoints, flash := s.rhoath.flash
    measures := (none :: DieId.all.map some).map fun d => Config.sm3 (s.rhoath.bootImage d) }
  let t : State := { State.reset with
    rhoath := r, nextId := s.nextId, free := s.free, inputs := s.inputs, dramUes := s.dramUes }
  let t0 : State := { t with dies := [] }
  let die (d : DieId) : Die :=
    if off d then { Die.reset d with uncoreUp := false, coresUp := false } else { t0.bornDie d true with epoch := 0 }
  .next { t with dies := DieId.all.map die }

/-! ## SPDM requests (14 R419) -/

/-- A memory die's management channel, which the mailbox needs. -/
def State.channel (s : State) : Bool := !s.rhoath.faultN && (!s.down .md0 || !s.down .md1)
/-- Is the channel there: the mailbox, or the PCIe port of a memory die that Rhoath has made an endpoint? -/
def State.spdmUp (s : State) : SpdmPort → Bool
  | .mailbox => s.channel
  | .doe d => !s.rhoath.faultN && d.isMem && !s.down d && s.rhoath.endpoints.contains d
/-- The phase of a session on a channel: 0 none, 1 keys exchanged, 2 established (log 47). -/
def Rhoath.phase (r : Rhoath) (ch : SpdmPort) (n : Nat) : Rhoath :=
  { r with spdm := (ch, n) :: r.spdm.filter (·.1 != ch) }
/-- A response, whose bytes are free but for `head`. -/
def State.answer (s : State) (row : String) (ch : SpdmPort) (head : List Byte) (phase : Option Nat) : Out :=
  if !s.spdmUp ch then .fault (.notEnabled row)
  else .next { s with
    replyData := head ++ Config.spdmBytes s.free, free := s.free + 1
    rhoath := match phase with | some n => s.rhoath.phase ch n | none => s.rhoath }
/-- The answer ERROR, whose code 0x07 is UnsupportedRequest and 0x01 InvalidRequest (log 47). -/
def State.spdmError (s : State) (row : String) (ch : SpdmPort) (code req : Nat) : Out :=
  if !s.spdmUp ch then .fault (.notEnabled row)
  else .next { s with replyData := [0x13, 0x7F, .ofNat 8 code, .ofNat 8 req] }

/-- VERSION: the one version 1.3. -/
def spdmVersion : List Byte := [0x10, 0x04, 0, 0, 0, 1, 0, 0x13]
/-- CAPABILITIES up to its flags: CERT, CHAL, MEAS with signature, ENCRYPT, MAC, KEY_EX; `k` numbers the free CTExponent. -/
def spdmCapabilities (k : Nat) : List Byte :=
  [0x13, 0x61, 0, 0, 0, (Config.spdmBytes k).headD 0, 0, 0] ++ natBytes 0x2D6 4
/-- ALGORITHMS: SM2 over its 256-bit curve, SM3-256, SM4-GCM, SM2 key exchange. -/
def spdmAlgorithms : List Byte :=
  [0x13, 0x63, 2, 0, 44, 0, 1, 0] ++ natBytes 0x80 4 ++ natBytes 0x200 4 ++ natBytes 0x40 4 ++ List.replicate 16 0 ++
    [2, 0x20, 0x40, 0, 3, 0x20, 8, 0]
/-- GET_VERSION, GET_CAPABILITIES and NEGOTIATE_ALGORITHMS, in the form of the SPDM specification (log 47). -/
def execGetVersion (ch : SpdmPort) (s : State) : Out := s.answer "GET_VERSION" ch spdmVersion (some 0)
def execGetCapabilities (ch : SpdmPort) (s : State) : Out := s.answer "GET_CAPABILITIES" ch (spdmCapabilities s.free) none
def execNegotiateAlgorithms (ch : SpdmPort) (s : State) : Out := s.answer "NEGOTIATE_ALGORITHMS" ch spdmAlgorithms none
def execGetDigests (ch : SpdmPort) (s : State) : Out := s.answer "GET_DIGESTS" ch [] none
/-- GET_CERTIFICATE and CHALLENGE: slot 0 only. -/
def execGetCertificate (ch : SpdmPort) (slot : Nat) (s : State) : Out :=
  if slot = 0 then s.answer "GET_CERTIFICATE" ch [] none else s.spdmError "GET_CERTIFICATE" ch 1 0
def execChallenge (ch : SpdmPort) (slot : Nat) (s : State) : Out :=
  if slot = 0 then s.answer "CHALLENGE" ch [] none else s.spdmError "CHALLENGE" ch 1 0

/-- The recorded measurement of Rhoath's firmware or of a die's image (14 R417); before a record, that of the flash. -/
def Rhoath.measure (r : Rhoath) (d : Option DieId) : Nat :=
  r.measures.getD (match d with | some e => e.code + 1 | none => 0) (Config.sm3 (r.bootImage d))
/-- The routine directory of a die as bytes. -/
def Die.directoryBytes (d : Die) : List Byte :=
  d.directory.flatMap fun r => natBytes r.1 1 ++ natBytes r.2.1 2 ++ natBytes r.2.2 1 ++ natBytes (d.digest r.1) 32
/-- Measurement block `i`. -/
def State.measurement (s : State) (i : Nat) : Option Nat :=
  match i with
  | 6 => some (Config.sm3 (s.die .cd0).directoryBytes)
  | 7 => some (Config.sm3 (s.die .cd1).directoryBytes)
  | 8 => some (Config.sm3 (s.die .md0).directoryBytes)
  | 9 => some (Config.sm3 (s.die .md1).directoryBytes)
  | i => if 1 ≤ i && i ≤ 5 then some (s.rhoath.measure ((none :: DieId.all.map some).getD (i - 1) none)) else none
/-- GET_MEASUREMENTS: the 32 bytes of the block, then the rest of the response. Index 0 asks for the number of blocks and 0xFF for
all of them (log 47). -/
def execGetMeasurements (ch : SpdmPort) (index : Nat) (s : State) : Out :=
  if index = 0 then s.answer "GET_MEASUREMENTS" ch [9] none
  else if index = 0xFF then
    s.answer "GET_MEASUREMENTS" ch ((List.range 9).flatMap fun i => natBytes ((s.measurement (i + 1)).getD 0) 32) none
  else match s.measurement index with
    | some m => s.answer "GET_MEASUREMENTS" ch (natBytes m 32) none
    | none => s.spdmError "GET_MEASUREMENTS" ch 1 0
/-- The phase of the session on a channel. -/
def Rhoath.phaseOf (r : Rhoath) (ch : SpdmPort) : Nat := match r.spdm.find? (·.1 == ch) with | some x => x.2 | none => 0
/-- KEY_EXCHANGE: slot 0 only; FINISH after it; END_SESSION of an established session. Out of their phase the last two answer
ERROR UnexpectedRequest (log 47). -/
def execKeyExchange (req : SpdmPort × Nat) (s : State) : Out :=
  if req.2 = 0 then s.answer "KEY_EXCHANGE" req.1 [] (some 1) else s.spdmError "KEY_EXCHANGE" req.1 1 0
def execFinish (ch : SpdmPort) (s : State) : Out :=
  if s.rhoath.phaseOf ch = 1 then s.answer "FINISH" ch [] (some 2) else s.spdmError "FINISH" ch 4 0
def execEndSession (ch : SpdmPort) (s : State) : Out :=
  if s.rhoath.phaseOf ch = 2 then s.answer "END_SESSION" ch [] (some 0) else s.spdmError "END_SESSION" ch 4 0
/-- UNSUPPORTED_REQUEST: any other request. -/
def execUnsupportedRequest (ch : SpdmPort) (code : Byte) (s : State) : Out :=
  s.spdmError "UNSUPPORTED_REQUEST" ch 7 code.toNat
/-- A request as the responder takes it, by its code and parameters in the form of the SPDM specification (log 47). -/
def spdmServe (ch : SpdmPort) (l : List Byte) (s : State) : Out :=
  let b (i : Nat) : Nat := (l.getD i 0).toNat
  match b 1 with
  | 0x81 => execGetDigests ch s
  | 0x82 => execGetCertificate ch (b 2) s
  | 0x83 => execChallenge ch (b 2) s
  | 0x84 => execGetVersion ch s
  | 0xE0 => execGetMeasurements ch (b 3) s
  | 0xE1 => execGetCapabilities ch s
  | 0xE3 => execNegotiateAlgorithms ch s
  | 0xE4 => execKeyExchange (ch, b 3) s
  | 0xE5 => execFinish ch s
  | 0xEC => execEndSession ch s
  | n => execUnsupportedRequest ch (.ofNat 8 n) s

/-! ## Mailbox commands (14 R418, Table 14-7) -/

/-- MBSTAT: BUSY while a command has not completed. -/
def State.mbStatus (s : State) (status : Nat) : State :=
  s.setMb 0x20 ((if s.rhoath.mbq.isEmpty then 0 else 2 ^ 63) + status % 2 ^ 8)
/-- A command completes with a status; `args` are what MBARG0 to MBARG2 hold. -/
def State.mbDone (s : State) (args : List Nat) (status : Nat) : State :=
  (args.zipIdx.foldl (fun (s : State) x => s.setMb (8 + 8 * x.2) x.1) s).mbStatus status

/-- CTX_KEY: a fresh key for a context without work (R420). -/
def execCtxKey (arg : Word) (s : State) : Out :=
  let c := arg.toNat
  if !s.channel then .fault (.notEnabled "CTX_KEY")
  else if 16 ≤ c then .next (s.mbDone [c] 1)
  else if s.busyCtx c then .next (s.mbDone [c] 0xC)
  else
    let own (l : List (Nat × Nat × Nat)) : List (Nat × Nat) :=
      let b := (bounds l).foldl (fun acc x => insNat x acc) []
      (b.zip b.tail).filterMap fun x => if pageKey l x.1 = c then some (1024 * x.1, 1024 * x.2) else none
    let s := s.rekey (s.dies.flatMap fun d => own d.dramEntries)
    let s : State := { s with rhoath := { s.rhoath with keyGen := s.rhoath.keyGen.set c (s.rhoath.keyGen.getD c 0 + 1) } }
    .next (s.mbDone [c] 0)

/-- CLEAR_RETIRED: the retired set of a die whose core domain is in reset (R400). -/
def execClearRetired (arg : Word) (s : State) : Out :=
  if !s.channel then .fault (.notEnabled "CLEAR_RETIRED")
  else match if arg.toNat < 4 then DieId.ofCode arg.toNat else none with
    | none => .next (s.mbDone [arg.toNat] 1)
    | some d =>
      if (s.die d).coresUp then .next (s.mbDone [arg.toNat] 0xC)
      else
        let s : State := { s with rhoath := { s.rhoath with retired := s.rhoath.retired.filter (·.1 != d) } }
        .next ((s.updDie d fun x => x.setReg 0 (regReset d 0)).mbDone [arg.toNat] 0)

/-- May Rhoath reach the `n` bytes at a physical address: memory of a die that answers, no retired page and no mirror range (14 R409,
R413)? -/
def State.rhoathReaches (s : State) (pa n : Nat) : Bool :=
  addressable 8 pa n && s.answers pa && !s.retired (s.redirect pa) n &&
    !(List.range (n / 2 ^ 30 + 2)).any fun i => s.inMirror (min (pa + i * 2 ^ 30) (pa + n - 1))
/-- The bytes that Rhoath reads at a physical address, none where it may not. -/
def State.rhoathRead (s : State) (pa n : Nat) : Option (List Byte) :=
  if s.rhoathReaches pa n then some (s.rdBytes (s.redirect pa) n) else none

/-- RECOVER: a replacement image for a die in recovery; one that passes boots the die (R417). -/
def execRecover (arg pa len : Word) (s : State) : Out :=
  let args := [arg.toNat, pa.toNat, len.toNat]
  if !s.channel then .fault (.notEnabled "RECOVER")
  else match if arg.toNat < 4 then DieId.ofCode arg.toNat else none with
    | none => .next (s.mbDone args 1)
    | some d =>
      match s.rhoathRead pa.toNat len.toNat with
        | none => .next (s.mbDone args 1)
        | some l =>
          if !s.rhoath.recovering.contains d then .next (s.mbDone args 0xC)
          else if !(Config.signatureHolds l && Config.versionOk l) then .next (s.mbDone args 4)
          else
            let s : State := { s with
              dies := s.dies.map (·.forgetDie d)
              rhoath := { s.rhoath with
                recovering := s.rhoath.recovering.filter (· != d), flash := (d, l) :: s.rhoath.flash.filter (·.1 != d)
                measures := (none :: DieId.all.map some).map fun e =>
                  if e = some d then Config.sm3 l else s.rhoath.measure e } }
            let s := (s.zeroUncore d).zeroCores d
            .next ((s.setDie (s.bornDie d true)).mbDone args 0)

/-- SPDM: a request in memory is answered by the responder in the response buffer. -/
def execSpdm (pa len resp : Word) (s : State) : Out :=
  let args := [pa.toNat, len.toNat, resp.toNat]
  if !s.channel then .fault (.notEnabled "SPDM")
  else
    match s.rhoathRead pa.toNat len.toNat with
    | none => .next (s.mbDone args 1)
    | some l =>
      match spdmServe .mailbox l s with
      | .next t =>
        if !s.rhoathReaches resp.toNat t.replyData.length then .next (s.mbDone args 1)
        else .next ((t.storeBytes 0 (s.redirect resp.toNat) t.replyData).mbDone args 0)
      | o => o

/-- POWER_CAP. -/
def execPowerCap (arg : Word) (s : State) : Out :=
  let n := arg.toNat
  if !s.channel then .fault (.notEnabled "POWER_CAP")
  else if n < 300 || 1173 < n then .next (s.mbDone [n] 1)
  else .next (({ s with rhoath := { s.rhoath with powerCap := n } } : State).mbDone [n] 0)

/-- MBCMD: the command waits its turn with the arguments that MBARG0 to MBARG2 hold now, and BUSY reads 1. -/
def State.mbCommand (s : State) (cmd : Nat) : State :=
  let a (k : Nat) : Word := .ofNat 64 (cfgReg s (8 + 8 * k))
  State.mbStatus { s with rhoath := { s.rhoath with mbq := s.rhoath.mbq ++ [(cmd, a 0, a 1, a 2)] } } (cfgReg s 0x20)
/-- What a command does; a reserved one is answered with BAD_FIELD. -/
def mbRun (c : Nat × Word × Word × Word) (s : State) : Out :=
  match c.1 with
  | 1 => execCtxKey c.2.1 s
  | 2 => execClearRetired c.2.1 s
  | 3 => execRecover c.2.1 c.2.2.1 c.2.2.2 s
  | 4 => execSpdm c.2.1 c.2.2.1 c.2.2.2 s
  | 5 => execPowerCap c.2.1 s
  | _ => .next (s.mbStatus 1)
/-- The first command that waits is carried out; MBARG0 to MBARG2 keep what they hold (R418). -/
def mbServe (s : State) : Out :=
  match s.rhoath.mbq with
  | [] => .fault (.notEnabled "REGISTER_WRITE")
  | c :: rest =>
    match mbRun c { s with rhoath := { s.rhoath with mbq := rest } } with
    | .next t => .next ([8, 0x10, 0x18].foldl (fun t o => t.setMb o (cfgReg s o)) t)
    | o => o

/-- REGISTER_WRITE: an application core writes eight bytes at an offset of the window of a die, or of the mailbox window (no
die). -/
def execRegisterWrite (d : Option DieId) (off : Nat) (v : Word) (app : AppCore) (s : State) : Out :=
  s.byApp app <| match d with
  | some d => s.writeWindow d off v app
  | none =>
    if s.rhoath.faultN then .next s
    else if off = 0 then .next (s.mbCommand (v.toNat % 256))
    else if off = 8 || off = 0x10 || off = 0x18 then .next (s.setMb off v.toNat)
    else if 0x2000 ≤ off && off < 0x2100 && off % 8 = 0 then execCtxcfgWrite (.ofNat 4 ((off - 0x2000) / 16)) (off % 16 == 8) v app s
    else .next s

/-- MBUE_READ: the bit, which clears with its record in the key store. -/
def execMbueRead (s : State) : Out :=
  if !s.channel then .fault (.notEnabled "MBUE_READ")
  else .next { s with reply := some (.ofNat 64 (b2n s.rhoath.ue)), rhoath := { s.rhoath with ue := false } }

/-! ## Rhoath's own errors (01 R34) -/

/-- Every non-trust die in reset, and FAULT_N asserted. -/
def State.allDown (s : State) : State :=
  let s := DieId.all.foldl State.darken { s with tasks := [] }
  { s with
    dies := s.dies.map fun d => { d with regs := [], tts := [], qseq := [], imageCache := [], slots := [] }
    rhoath := { s.rhoath with faultN := true } }
/-- RHOATH_UE. -/
def execRhoathUe (s : State) : Out := .next { s.allDown with rhoath := { s.allDown.rhoath with ue := true } }
/-- THERMAL_SHUTDOWN: a junction has reached 130 degrees (14 R422). -/
def execThermalShutdown (s : State) : Out := .next s.allDown

/-! ## Failover (14 R401 to R408) -/

/-- A trigger of R401 or R402 that the state shows. -/
def State.failing (s : State) (d : DieId) : Bool :=
  let x := s.die d
  let bits (n : Nat) : Nat := ((List.range 24).filter fun i => bitAt n i).length
  let link (n : Nat) : Bool := 3 ≤ s.rhoath.retrainFails.getD n 0
  !x.removed && x.uncoreUp &&
    (5 ≤ bits (bitsAt (x.nat 0) 32 24) || (List.range 32).any (fun i => 9 ≤ bits (bitsAt (x.nat (0xAA00 + 8 * i)) 0 16)) ||
      65 ≤ (s.rhoath.retPages.filter (·.1 == d)).length ||
      (match d with
      | .cd0 => link 0
      | .cd1 => link 1 || link 2
      | .md0 => false
      | .md1 => link 3))

/-- Step 3: the virtual-die maps name the twin (04 R92). -/
def State.remapVdies (s : State) (d : DieId) : State :=
  (List.range 16).foldl (fun s c =>
    let o := 0x2000 + c * 16
    let x := cfgReg s o
    let y := (List.range 4).foldl (fun y v =>
      if bitAt y (8 * v + 7) && bitsAt y (8 * v) 3 = d.code then setBits (setBits y (8 * v) 3 d.twin.code) 32 1 1 else y) x
    if y = x then s else s.setMb o y) s

/-- The flits that a survivor discards: those whose condition needs writes of the removed die that were not delivered, or a
count that a survivor can no longer reach (12 R352). -/
def State.stuckFlit (s : State) (d : DieId) (a : Access) : Bool :=
  let x := s.die a.home
  a.stage == .rob && a.home != d && !(winLe (clockAt a d.code) (dlvAt x d.code) || (a.core.die == d && s.deliverable a))
/-- The writes from survivor `k` that die `j` can still have: those delivered and those that wait in its buffer. -/
def State.reach (s : State) (j : DieId) (k : Nat) : Nat :=
  (s.flight.filter fun a => a.stage == .rob && a.home == j && a.core.die.code == k && carriesWrite a.act).foldl
    (fun m a => winMax m (clockAt a k)) (dlvAt (s.die j) k)
def State.unreachable (s : State) (a : Access) : Bool :=
  a.stage == .rob && (List.range 4).any fun k => !winLe (clockAt a k) (s.reach a.home k)
/-- The discard, repeated until no further flit goes; `fuel` bounds the rounds. -/
def State.discardStuck (s : State) (d : DieId) : Nat → State
  | 0 => s
  | n + 1 =>
    match s.flight.filter fun a => s.stuckFlit d a || s.unreachable a with
    | [] => s
    | l => (l.foldl (fun s a => s.discardFlit a.home a) s).discardStuck d n

/-- The flits that remain are delivered in the order of R349; what can no longer be delivered is discarded. `fuel` bounds the
flits. -/
def State.deliverRest (s : State) : Nat → State
  | 0 => s
  | n + 1 =>
    match s.flight.find? fun a => a.stage == .rob && s.deliverable a with
    | some a => (s.deliver a).deliverRest n
    | none => (s.flight.filter (·.stage == .rob)).foldl (fun s a => s.discardFlit a.home a) s
/-- FABRIC_RESYNC: survivors discard what depends on the removed die, deliver the rest and start a new epoch with every count
zero. -/
def State.resync (s : State) (d : DieId) : State :=
  let s := s.discardStuck d (s.flight.length + 1)
  let s := s.deliverRest (s.flight.length + 1)
  { s with
    flight := s.flight.map fun a => if a.stage = .link then a else { a with clock := List.replicate 16 0 }
    dies := s.dies.map fun x => if x.removed then x else
      { x with epoch := (x.epoch + 1) % 16, know := List.replicate 16 0, dlv := List.replicate 4 0, seen := List.replicate 4 0
               localSent := 0, told := [] }
    credits := [] }

/-- Every mark of a task's identity renamed. -/
def State.rename (s : State) (f : TaskId → TaskId) : State :=
  let strand (c : Core) : Core := { c with strand := c.strand.map fun x => { x with task := f x.task } }
  let bind (b : Option Binding) : Option Binding := b.map fun x => { x with task := f x.task }
  { s with
    core := strand s.core, parked := s.parked.map strand
    flight := s.flight.map fun a => { a with task := a.task.map f }
    effects := s.effects.map fun e => { e with task := e.task.map f }
    tasks := s.tasks.map fun t => { t with id := f t.id }
    dies := s.dies.map fun d =>
      { d with
        reserve := d.reserve.map fun r => (r.1, f r.2.1, r.2.2), held := d.held.map fun r => (r.1, f r.2.1, r.2.2)
        holds := d.holds.map fun h => { h with task := f h.task }
        arrivals := d.arrivals.map fun a => (a.1, f a.2.1, a.2.2), diverged := d.diverged.map fun a => (a.1, f a.2)
        ports := d.ports.map fun p => { p with bind := bind p.bind }
        chans := d.chans.map fun c => (c.1, { c.2 with task := f c.2.task })
        slots := d.slots.map fun x => (x.1, f x.2.1, x.2.2) } }

/-- QUEUE_ADOPTION: the twin exposes the queues of die `d` with the values of the shadow (R405). -/
def State.adopt (s : State) (d : DieId) : State :=
  let x := s.die d
  let regs := x.regs.filterMap fun r => if 0x1000 ≤ r.1 && r.1 < 0x2000 then some (r.1 + 0x1000, r.2) else none
  let s := s.updDie d.twin fun t =>
    { t with
      regs := regs ++ t.regs.filter fun r => !(0x2000 ≤ r.1 && r.1 < 0x3000)
      qseq := (x.qseq.filterMap fun q => if q.1 < 64 then some (q.1 + 64, q.2) else none) ++ t.qseq.filter (·.1 < 64)
      tts := t.tts ++ (x.tts.filter (!·.adopted)).map fun y => { y with adopted := true } }
  s.rename fun t => if t.die = d && !t.adopted then { t with adopted := true } else t

/-- A gang as a restarted task has it. -/
def Gang.again (d : DieId) (g : Gang) : Gang :=
  { g with die := d, state := .waiting, cores := [], loaded := [], saved := [], ended := [], counts := [], since := none }
/-- What the stopped strands of task `t` have left on its way belongs to no gang of the task that starts again: its gangs number from
256 on, and it is no longer held for an epoch (R406; log 101). -/
def State.disown (s : State) (t : TaskId) : State :=
  let mine (x : Option TaskId) : Bool := x == some t
  let late (l : List Trel) : List Trel := l.map fun e => { e with det := false }
  let core (c : Core) : Core :=
    { c with
      strand := c.strand.map fun x => if x.task = t then { x with gang := x.gang + 256 } else x
      trellis := if (c.strand.map (·.task)) = some t then late c.trellis else c.trellis }
  { s with
    core := core s.core, parked := s.parked.map core
    flight := s.flight.map fun a => if mine a.task then { a with gang := a.gang + 256, det := false } else a
    effects := s.effects.map fun e => if mine e.task then
      { e with gang := e.gang + 256, kind := match e.kind with | .logged x => .logged { x with det := false } | k => k } else e }
/-- A task stopped on every surviving die, to start again: the holds of its epochs are applied. -/
def State.stopAll (s : State) (t : TaskId) : State :=
  let s := s.stopTask t
  let gangs : List Nat := match s.findTask t with | some x => x.gangs.map (·.idx) | none => []
  (gangs.foldl (fun (s : State) g => s.closeHolds t g) s).disown t

/-- TASK_SETTLE: the first case of Table 14-2 that applies. -/
def State.settleTask (s : State) (d : DieId) (t : Task) : State :=
  let home := homeOf t.id
  let clean (s : State) : State := s.updTask t.id fun x =>
    { x with
      gangs := x.gangs.map (·.again home), image := none, layout := none, released := false, ready := none, spells := []
      asks := none, yielding := none, yields := [] }
  if t.status != 0 then s
  else if !t.admitted then clean s
  else if bitAt (t.q 2) 63 && bitAt (t.q 4) 10 then
    let s := (clean (s.stopAll t.id)).updTask t.id fun x => { x with admitted := false, restarted := true }
    { s with dies := s.dies.map fun y => { y with slots := y.slots.filter (·.2.1 != t.id) } }
  else s.endTask t.id 6 d.code 0

/-- R407: both dies of the pair are lost, and every task of theirs ends. -/
def State.loseTasks (s : State) (d : DieId) : State :=
  (s.tasks.filter fun t => homeOf t.id == d || homeOf t.id == d.twin).foldl (fun s t => s.endTask t.id 6 d.code 0) s

/-- DIE_FAILOVER: Rhoath removes die `d`; its twin adopts its queues and settles their tasks (R404). -/
def execDieFailover (d : DieId) (s : State) : Out :=
  if (s.die d).removed || s.down d then .fault (.notEnabled "DIE_FAILOVER")
  else
    let pair := (s.die d.twin).removed
    let gone := s.tasks.filter fun t => homeOf t.id == d || (t.isSuper && t.gangs.any (·.die == d))
    let s := (s.darken d).updDie d fun x => { x with removed := true }
    let s : State := { s with rhoath := { s.rhoath with lost := some d } }
    let s := (s.resync d).remapVdies d
    let s := if pair then s.loseTasks d
      else
        let s := s.adopt d
        let f (t : TaskId) : TaskId := if t.die = d && !t.adopted then { t with adopted := true } else t
        let s := (gone.map fun t => f t.id).foldl (fun s t => match s.findTask t with
          | some x => s.settleTask d x
          | none => s) s
        s.updDie d.twin fun x => { x with tts := x.tts.map fun t => if t.alt = 0 then t else { t with degraded := true } }
    let up := s.dies.filter fun x => x.uncoreUp && !x.removed
    let s := up.foldl (fun s x => s.faultRec x.id 0 0x11 0 0 d.code (s.luMaster x.id)) s
    .next (if up.isEmpty then { s with rhoath := { s.rhoath with faultN := true } } else s.pump)

/-! ## Links and heat (14 R421, R422) -/

/-- The dies at the ends of a link of 01 Table 01-4. -/
def linkEnds : Nat → List DieId
  | 0 => [.cd0, .md0]
  | 1 => [.cd1, .md1]
  | 2 => [.cd0, .cd1]
  | 3 => [.md0, .md1]
  | _ => []

def isFreq : LinkChange → Bool | .freq .. => true | .width _ => false
/-- May Rhoath make a request for a link: of the frequency only for a die at one of its ends? -/
def requestOk (link : Nat) : LinkChange → Bool | .freq d _ => (linkEnds link).contains d | .width _ => true
/-- The request for a link that is applied first: a change of frequency before one of width (R421). -/
def Rhoath.nextChange (r : Rhoath) (link : Nat) : Option LinkChange :=
  let l := (r.linkReqs.filter (·.1 == link)).map (·.2)
  (l.find? isFreq).or (l.find? (!isFreq ·))
/-- The requests that stand after a change has been applied: after one of frequency, a pending width request is evaluated again on
the retrained link, and kept only if the free choice `keep` finds that it still holds (R421, log 2). -/
def Rhoath.served (r : Rhoath) (link : Nat) (change : LinkChange) (keep : Bool) : Rhoath :=
  { r with linkReqs := (r.linkReqs.erase (link, change)).filter fun x => x.1 != link || !isFreq change || isFreq x.2 || keep }
/-- The value of link or die `link` in a list for the four. -/
def setLink (l : List Nat) (link v : Nat) : List Nat := (List.range 4).map fun i => if i = link then v else l.getD i 0

/-- LINK_RETRAIN: Rhoath requests changes of a link, and it retrains with the first of those that are pending; a third failure in a
row fails the link. -/
def execLinkRetrain (link : Nat) (reqs : List LinkChange) (failed : Bool) (s : State) : Out :=
  let s : State := { s with rhoath := { s.rhoath with linkReqs := s.rhoath.linkReqs ++ reqs.map fun x => (link, x) } }
  match s.rhoath.nextChange link, if reqs.all (requestOk link) then (linkEnds link).find? fun d => !s.down d else none with
  | none, _ | _, none => .fault (.notEnabled "LINK_RETRAIN")
  | some change, some d =>
    let n := if failed then s.rhoath.retrainFails.getD link 0 + 1 else 0
    let s := s.faultRec d 0 0x17 0 0 (link + b2n (3 ≤ n) * 2 ^ 8) (s.luMaster d)
    let k := s.draw
    let r := { s.rhoath with retrainFails := s.rhoath.retrainFails.set link n }
    .next { k.2 with rhoath := if failed then r else
      let r := r.served link change (Config.choose k.1 % 2 == 0)
      match change with
      | .width w => { r with widths := setLink r.widths link w }
      | .freq e f => { r with freqs := setLink r.freqs e.code f } }

/-- The package power that Rhoath has measured. -/
def wattsOf : HeatCause → Nat | .hot w | .hotter w | .overCap w | .cool w => w
/-- THERMAL: a change of a die's clock step: lower when hot or when the package power is above the cap, higher when cool, within the
cap. -/
def execThermal (d : DieId) (cause : HeatCause) (s : State) : Out :=
  let n := (s.die d).clockStep
  let s : State := { s with rhoath := { s.rhoath with power := wattsOf cause } }
  let above := s.rhoath.powerCap < s.rhoath.power
  let m := match cause with
    | .cool _ => if above then n else n - 1
    | .overCap _ => if above then n + 1 else n
    | _ => n + 1
  if s.down d || m = n || 3 < m then .fault (.notEnabled "THERMAL")
  else .next ((s.updDie d fun x => { x with clockStep := m }).faultRec d 0 0x16 0 0 m (s.luMaster d))

end Sys2Proof.Machine
end

