-- ==== Sys2Proof/Machine/App.lean ====
section
/-! DEFINITION. The application cores as masters: their loads, stores and atomics of device memory, and their accesses to the
register windows and to Rhoath's mailbox window (00 R9, 01 R30, R33, R36, R37, 04 R100, 09 R245, R268, 12 R353, 14 R415, R416;
log 96). -/

namespace Sys2Proof.Machine

/-! ## Reads of the windows (00 R9) -/

/-- FABSTAT (12 Table 12-6). -/
def Die.fabstat (x : Die) : Nat :=
  x.epoch % 16 * 2 ^ 52 + ((List.range 4).map fun k => dlvAt x k % 4096 * 2 ^ (12 * k)).sum
/-- The read of a register that clears, where the offset names one. -/
def clearsAt (d : DieId) (off : Nat) : Option (State → Out) :=
  if off = 0x3F10 then some (execAccviolRead d)
  else if off = 0x3F08 then some (execViolog1Read d)
  else if off = 0xA400 then some (execDetcntRead d)
  else if off = 0xD008 then some (execFabcntRead d)
  else if 0x1000 ≤ off && off < 0x3000 && off % 0x40 = 0x38 then some (execQfaultRead d ((off - 0x1000) / 0x40))
  else match (List.range 4).find? fun i => off == portOff (i / 2) + 0x10 + 8 * (i % 2) with
    | some i => some (execPortcntRead d (i / 2) (i % 2 == 1))
    | none => none
/-- Eight bytes read at an offset of the window of die `d`, which is up, and what the read leaves. -/
def State.readWindow (s : State) (d : DieId) (off : Nat) : Nat × State :=
  match clearsAt d off with
  | some f =>
    (match f s with
    | .next t => ((t.reply.getD 0).toNat, { t with reply := s.reply })
    | _ => (0, s))
  | none =>
    if off = 0xD000 then ((s.die d).fabstat, s)
    else if off = 0xA500 then (setBits (s.reg d off) 8 8 (s.slotsFree d), s)
    else if 0xA000 ≤ off && off < 0xA100 && off % 16 = 8 then
      (s.reg d off % 2 ^ 16 + (if s.revokes.any fun x => x.1 == (off - 0xA000) / 16 then 2 ^ 62 else 0), s.setAll off 0)
    else (s.reg d off, s)
/-- Eight bytes read at an offset of the mailbox window. -/
def State.readMailbox (s : State) (off : Nat) : Nat × State :=
  if off = 0x28 then (b2n s.rhoath.ue, { s with rhoath := { s.rhoath with ue := false } })
  else if 0x2000 ≤ off && off < 0x2100 && off % 16 = 8 then (cfgReg s off, s.setMb off (cfgReg s off % 2 ^ 48))
  else if off = 0 then (0, s)
  else (cfgReg s off, s)

/-! ## Accesses -/

/-- What an application core receives for an access: a value, or an access fault. -/
def State.appAnswer (s : State) (r : AppReq) (v : Option Nat) : State := { s with appDone := s.appDone ++ [⟨r.app, r.pa, v⟩] }
/-- The access of a request on its way to its home slice. -/
def State.appAccess (s : State) (r : AppReq) : Access :=
  { id := s.nextId, seq := s.nextId, core := ⟨r.app.die, 0⟩, task := none, gang := 0, lcore := 0, ctx := 0, act := r.act
    ord := r.ord, sc := .system, handle := 0, parts := [⟨r.pa, r.pa, r.len, 0, r.data, r.cmp⟩], res := 0, fl := 0, bad := none
    dst := .none, land := none, held := false, checked := false, inst := 0, stage := .away
    home := (paDie r.pa).getD r.app.die, clock := [], epoch := 0, det := false, key := (0, 0, 0), amo := 0, order := 0
    hit := false, know := false, sent := 0, hbase := r.pa, trel := false, app := some r.app, copy := none, xl := s.nextId }

/-- An access of eight bytes to a window: `rd` reads it and `wr` writes it. Any other access to a window is refused. -/
def State.appWindow (s : State) (r : AppReq) (rd : State → Nat × State) (wr : State → Out) : Out :=
  if r.len ≠ 8 || r.pa % 8 ≠ 0 then .next (s.appAnswer r none)
  else match r.act with
    | .load => let x := rd s; .next (x.2.appAnswer r (some x.1))
    | .store => wr s
    | _ => .next (s.appAnswer r none)

/-- The first request of an application core leaves it: to a window, or to a home slice. One of a core that is not there, or that
is not a naturally aligned access of 1 to 8 bytes, has no effect. -/
def appIssue (s : State) : Out :=
  match s.appReqs with
  | [] => .fault (.notEnabled "REGISTER_WRITE")
  | r :: rest =>
    let s : State := { s with appReqs := rest }
    if !s.appUp r.app || !([1, 2, 4, 8].contains r.len) || r.pa % r.len ≠ 0 then .next s
    else if inMailbox r.pa then
      s.appWindow r (·.readMailbox (r.pa - mailboxBase)) (execRegisterWrite none (r.pa - mailboxBase) (.ofNat 64 r.data) r.app)
    else match paDie r.pa, placeOf r.pa with
      | some d, .window off =>
        if s.down d then
          let w : Who := { chip := s.rhoath.chip, die := r.app.die.code, kind := 3, unit := r.app.num, ctx := 0 }
          .next ((s.refusal r.app.die w needR 0 r.pa .down).appAnswer r none)
        else s.appWindow r (·.readWindow d off) (execRegisterWrite (some d) off (.ofNat 64 r.data) r.app)
      | _, _ =>
        let w : Who := { chip := s.rhoath.chip, die := r.app.die.code, kind := 3, unit := r.app.num, ctx := 0 }
        if s.mirrorNamed r.pa then .next ((s.refusal r.app.die w (needOf r.act) 0 r.pa .badPa).appAnswer r none)
        else .next (State.pump { s with nextId := s.nextId + 1, flight := s.flight ++ [s.appAccess r] })

/-- The answer of an access reaches its application core. -/
def appArrive (id : Nat) (s : State) : Out :=
  match s.flight.find? fun a => a.id == id && a.stage == .reply with
  | some a =>
    match a.app with
    | some p =>
      .next { s with
        flight := s.flight.filter (·.id != id)
        appDone := s.appDone ++ [⟨p, a.hbase, if a.bad.isSome then none else some a.res.toNat⟩] }
    | none => .fault (.notEnabled "REGISTER_WRITE")
  | none => .fault (.notEnabled "REGISTER_WRITE")

end Sys2Proof.Machine
end

