-- ==== Sys2Proof/Machine/Turns.lean ====
section
/-! DEFINITION. What the module can do next by itself: the meanings of the events whose occasion the state shows. Which of
them comes first is free (log 2). -/

namespace Sys2Proof.Machine

/-- A meaning that can take place. -/
abbrev Event := State → Out

/-- Does the meaning take place in this state? -/
def Event.goes (s : State) (f : Event) : Bool := match f s with | .fault (.notEnabled _) => false | _ => true

/-! ## Cores -/

/-- Have all strands started that start together with that of core `c` (03 R74, R79)? -/
def State.startsWith (s : State) (st : Strand) : Bool :=
  match s.findTask st.task with
  | none => true
  | some t => t.gangs.all fun g => !g.loads || (g.idx != st.gang && !t.isSuper) ||
      (List.range st.gangSize).all fun l => g.loaded.contains l || g.ended.contains l

/-- May the core take its next tick: its strand runs, those of its gang have started, and no queued trap is due? -/
def State.mayIssue (s : State) (c : Core) : Bool :=
  match c.strand with
  | some st => c.runs && (s.trapTurn c).isNone && s.startsWith st
  | none => false

/-- The matrix routine that a started entry runs. -/
def routineTurns (c : CoreId) : List Event :=
  [execMmFp8 c, execMmInt8 c, execMmInt4 c, execMmBf16x3 c, execMmFp8Accskip c, execAccZero c, execAccDrainF32 c,
   execAccDrainBf16 c, execAccDrainI32 c, execAccDrainFp8 c, execAccToa c, execAccScalerow c, execWbLoad c, execCorrLoad c,
   execChkRead c, execNopRoutine c]

/-- The engines of a core. -/
def engineTurns (c : Core) : List Event :=
  let id := c.id
  (if c.xmq.isEmpty then [] else [execXmEntryStart id]) ++
  (if c.xmRun.any (!·.ran) then routineTurns id else []) ++
  (if c.xmRun.isSome || !c.xmDrain.isEmpty then [execRoutineComplete id] else []) ++
  (if c.tiles.isEmpty then [] else [execTileCompletionCheck id]) ++
  (if c.ceq.isEmpty then [] else [execCeCommandStart id]) ++
  c.ceRun.flatMap fun r =>
    [execCeCommandComplete id r.ent.id] ++ (if r.pkts.isEmpty then [] else [packetSend id r.ent.id]) ++
      (if isFlush r.ent.op then [flushRun id r.ent.id] else []) ++
      (match r.ent.op with | .pgload .. => [pgloadRun id r.ent.id] | _ => []) ++
      (List.range r.air.length).map (execPacketLand id r.ent.id)

/-- A core beside its bundles: waits, commits, traps, stops, the log. -/
def waitTurns (c : Core) : List Event :=
  let id := c.id
  (if c.frozen then [execWaitConditionMet id, execWfeTimeout id, execQueueRoom id, execSyncRelease id] else []) ++
  (match c.wait with | some (.commit _) => [execCommitRelease id] | _ => []) ++
  (if c.ended then [execStrandExitComplete id] else []) ++
  (if (c.syncq ++ c.trapq).isEmpty then [] else [execTrapEntry id, execFatalTrap id]) ++
  (if c.stop then [execStopDeadline id] else []) ++
  (if c.stopping.isSome then [execSaveAreaWrite id] else []) ++
  (if c.trellis.isEmpty then [] else [execTrellisReplay id])

def State.coreTurns (s : State) (c : Core) : List Event :=
  if c.strand.isNone then []
  else (if s.mayIssue c then [execBundleIssue c.id] else []) ++ waitTurns c ++ engineTurns c

/-! ## Accesses and effects -/

def flightTurns (a : Access) : List Event :=
  match a.stage with
  | .walk | .absent | .away | .pinned => []
  | .link => [execFlitReceive a.id]
  | .rob => [execFlitDeliver a.id]
  | .causal => [execLocalCausalRelease a.id]
  | .home => [execHomeSliceAccess a.id, execCounterDecrement a.id, execLaunchPacketArrive a.id]
  | .turn => [execAtomicPerform a.id, execReplayOrderRelease a.id, execDiverge a.id]
  | .reply => [if a.app.isSome then appArrive a.id else execLandingArrival a.id]

def effectTurns (e : Effect) : List Event :=
  match e.kind with
  | .signal .. => [execCpysigSignal e.id]
  | .psend .. => [execPsendDelivery e.id]
  | .install .. => [execRoutineInstall e.id]
  | .put p remote _ => if remote then [] else [execPeerPutReceive p]
  | .logged _ => [loggedReplay e.id]

/-! ## Tasks -/

def gangTurns (t : Task) (g : Gang) : List Event :=
  let loads : List Event := g.cores.zipIdx.flatMap fun x =>
    if g.loaded.contains x.2 || g.ended.contains x.2 then []
    else [execStrandLoad x.1 t.id g.idx x.2, execStrandResume x.1 t.id g.idx x.2]
  match g.state with
  | .waiting => [execAgingReservation g.die t.id g.idx, execStarvationYield t.id g.idx, execEpochClose t.id g.idx]
  | .running => execEpochClose t.id g.idx :: loads
  | .stopping => [execStopRequest t.id g.idx, execEpochClose t.id g.idx] ++ loads
  | .done => [execEpochClose t.id g.idx]
def taskTurns (t : Task) : List Event :=
  [execTaskRelease t.id, execSignatureCheck t.id, execDeadlineMiss t.id, execTaskRetire t.id] ++
  (match t.nextAsk with | some d => [execSuperstepBindRequest d t.id] | none => []) ++ t.gangs.flatMap (gangTurns t)

/-! ## Dies -/

/-- The queues of a die whose QTAIL has been written. -/
def Die.tailed (d : Die) : List Nat :=
  d.regs.filterMap fun r => if 0x1000 ≤ r.1 && r.1 < 0x3000 && r.1 % 0x40 == 0x10 then some ((r.1 - 0x1000) / 0x40) else none

def State.launchTurns (s : State) (d : Die) : List Event :=
  d.tailed.map (execRingSlotRead d.id) ++ (d.launchWait.map fun x => execWaitingPacketAccept d.id x.1) ++
  (d.tts.flatMap fun t =>
    let q := t.queue + 64 * b2n t.adopted
    [execTimetableUnbind d.id q, execFrameStart d.id q, execDegradedSwitch d.id q]) ++
  (if (s.conds d.id).isEmpty then [] else [execCounterWatch d.id, execCounterPoll d.id]) ++
  (if (s.candidates d.id).isEmpty then [] else [execAdmissionPass d.id]) ++
  (if d.reserve.isEmpty then [] else [execReservationPreempt d.id d.id.isMem])

def State.dieTurns (s : State) (d : Die) : List Event :=
  s.launchTurns d ++ (d.dirty.map fun x => execDramWriteback d.id (64 * x.1)) ++
  (d.switches.map fun x => execBankSwitchComplete d.id x.1 x.2.1) ++
  (if s.creditDue d.id then [execCreditSend d.id] else []) ++
  ((d.ports.zipIdx.filter fun p => !p.1.pending.isEmpty).map fun p => execPlateSwitch d.id p.2) ++
  ((d.ports.zipIdx.filter fun p => !p.1.waiting.isEmpty).map fun p => heldFrame d.id p.2) ++
  (((List.range 2).filter fun p => !d.id.isMem && bitAt (d.nat (portOff p)) 0).map fun p => execControlFrame d.id p) ++
  (if !d.uncoreUp && !d.removed then [execUncoreLeaveReset d.id] else []) ++
  (if d.uncoreUp && !d.coresUp then [execCoreDomainLeaveReset d.id] else []) ++
  (if s.failing d.id then [execDieFailover d.id] else [])

/-- Application cores, held DMA accesses, sectors that fail, mailbox commands. -/
def State.hostTurns (s : State) : List Event :=
  (if s.appReqs.isEmpty then [] else [appIssue]) ++ (if s.dmaReqs.isEmpty then [] else [heldDma]) ++
  (if s.dramUes.isEmpty then [] else [dramFault]) ++ (if s.rhoath.mbq.isEmpty then [] else [mbServe])

/-- Every meaning that can take place now, without an input. -/
def State.turns (s : State) : List Event :=
  (s.cores.flatMap s.coreTurns ++ (s.walks.map fun w => execWalkComplete w.id) ++ s.flight.flatMap flightTurns ++
    s.effects.flatMap effectTurns ++ (s.credits.map fun x => execCreditReceive x.2.1 x.1) ++
    (s.permits.map fun x => execPermitArrive x.1 x.2) ++ (s.revokes.map fun x => execRevokeComplete (.ofNat 4 x.1)) ++
    s.tasks.flatMap taskTurns ++ s.dies.flatMap s.dieTurns ++ s.hostTurns).filter (Event.goes s)

end Sys2Proof.Machine
end

