-- ==== Sys2Proof/Machine/Dispatch.lean ====
section
/-! DEFINITION. The meaning of every constructor, one arm each. -/

namespace Sys2Proof.Machine

/-- One step of the module: the meaning of instruction `i`. -/
def exec (i : Instr) (s : State) : Host.Outcome State Fault Refusal :=
  match i with
  | .add x0 x1 x2 => Sys2Proof.Machine.execAdd x0 x1 x2 s
  | .sub x0 x1 x2 => Sys2Proof.Machine.execSub x0 x1 x2 s
  | .and x0 x1 x2 => Sys2Proof.Machine.execAnd x0 x1 x2 s
  | .or x0 x1 x2 => Sys2Proof.Machine.execOr x0 x1 x2 s
  | .xor x0 x1 x2 => Sys2Proof.Machine.execXor x0 x1 x2 s
  | .andn x0 x1 x2 => Sys2Proof.Machine.execAndn x0 x1 x2 s
  | .shl x0 x1 x2 => Sys2Proof.Machine.execShl x0 x1 x2 s
  | .shr x0 x1 x2 => Sys2Proof.Machine.execShr x0 x1 x2 s
  | .sar x0 x1 x2 => Sys2Proof.Machine.execSar x0 x1 x2 s
  | .rol x0 x1 x2 => Sys2Proof.Machine.execRol x0 x1 x2 s
  | .min x0 x1 x2 => Sys2Proof.Machine.execMin x0 x1 x2 s
  | .max x0 x1 x2 => Sys2Proof.Machine.execMax x0 x1 x2 s
  | .minn x0 x1 x2 => Sys2Proof.Machine.execMinn x0 x1 x2 s
  | .maxn x0 x1 x2 => Sys2Proof.Machine.execMaxn x0 x1 x2 s
  | .mul x0 x1 x2 => Sys2Proof.Machine.execMul x0 x1 x2 s
  | .mulh x0 x1 x2 => Sys2Proof.Machine.execMulh x0 x1 x2 s
  | .mulhn x0 x1 x2 => Sys2Proof.Machine.execMulhn x0 x1 x2 s
  | .div x0 x1 x2 => Sys2Proof.Machine.execDiv x0 x1 x2 s
  | .divn x0 x1 x2 => Sys2Proof.Machine.execDivn x0 x1 x2 s
  | .rem x0 x1 x2 => Sys2Proof.Machine.execRem x0 x1 x2 s
  | .remn x0 x1 x2 => Sys2Proof.Machine.execRemn x0 x1 x2 s
  | .cmpeq x0 x1 x2 => Sys2Proof.Machine.execCmpeq x0 x1 x2 s
  | .cmpne x0 x1 x2 => Sys2Proof.Machine.execCmpne x0 x1 x2 s
  | .cmplt x0 x1 x2 => Sys2Proof.Machine.execCmplt x0 x1 x2 s
  | .cmple x0 x1 x2 => Sys2Proof.Machine.execCmple x0 x1 x2 s
  | .cmpltn x0 x1 x2 => Sys2Proof.Machine.execCmpltn x0 x1 x2 s
  | .cmplen x0 x1 x2 => Sys2Proof.Machine.execCmplen x0 x1 x2 s
  | .sel x0 x1 x2 x3 => Sys2Proof.Machine.execSel x0 x1 x2 x3 s
  | .clz x0 x1 => Sys2Proof.Machine.execClz x0 x1 s
  | .ctz x0 x1 => Sys2Proof.Machine.execCtz x0 x1 s
  | .popc x0 x1 => Sys2Proof.Machine.execPopc x0 x1 s
  | .brev x0 x1 => Sys2Proof.Machine.execBrev x0 x1 s
  | .bswap x0 x1 => Sys2Proof.Machine.execBswap x0 x1 s
  | .extb x0 x1 x2 x3 => Sys2Proof.Machine.execExtb x0 x1 x2 x3 s
  | .insb x0 x1 x2 => Sys2Proof.Machine.execInsb x0 x1 x2 s
  | .addsh x0 x1 x2 x3 => Sys2Proof.Machine.execAddsh x0 x1 x2 x3 s
  | .addi x0 x1 x2 => Sys2Proof.Machine.execAddi x0 x1 x2 s
  | .andi x0 x1 x2 => Sys2Proof.Machine.execAndi x0 x1 x2 s
  | .ori x0 x1 x2 => Sys2Proof.Machine.execOri x0 x1 x2 s
  | .xori x0 x1 x2 => Sys2Proof.Machine.execXori x0 x1 x2 s
  | .shli x0 x1 x2 => Sys2Proof.Machine.execShli x0 x1 x2 s
  | .shri x0 x1 x2 => Sys2Proof.Machine.execShri x0 x1 x2 s
  | .sari x0 x1 x2 => Sys2Proof.Machine.execSari x0 x1 x2 s
  | .cmpeqi x0 x1 x2 => Sys2Proof.Machine.execCmpeqi x0 x1 x2 s
  | .cmplti x0 x1 x2 => Sys2Proof.Machine.execCmplti x0 x1 x2 s
  | .movw x0 x1 => Sys2Proof.Machine.execMovw x0 x1 s
  | .movk x0 x1 x2 => Sys2Proof.Machine.execMovk x0 x1 x2 s
  | .fadd x0 x1 x2 x3 => Sys2Proof.Machine.execFadd x0 x1 x2 x3 s
  | .fsub x0 x1 x2 x3 => Sys2Proof.Machine.execFsub x0 x1 x2 x3 s
  | .fmul x0 x1 x2 x3 => Sys2Proof.Machine.execFmul x0 x1 x2 x3 s
  | .ffma x0 x1 x2 x3 => Sys2Proof.Machine.execFfma x0 x1 x2 x3 s
  | .fmin x0 x1 x2 x3 => Sys2Proof.Machine.execFmin x0 x1 x2 x3 s
  | .fmax x0 x1 x2 x3 => Sys2Proof.Machine.execFmax x0 x1 x2 x3 s
  | .fcmp x0 x1 x2 x3 x4 => Sys2Proof.Machine.execFcmp x0 x1 x2 x3 x4 s
  | .fcvt x0 x1 x2 x3 => Sys2Proof.Machine.execFcvt x0 x1 x2 x3 s
  | .fclass x0 x1 x2 => Sys2Proof.Machine.execFclass x0 x1 x2 s
  | .ptos x0 x1 x2 => Sys2Proof.Machine.execPtos x0 x1 x2 s
  | .mpset x0 x1 => Sys2Proof.Machine.execMpset x0 x1 s
  | .mpget x0 x1 => Sys2Proof.Machine.execMpget x0 x1 s
  | .cntset x0 x1 => Sys2Proof.Machine.execCntset x0 x1 s
  | .cntadd x0 x1 => Sys2Proof.Machine.execCntadd x0 x1 s
  | .cntrd x0 x1 => Sys2Proof.Machine.execCntrd x0 x1 s
  | .csrrd x0 x1 => Sys2Proof.Machine.execCsrrd x0 x1 s
  | .csrwr x0 x1 => Sys2Proof.Machine.execCsrwr x0 x1 s
  | .vdqry x0 x1 x2 => Sys2Proof.Machine.execVdqry x0 x1 x2 s
  | .lix x0 x1 => Sys2Proof.Machine.execLix x0 x1 s
  | .frameq x0 => Sys2Proof.Machine.execFrameq x0 s
  | .nop => Sys2Proof.Machine.execNop s
  | .br x0 => Sys2Proof.Machine.execBr x0 s
  | .brz x0 x1 => Sys2Proof.Machine.execBrz x0 x1 s
  | .brnz x0 x1 => Sys2Proof.Machine.execBrnz x0 x1 s
  | .jmp x0 x1 => Sys2Proof.Machine.execJmp x0 x1 s
  | .call x0 => Sys2Proof.Machine.execCall x0 s
  | .callr x0 x1 => Sys2Proof.Machine.execCallr x0 x1 s
  | .ret => Sys2Proof.Machine.execRet s
  | .loop x0 x1 => Sys2Proof.Machine.execLoop x0 x1 s
  | .loopi x0 x1 => Sys2Proof.Machine.execLoopi x0 x1 s
  | .lbreak x0 x1 => Sys2Proof.Machine.execLbreak x0 x1 s
  | .disarm x0 => Sys2Proof.Machine.execDisarm x0 s
  | .commit => Sys2Proof.Machine.execCommit s
  | .waitlt x0 x1 x2 => Sys2Proof.Machine.execWaitlt x0 x1 x2 s
  | .waittk x0 x1 => Sys2Proof.Machine.execWaittk x0 x1 s
  | .bar => Sys2Proof.Machine.execBar s
  | .sstep => Sys2Proof.Machine.execSstep s
  | .yield => Sys2Proof.Machine.execYield s
  | .exit => Sys2Proof.Machine.execExit s
  | .signal x0 x1 x2 => Sys2Proof.Machine.execSignal x0 x1 x2 s
  | .launch x0 x1 x2 x3 => Sys2Proof.Machine.execLaunch x0 x1 x2 x3 s
  | .trap x0 x1 => Sys2Proof.Machine.execTrap x0 x1 s
  | .ebreak => Sys2Proof.Machine.execEbreak s
  | .eret => Sys2Proof.Machine.execEret s
  | .flagwt x0 => Sys2Proof.Machine.execFlagwt x0 s
  | .wfe => Sys2Proof.Machine.execWfe s
  | .hinvall => Sys2Proof.Machine.execHinvall s
  | .vadd x0 x1 x2 x3 x4 x5 => Sys2Proof.Machine.execVadd x0 x1 x2 x3 x4 x5 s
  | .vsub x0 x1 x2 x3 x4 x5 => Sys2Proof.Machine.execVsub x0 x1 x2 x3 x4 x5 s
  | .vmul x0 x1 x2 x3 x4 x5 => Sys2Proof.Machine.execVmul x0 x1 x2 x3 x4 x5 s
  | .vfma x0 x1 x2 x3 x4 x5 x6 => Sys2Proof.Machine.execVfma x0 x1 x2 x3 x4 x5 x6 s
  | .vfms x0 x1 x2 x3 x4 x5 x6 => Sys2Proof.Machine.execVfms x0 x1 x2 x3 x4 x5 x6 s
  | .vfnma x0 x1 x2 x3 x4 x5 x6 => Sys2Proof.Machine.execVfnma x0 x1 x2 x3 x4 x5 x6 s
  | .vmin x0 x1 x2 x3 x4 x5 => Sys2Proof.Machine.execVmin x0 x1 x2 x3 x4 x5 s
  | .vmax x0 x1 x2 x3 x4 x5 => Sys2Proof.Machine.execVmax x0 x1 x2 x3 x4 x5 s
  | .vabs x0 x1 x2 x3 x4 => Sys2Proof.Machine.execVabs x0 x1 x2 x3 x4 s
  | .vneg x0 x1 x2 x3 x4 => Sys2Proof.Machine.execVneg x0 x1 x2 x3 x4 s
  | .vand x0 x1 x2 x3 x4 x5 => Sys2Proof.Machine.execVand x0 x1 x2 x3 x4 x5 s
  | .vor x0 x1 x2 x3 x4 x5 => Sys2Proof.Machine.execVor x0 x1 x2 x3 x4 x5 s
  | .vxor x0 x1 x2 x3 x4 x5 => Sys2Proof.Machine.execVxor x0 x1 x2 x3 x4 x5 s
  | .vandn x0 x1 x2 x3 x4 x5 => Sys2Proof.Machine.execVandn x0 x1 x2 x3 x4 x5 s
  | .vshl x0 x1 x2 x3 x4 x5 => Sys2Proof.Machine.execVshl x0 x1 x2 x3 x4 x5 s
  | .vshr x0 x1 x2 x3 x4 x5 => Sys2Proof.Machine.execVshr x0 x1 x2 x3 x4 x5 s
  | .vsar x0 x1 x2 x3 x4 x5 => Sys2Proof.Machine.execVsar x0 x1 x2 x3 x4 x5 s
  | .vmulh x0 x1 x2 x3 x4 x5 => Sys2Proof.Machine.execVmulh x0 x1 x2 x3 x4 x5 s
  | .vavg x0 x1 x2 x3 x4 x5 => Sys2Proof.Machine.execVavg x0 x1 x2 x3 x4 x5 s
  | .vclz x0 x1 x2 x3 x4 => Sys2Proof.Machine.execVclz x0 x1 x2 x3 x4 s
  | .vpopc x0 x1 x2 x3 x4 => Sys2Proof.Machine.execVpopc x0 x1 x2 x3 x4 s
  | .vcmp x0 x1 x2 x3 x4 x5 x6 => Sys2Proof.Machine.execVcmp x0 x1 x2 x3 x4 x5 x6 s
  | .vsel x0 x1 x2 x3 x4 x5 => Sys2Proof.Machine.execVsel x0 x1 x2 x3 x4 x5 s
  | .vmov x0 x1 x2 x3 x4 => Sys2Proof.Machine.execVmov x0 x1 x2 x3 x4 s
  | .vbcast x0 x1 x2 x3 x4 => Sys2Proof.Machine.execVbcast x0 x1 x2 x3 x4 s
  | .vext x0 x1 x2 x3 x4 => Sys2Proof.Machine.execVext x0 x1 x2 x3 x4 s
  | .vins x0 x1 x2 x3 x4 => Sys2Proof.Machine.execVins x0 x1 x2 x3 x4 s
  | .viota x0 x1 x2 x3 => Sys2Proof.Machine.execViota x0 x1 x2 x3 s
  | .vperm x0 x1 x2 x3 x4 x5 => Sys2Proof.Machine.execVperm x0 x1 x2 x3 x4 x5 s
  | .vrot x0 x1 x2 x3 x4 x5 => Sys2Proof.Machine.execVrot x0 x1 x2 x3 x4 x5 s
  | .vslide x0 x1 x2 x3 x4 x5 x6 x7 => Sys2Proof.Machine.execVslide x0 x1 x2 x3 x4 x5 x6 x7 s
  | .vzip x0 x1 x2 x3 x4 x5 x6 => Sys2Proof.Machine.execVzip x0 x1 x2 x3 x4 x5 x6 s
  | .vunzip x0 x1 x2 x3 x4 x5 x6 => Sys2Proof.Machine.execVunzip x0 x1 x2 x3 x4 x5 x6 s
  | .vredadd x0 x1 x2 x3 x4 => Sys2Proof.Machine.execVredadd x0 x1 x2 x3 x4 s
  | .vredmax x0 x1 x2 x3 x4 => Sys2Proof.Machine.execVredmax x0 x1 x2 x3 x4 s
  | .vredmin x0 x1 x2 x3 x4 => Sys2Proof.Machine.execVredmin x0 x1 x2 x3 x4 s
  | .vscan x0 x1 x2 x3 x4 => Sys2Proof.Machine.execVscan x0 x1 x2 x3 x4 s
  | .vdot4 x0 x1 x2 x3 x4 x5 x6 => Sys2Proof.Machine.execVdot4 x0 x1 x2 x3 x4 x5 x6 s
  | .vcvt x0 x1 x2 x3 x4 x5 x6 => Sys2Proof.Machine.execVcvt x0 x1 x2 x3 x4 x5 x6 s
  | .vpack x0 x1 x2 x3 x4 x5 x6 => Sys2Proof.Machine.execVpack x0 x1 x2 x3 x4 x5 x6 s
  | .vunpack x0 x1 x2 x3 x4 x5 x6 => Sys2Proof.Machine.execVunpack x0 x1 x2 x3 x4 x5 x6 s
  | .vscale x0 x1 x2 x3 x4 x5 x6 x7 x8 => Sys2Proof.Machine.execVscale x0 x1 x2 x3 x4 x5 x6 x7 x8 s
  | .vabsmax x0 x1 x2 x3 x4 x5 => Sys2Proof.Machine.execVabsmax x0 x1 x2 x3 x4 x5 s
  | .pand x0 x1 x2 x3 => Sys2Proof.Machine.execPand x0 x1 x2 x3 s
  | .por x0 x1 x2 x3 => Sys2Proof.Machine.execPor x0 x1 x2 x3 s
  | .pxor x0 x1 x2 x3 => Sys2Proof.Machine.execPxor x0 x1 x2 x3 s
  | .pnot x0 x1 x2 => Sys2Proof.Machine.execPnot x0 x1 x2 s
  | .pset x0 x1 x2 x3 => Sys2Proof.Machine.execPset x0 x1 x2 x3 s
  | .pcount x0 x1 x2 x3 => Sys2Proof.Machine.execPcount x0 x1 x2 x3 s
  | .pfirst x0 x1 x2 x3 => Sys2Proof.Machine.execPfirst x0 x1 x2 x3 s
  | .frcp x0 x1 x2 x3 x4 => Sys2Proof.Machine.execFrcp x0 x1 x2 x3 x4 s
  | .frsq x0 x1 x2 x3 x4 => Sys2Proof.Machine.execFrsq x0 x1 x2 x3 x4 s
  | .frcps x0 x1 x2 x3 x4 x5 => Sys2Proof.Machine.execFrcps x0 x1 x2 x3 x4 x5 s
  | .frsqs x0 x1 x2 x3 x4 x5 => Sys2Proof.Machine.execFrsqs x0 x1 x2 x3 x4 x5 s
  | .fsqrt x0 x1 x2 x3 x4 => Sys2Proof.Machine.execFsqrt x0 x1 x2 x3 x4 s
  | .fdiv x0 x1 x2 x3 x4 x5 => Sys2Proof.Machine.execFdiv x0 x1 x2 x3 x4 x5 s
  | .fexp2 x0 x1 x2 x3 x4 => Sys2Proof.Machine.execFexp2 x0 x1 x2 x3 x4 s
  | .flog2 x0 x1 x2 x3 x4 => Sys2Proof.Machine.execFlog2 x0 x1 x2 x3 x4 s
  | .fsin x0 x1 x2 x3 x4 => Sys2Proof.Machine.execFsin x0 x1 x2 x3 x4 s
  | .fcos x0 x1 x2 x3 x4 => Sys2Proof.Machine.execFcos x0 x1 x2 x3 x4 s
  | .ftanh x0 x1 x2 x3 x4 => Sys2Proof.Machine.execFtanh x0 x1 x2 x3 x4 s
  | .fsigm x0 x1 x2 x3 x4 => Sys2Proof.Machine.execFsigm x0 x1 x2 x3 x4 s
  | .fgelu x0 x1 x2 x3 x4 => Sys2Proof.Machine.execFgelu x0 x1 x2 x3 x4 s
  | .fclassv x0 x1 x2 x3 x4 => Sys2Proof.Machine.execFclassv x0 x1 x2 x3 x4 s
  | .ld x0 x1 x2 x3 x4 x5 => Sys2Proof.Machine.execLd x0 x1 x2 x3 x4 x5 s
  | .st x0 x1 x2 x3 x4 x5 => Sys2Proof.Machine.execSt x0 x1 x2 x3 x4 x5 s
  | .vld x0 x1 x2 x3 x4 x5 => Sys2Proof.Machine.execVld x0 x1 x2 x3 x4 x5 s
  | .vst x0 x1 x2 x3 x4 x5 => Sys2Proof.Machine.execVst x0 x1 x2 x3 x4 x5 s
  | .vldw x0 x1 x2 x3 x4 x5 => Sys2Proof.Machine.execVldw x0 x1 x2 x3 x4 x5 s
  | .vstw x0 x1 x2 x3 x4 x5 => Sys2Proof.Machine.execVstw x0 x1 x2 x3 x4 x5 s
  | .xlt x0 x1 => Sys2Proof.Machine.execXlt x0 x1 s
  | .hinv x0 => Sys2Proof.Machine.execHinv x0 s
  | .hqry x0 x1 => Sys2Proof.Machine.execHqry x0 x1 s
  | .ldl x0 x1 x2 x3 x4 x5 x6 x7 => Sys2Proof.Machine.execLdl x0 x1 x2 x3 x4 x5 x6 x7 s
  | .vldl x0 x1 x2 x3 x4 x5 x6 x7 => Sys2Proof.Machine.execVldl x0 x1 x2 x3 x4 x5 x6 x7 s
  | .vldlx x0 x1 x2 x3 x4 x5 x6 x7 => Sys2Proof.Machine.execVldlx x0 x1 x2 x3 x4 x5 x6 x7 s
  | .vgath x0 x1 x2 x3 x4 x5 x6 x7 => Sys2Proof.Machine.execVgath x0 x1 x2 x3 x4 x5 x6 x7 s
  | .sth x0 x1 x2 x3 x4 x5 x6 => Sys2Proof.Machine.execSth x0 x1 x2 x3 x4 x5 x6 s
  | .vsth x0 x1 x2 x3 x4 x5 x6 => Sys2Proof.Machine.execVsth x0 x1 x2 x3 x4 x5 x6 s
  | .vsthx x0 x1 x2 x3 x4 x5 x6 => Sys2Proof.Machine.execVsthx x0 x1 x2 x3 x4 x5 x6 s
  | .vscat x0 x1 x2 x3 x4 x5 x6 => Sys2Proof.Machine.execVscat x0 x1 x2 x3 x4 x5 x6 s
  | .vlda x0 x1 x2 x3 x4 x5 x6 x7 => Sys2Proof.Machine.execVlda x0 x1 x2 x3 x4 x5 x6 x7 s
  | .vsta x0 x1 x2 x3 x4 x5 x6 x7 => Sys2Proof.Machine.execVsta x0 x1 x2 x3 x4 x5 x6 x7 s
  | .pld x0 x1 x2 => Sys2Proof.Machine.execPld x0 x1 x2 s
  | .drain => Sys2Proof.Machine.execDrain s
  | .fence x0 x1 x2 x3 x4 => Sys2Proof.Machine.execFence x0 x1 x2 x3 x4 s
  | .amoadd x0 x1 x2 x3 x4 x5 x6 x7 x8 => Sys2Proof.Machine.execAmoadd x0 x1 x2 x3 x4 x5 x6 x7 x8 s
  | .amomin x0 x1 x2 x3 x4 x5 x6 x7 x8 => Sys2Proof.Machine.execAmomin x0 x1 x2 x3 x4 x5 x6 x7 x8 s
  | .amomax x0 x1 x2 x3 x4 x5 x6 x7 x8 => Sys2Proof.Machine.execAmomax x0 x1 x2 x3 x4 x5 x6 x7 x8 s
  | .amoand x0 x1 x2 x3 x4 x5 x6 x7 x8 => Sys2Proof.Machine.execAmoand x0 x1 x2 x3 x4 x5 x6 x7 x8 s
  | .amoor x0 x1 x2 x3 x4 x5 x6 x7 x8 => Sys2Proof.Machine.execAmoor x0 x1 x2 x3 x4 x5 x6 x7 x8 s
  | .amoxor x0 x1 x2 x3 x4 x5 x6 x7 x8 => Sys2Proof.Machine.execAmoxor x0 x1 x2 x3 x4 x5 x6 x7 x8 s
  | .amoswp x0 x1 x2 x3 x4 x5 x6 x7 x8 => Sys2Proof.Machine.execAmoswp x0 x1 x2 x3 x4 x5 x6 x7 x8 s
  | .amocas x0 x1 x2 x3 x4 x5 x6 x7 x8 => Sys2Proof.Machine.execAmocas x0 x1 x2 x3 x4 x5 x6 x7 x8 s
  | .amofadd x0 x1 x2 x3 x4 x5 x6 x7 x8 => Sys2Proof.Machine.execAmofadd x0 x1 x2 x3 x4 x5 x6 x7 x8 s
  | .redadd x0 x1 x2 x3 x4 x5 x6 => Sys2Proof.Machine.execRedadd x0 x1 x2 x3 x4 x5 x6 s
  | .redmin x0 x1 x2 x3 x4 x5 x6 => Sys2Proof.Machine.execRedmin x0 x1 x2 x3 x4 x5 x6 s
  | .redmax x0 x1 x2 x3 x4 x5 x6 => Sys2Proof.Machine.execRedmax x0 x1 x2 x3 x4 x5 x6 s
  | .redfadd x0 x1 x2 x3 x4 x5 x6 => Sys2Proof.Machine.execRedfadd x0 x1 x2 x3 x4 x5 x6 s
  | .mcall x0 x1 x2 x3 => Sys2Proof.Machine.execMcall x0 x1 x2 x3 s
  | .mfmt x0 x1 => Sys2Proof.Machine.execMfmt x0 x1 s
  | .mchk x0 x1 => Sys2Proof.Machine.execMchk x0 x1 s
  | .mclr x0 x1 => Sys2Proof.Machine.execMclr x0 x1 s
  | .mldstore x0 x1 => Sys2Proof.Machine.execMldstore x0 x1 s
  | .cpy x0 x1 x2 x3 x4 x5 x6 => Sys2Proof.Machine.execCpy x0 x1 x2 x3 x4 x5 x6 s
  | .cpysig x0 x1 x2 x3 x4 x5 x6 => Sys2Proof.Machine.execCpysig x0 x1 x2 x3 x4 x5 x6 s
  | .cpeer x0 x1 x2 x3 x4 x5 x6 => Sys2Proof.Machine.execCpeer x0 x1 x2 x3 x4 x5 x6 s
  | .bankcfg x0 x1 x2 => Sys2Proof.Machine.execBankcfg x0 x1 x2 s
  | .strmbind x0 x1 x2 => Sys2Proof.Machine.execStrmbind x0 x1 x2 s
  | .strmrel x0 x1 x2 => Sys2Proof.Machine.execStrmrel x0 x1 x2 s
  | .pgload x0 x1 x2 => Sys2Proof.Machine.execPgload x0 x1 x2 s
  | .pgrun x0 x1 => Sys2Proof.Machine.execPgrun x0 x1 s
  | .pgstop x0 x1 => Sys2Proof.Machine.execPgstop x0 x1 s
  | .psend x0 x1 x2 x3 => Sys2Proof.Machine.execPsend x0 x1 x2 x3 s
  | .pgrant x0 x1 => Sys2Proof.Machine.execPgrant x0 x1 s
  | .cflush x0 x1 x2 => Sys2Proof.Machine.execCflush x0 x1 x2 s
  | .cinv x0 x1 x2 => Sys2Proof.Machine.execCinv x0 x1 x2 s
  | .mmFp8 x0 => Sys2Proof.Machine.execMmFp8 x0 s
  | .mmInt8 x0 => Sys2Proof.Machine.execMmInt8 x0 s
  | .mmInt4 x0 => Sys2Proof.Machine.execMmInt4 x0 s
  | .mmBf16x3 x0 => Sys2Proof.Machine.execMmBf16x3 x0 s
  | .mmFp8Accskip x0 => Sys2Proof.Machine.execMmFp8Accskip x0 s
  | .accZero x0 => Sys2Proof.Machine.execAccZero x0 s
  | .accDrainF32 x0 => Sys2Proof.Machine.execAccDrainF32 x0 s
  | .accDrainBf16 x0 => Sys2Proof.Machine.execAccDrainBf16 x0 s
  | .accDrainI32 x0 => Sys2Proof.Machine.execAccDrainI32 x0 s
  | .accDrainFp8 x0 => Sys2Proof.Machine.execAccDrainFp8 x0 s
  | .accToa x0 => Sys2Proof.Machine.execAccToa x0 s
  | .accScalerow x0 => Sys2Proof.Machine.execAccScalerow x0 s
  | .wbLoad x0 => Sys2Proof.Machine.execWbLoad x0 s
  | .corrLoad x0 => Sys2Proof.Machine.execCorrLoad x0 s
  | .chkRead x0 => Sys2Proof.Machine.execChkRead x0 s
  | .nopRoutine x0 => Sys2Proof.Machine.execNopRoutine x0 s
  | .xmEntryStart x0 => Sys2Proof.Machine.execXmEntryStart x0 s
  | .routineComplete x0 => Sys2Proof.Machine.execRoutineComplete x0 s
  | .tileCompletionCheck x0 => Sys2Proof.Machine.execTileCompletionCheck x0 s
  | .routineInstall x0 => Sys2Proof.Machine.execRoutineInstall x0 s
  | .bundleIssue x0 => Sys2Proof.Machine.execBundleIssue x0 s
  | .landingArrival x0 => Sys2Proof.Machine.execLandingArrival x0 s
  | .walkComplete x0 => Sys2Proof.Machine.execWalkComplete x0 s
  | .waitConditionMet x0 => Sys2Proof.Machine.execWaitConditionMet x0 s
  | .wfeTimeout x0 => Sys2Proof.Machine.execWfeTimeout x0 s
  | .queueRoom x0 => Sys2Proof.Machine.execQueueRoom x0 s
  | .syncRelease x0 => Sys2Proof.Machine.execSyncRelease x0 s
  | .commitRelease x0 => Sys2Proof.Machine.execCommitRelease x0 s
  | .strandExitComplete x0 => Sys2Proof.Machine.execStrandExitComplete x0 s
  | .asyncTrapArrival x0 x1 x2 x3 => Sys2Proof.Machine.execAsyncTrapArrival x0 x1 x2 x3 s
  | .trapEntry x0 => Sys2Proof.Machine.execTrapEntry x0 s
  | .fatalTrap x0 => Sys2Proof.Machine.execFatalTrap x0 s
  | .detectorEvent x0 x1 x2 => Sys2Proof.Machine.execDetectorEvent x0 x1 x2 s
  | .stopRequest x0 x1 => Sys2Proof.Machine.execStopRequest x0 x1 s
  | .stopDeadline x0 => Sys2Proof.Machine.execStopDeadline x0 s
  | .saveAreaWrite x0 => Sys2Proof.Machine.execSaveAreaWrite x0 s
  | .strandResume x0 x1 x2 x3 => Sys2Proof.Machine.execStrandResume x0 x1 x2 x3 s
  | .strandLoad x0 x1 x2 x3 => Sys2Proof.Machine.execStrandLoad x0 x1 x2 x3 s
  | .trellisReplay x0 => Sys2Proof.Machine.execTrellisReplay x0 s
  | .homeSliceAccess x0 => Sys2Proof.Machine.execHomeSliceAccess x0 s
  | .localCausalRelease x0 => Sys2Proof.Machine.execLocalCausalRelease x0 s
  | .atomicPerform x0 => Sys2Proof.Machine.execAtomicPerform x0 s
  | .replayOrderRelease x0 => Sys2Proof.Machine.execReplayOrderRelease x0 s
  | .diverge x0 => Sys2Proof.Machine.execDiverge x0 s
  | .epochClose x0 x1 => Sys2Proof.Machine.execEpochClose x0 x1 s
  | .counterDecrement x0 => Sys2Proof.Machine.execCounterDecrement x0 s
  | .cacheUe x0 x1 x2 x3 => Sys2Proof.Machine.execCacheUe x0 x1 x2 x3 s
  | .dramWriteback x0 x1 => Sys2Proof.Machine.execDramWriteback x0 x1 s
  | .bankSwitchComplete x0 x1 x2 => Sys2Proof.Machine.execBankSwitchComplete x0 x1 x2 s
  | .flitReceive x0 => Sys2Proof.Machine.execFlitReceive x0 s
  | .flitDeliver x0 => Sys2Proof.Machine.execFlitDeliver x0 s
  | .creditSend x0 => Sys2Proof.Machine.execCreditSend x0 s
  | .creditReceive x0 x1 => Sys2Proof.Machine.execCreditReceive x0 x1 s
  | .ceCommandStart x0 => Sys2Proof.Machine.execCeCommandStart x0 s
  | .packetLand x0 x1 x2 => Sys2Proof.Machine.execPacketLand x0 x1 x2 s
  | .ceCommandComplete x0 x1 => Sys2Proof.Machine.execCeCommandComplete x0 x1 s
  | .cpysigSignal x0 => Sys2Proof.Machine.execCpysigSignal x0 s
  | .peerPutReceive x0 => Sys2Proof.Machine.execPeerPutReceive x0 s
  | .psendDelivery x0 => Sys2Proof.Machine.execPsendDelivery x0 s
  | .permitArrive x0 x1 => Sys2Proof.Machine.execPermitArrive x0 x1 s
  | .lineFrame x0 x1 x2 => Sys2Proof.Machine.execLineFrame x0 x1 x2 s
  | .controlFrame x0 x1 => Sys2Proof.Machine.execControlFrame x0 x1 s
  | .plateSwitch x0 x1 => Sys2Proof.Machine.execPlateSwitch x0 x1 s
  | .pcieDmaWrite x0 x1 x2 => Sys2Proof.Machine.execPcieDmaWrite x0 x1 x2 s
  | .pcieDmaRead x0 x1 x2 => Sys2Proof.Machine.execPcieDmaRead x0 x1 x2 s
  | .qtailWrite x0 x1 x2 => Sys2Proof.Machine.execQtailWrite x0 x1 x2 s
  | .ringSlotRead x0 x1 => Sys2Proof.Machine.execRingSlotRead x0 x1 s
  | .launchPacketArrive x0 => Sys2Proof.Machine.execLaunchPacketArrive x0 s
  | .waitingPacketAccept x0 x1 => Sys2Proof.Machine.execWaitingPacketAccept x0 x1 s
  | .qcfgWrite x0 x1 x2 x3 => Sys2Proof.Machine.execQcfgWrite x0 x1 x2 x3 s
  | .qttWrite x0 x1 x2 x3 => Sys2Proof.Machine.execQttWrite x0 x1 x2 x3 s
  | .timetableUnbind x0 x1 => Sys2Proof.Machine.execTimetableUnbind x0 x1 s
  | .frameStart x0 x1 => Sys2Proof.Machine.execFrameStart x0 x1 s
  | .degradedSwitch x0 x1 => Sys2Proof.Machine.execDegradedSwitch x0 x1 s
  | .taskRelease x0 => Sys2Proof.Machine.execTaskRelease x0 s
  | .counterWatch x0 => Sys2Proof.Machine.execCounterWatch x0 s
  | .counterPoll x0 => Sys2Proof.Machine.execCounterPoll x0 s
  | .admissionPass x0 => Sys2Proof.Machine.execAdmissionPass x0 s
  | .signatureCheck x0 => Sys2Proof.Machine.execSignatureCheck x0 s
  | .superstepBindRequest x0 x1 => Sys2Proof.Machine.execSuperstepBindRequest x0 x1 s
  | .agingReservation x0 x1 x2 => Sys2Proof.Machine.execAgingReservation x0 x1 x2 s
  | .reservationPreempt x0 x1 => Sys2Proof.Machine.execReservationPreempt x0 x1 s
  | .starvationYield x0 x1 => Sys2Proof.Machine.execStarvationYield x0 x1 s
  | .deadlineMiss x0 => Sys2Proof.Machine.execDeadlineMiss x0 s
  | .taskRetire x0 => Sys2Proof.Machine.execTaskRetire x0 s
  | .ctxcfgWrite x0 x1 x2 x3 => Sys2Proof.Machine.execCtxcfgWrite x0 x1 x2 x3 s
  | .ctxmmuWrite x0 x1 x2 => Sys2Proof.Machine.execCtxmmuWrite x0 x1 x2 s
  | .revoke x0 => Sys2Proof.Machine.execRevoke x0 s
  | .revokeComplete x0 => Sys2Proof.Machine.execRevokeComplete x0 s
  | .pfdone x0 => Sys2Proof.Machine.execPfdone x0 s
  | .accessTableWrite x0 x1 x2 x3 x4 x5 => Sys2Proof.Machine.execAccessTableWrite x0 x1 x2 x3 x4 x5 s
  | .ppcfgWrite x0 x1 x2 x3 => Sys2Proof.Machine.execPpcfgWrite x0 x1 x2 x3 s
  | .portcfgWrite x0 x1 x2 x3 => Sys2Proof.Machine.execPortcfgWrite x0 x1 x2 x3 s
  | .qtraceWrite x0 x1 x2 x3 => Sys2Proof.Machine.execQtraceWrite x0 x1 x2 x3 s
  | .ctxordWrite x0 x1 x2 x3 x4 => Sys2Proof.Machine.execCtxordWrite x0 x1 x2 x3 x4 s
  | .detquotaWrite x0 x1 x2 x3 => Sys2Proof.Machine.execDetquotaWrite x0 x1 x2 x3 s
  | .mirrorcfgWrite x0 x1 x2 x3 x4 => Sys2Proof.Machine.execMirrorcfgWrite x0 x1 x2 x3 x4 s
  | .savepoolWrite x0 x1 x2 => Sys2Proof.Machine.execSavepoolWrite x0 x1 x2 s
  | .registerWrite x0 x1 x2 x3 => Sys2Proof.Machine.execRegisterWrite x0 x1 x2 x3 s
  | .qfaultRead x0 x1 => Sys2Proof.Machine.execQfaultRead x0 x1 s
  | .accviolRead x0 => Sys2Proof.Machine.execAccviolRead x0 s
  | .violog1Read x0 => Sys2Proof.Machine.execViolog1Read x0 s
  | .detcntRead x0 => Sys2Proof.Machine.execDetcntRead x0 s
  | .portcntRead x0 x1 x2 => Sys2Proof.Machine.execPortcntRead x0 x1 x2 s
  | .fabcntRead x0 => Sys2Proof.Machine.execFabcntRead x0 s
  | .ctxKey x0 => Sys2Proof.Machine.execCtxKey x0 s
  | .clearRetired x0 => Sys2Proof.Machine.execClearRetired x0 s
  | .recover x0 x1 x2 => Sys2Proof.Machine.execRecover x0 x1 x2 s
  | .spdm x0 x1 x2 => Sys2Proof.Machine.execSpdm x0 x1 x2 s
  | .powerCap x0 => Sys2Proof.Machine.execPowerCap x0 s
  | .mbueRead => Sys2Proof.Machine.execMbueRead s
  | .getVersion x0 => Sys2Proof.Machine.execGetVersion x0 s
  | .getCapabilities x0 => Sys2Proof.Machine.execGetCapabilities x0 s
  | .negotiateAlgorithms x0 => Sys2Proof.Machine.execNegotiateAlgorithms x0 s
  | .getDigests x0 => Sys2Proof.Machine.execGetDigests x0 s
  | .getCertificate x0 x1 => Sys2Proof.Machine.execGetCertificate x0 x1 s
  | .challenge x0 x1 => Sys2Proof.Machine.execChallenge x0 x1 s
  | .getMeasurements x0 x1 => Sys2Proof.Machine.execGetMeasurements x0 x1 s
  | .keyExchange x0 => Sys2Proof.Machine.execKeyExchange x0 s
  | .finish x0 => Sys2Proof.Machine.execFinish x0 s
  | .endSession x0 => Sys2Proof.Machine.execEndSession x0 s
  | .unsupportedRequest x0 x1 => Sys2Proof.Machine.execUnsupportedRequest x0 x1 s
  | .powerGoodBoot x0 => Sys2Proof.Machine.execPowerGoodBoot x0 s
  | .uncoreResetRequest x0 => Sys2Proof.Machine.execUncoreResetRequest x0 s
  | .uncoreLeaveReset x0 => Sys2Proof.Machine.execUncoreLeaveReset x0 s
  | .coreDomainLeaveReset x0 => Sys2Proof.Machine.execCoreDomainLeaveReset x0 s
  | .rhoathUe => Sys2Proof.Machine.execRhoathUe s
  | .dieFailover x0 => Sys2Proof.Machine.execDieFailover x0 s
  | .linkRetrain x0 x1 x2 => Sys2Proof.Machine.execLinkRetrain x0 x1 x2 s
  | .thermal x0 x1 => Sys2Proof.Machine.execThermal x0 x1 s
  | .thermalShutdown => Sys2Proof.Machine.execThermalShutdown s
  | .peerAck x0 => Sys2Proof.Machine.execPeerAck x0 s

end Sys2Proof.Machine
end

