-- ==== Sys2Proof/Machine/Step.lean ====
section
/-! DEFINITION. One step of the module: one of the events that can take place now, and where a program is placed so that its
bundle is the next to issue. -/

namespace Sys2Proof.Machine

/-- The oldest event that an agent outside the module has brought; one that has no occasion is lost. -/
def inputEvent (s : State) : Out :=
  match s.inputs with
  | [] => .next s
  | i :: r =>
    let s : State := { s with inputs := r }
    match exec i s with
    | .fault _ => .next s
    | x => x

/-- Everything that can come next. -/
def State.nextEvents (s : State) : List Event := s.turns ++ if s.inputs.isEmpty then [] else [inputEvent]

/-- The time that an event takes is free (log 5). -/
def afterEvent : Out → Out
  | .next s => .next s.now
  | x => x

/-- One of the possible events, chosen freely where there are several; time alone passes where there is none (log 2). -/
def step (s : State) : Host.Outcome State Fault Refusal :=
  match s.nextEvents with
  | [] => .next s.now
  | e :: [] => afterEvent (e s)
  | e :: r =>
    afterEvent (((e :: r).getD (Config.choose s.free % (r.length + 1)) e) { s with free := s.free + 1 })

/-! ## A program in place (log 1) -/

/-- The task whose one strand runs a placed program: queue 0 of CD0, gang of one, the latest deadline, EDF. -/
def placedTask : Task :=
  { id := ⟨.cd0, 0, false, 0, 0⟩, pkt := [0, .ofNat 64 (2 ^ 48 + 2 ^ 43), 0, 0xFFFFFFFFFFFF, .ofNat 64 (2 ^ 11)], ctx := 1
    released := true, release := 0, frameStart := 0, entry := 0, ready := some 0, image := none, layout := none
    gangs := [{ idx := 0, die := .cd0, state := .running, cores := [⟨.cd0, 0⟩], loaded := [0], saved := [], ended := []
                counts := [], since := none, layout := some 0 }]
    status := 0, detail := 0, statusGang := 0, admitTick := 0, admitted := true, demoted := false, traceDiv := false
    restarted := false, asks := none, yielding := none, yields := [], noted := false, spells := [] }

/-- Its strand: code at VA 0x8000, one region, entitled to MLDSTORE. -/
def placedStrand : Strand :=
  { task := placedTask.id, gang := 0, lcore := 0, ctx := 1, gangSize := 1, gangCount := 1, superstep := false, vdie := 0
    novdie := false, codeVa := 0x8000, codeSize := 0x8000, regions := [⟨0, 0x7FFF, 256⟩], pauses := [], grants := []
    hasGrant := false, priv := true }

/-- Nodes of the four levels at 0x8000 to 0x20000 of CD0 map the code page, which lies at 0x28000, readable at VA 0x8000. -/
def placedTables (m : List Host.Cell) : List Host.Cell :=
  memPut (memPut (memPut (memPut m 0x8000 0x10001 8) 0x10000 0x18001 8) 0x18000 0x20001 8) 0x20008 0x28013 8

/-- Core 0 of CD0 at the start of the strand. -/
def placedCore : Core :=
  { Core.reset ⟨.cd0, 0⟩ with strand := some placedStrand, store := shipped }

/-- `s` with a bundle that holds the instruction of a table row as the next that issues: the task, its strand, the page
tables and the code. -/
def State.withFetchWord (s : State) (nbits w : Nat) : State :=
  match tableSlot nbits w with
  | none => s
  | some sl =>
    let m := memPut (placedTables s.mem) 0x28000 (oneSlotBundle sl w) (4 + 2 * sl.halfwords)
    let s : State := { s with mem := m, tasks := [placedTask], dies := s.dies.map (·.setReg 0xA010 0x8001) }
    let s := (s.focus ⟨.cd0, 0⟩).onCore fun _ => placedCore
    s.beginInst false

end Sys2Proof.Machine
end

