-- ==== Sys2Proof/Safety.lean ====
section
/-! DEFINITION. What a safe state and a safe run are, in the terms that the statements use. -/

namespace Sys2Proof.Safety

open Sys2Proof.Machine

/-- The memory is in its one canonical form (log 7). -/
def MemoryOk (s : State) : Prop := Memory.wf s.mem = true

/-- The registers that read as constants are never written: s0 and p0 keep their value at reset (05 R113). -/
def HardWired (c : Core) : Prop := c.sreg.get 0 = 0 ∧ c.preg.get 0 = 0

/-- A CSR's reserved bits read as zero (06 R145, 13 R372). -/
def CsrOk (c : Core) : Prop := c.flags &&& ~~~flagsMask = 0 ∧ c.tvec &&& ~~~0xFFFFFFFE = 0

/-- `k` steps of the machine from `s` end in `t`. -/
inductive Reaches : Nat → State → State → Prop where
  | here (s : State) : Reaches 0 s s
  | there (k : Nat) (s t u : State) : step s = .next t → Reaches k t u → Reaches (k + 1) s u

/-- A run that never stops: every state it reaches has a next. -/
def Goes (s : State) : Prop := ∀ k t, Reaches k s t → ∃ u, step t = .next u

end Sys2Proof.Safety
end

