-- ==== Sys2Proof/Certificates/Slice0/Terms.lean ====
section
/-! DEFINITION. The words of the statements: what a completed operation leaves, and the spec's tables of results. -/

namespace Sys2Proof.Terms

open Sys2Proof.Machine

/-! ## What an operation leaves -/

/-- `s` with one more pending write of the focus core: `w`, which falls due `lat` ticks from now and raises `fl` (05 R116);
the horizon of its detectors lies `h` ticks behind it (13 R384). Nothing else differs from `s`. -/
def posted (s : State) (lat : Nat) (w : Wr) (fl : Flags) (h : Nat) : State :=
  { s with
    core := { s.core with
      pend := s.core.pend ++ [{ due := s.core.tick + lat, no := s.core.issueNo, wr := w, fl := fl, walk := none }]
      inst := { s.core.inst with horizon := max s.core.inst.horizon (s.core.tick + lat + h) } } }

/-- `s` with the write of a vector result of type `t`: element `i` takes `(f i).1` where predicate `p` makes it active, and
no other element is written; an inactive element raises no flag (08 R214, R215). -/
def vposted (s : State) (t : ElemType) (lat h : Nat) (vd : VRegN) (p : PReg) (f : Nat → Nat × Flags) : State :=
  posted s lat
    (.v vd (ofLanes t.width ((List.range t.lanes).map fun i => if activeLane (s.core.p p) t.width i then (f i).1 else 0))
      (activeMask (s.core.p p) t.width))
    (orFlags ((List.range t.lanes).map fun i => if activeLane (s.core.p p) t.width i then (f i).2 else 0)) h

/-- `s` with the focus core going on at `target`, two ticks without issue between (06 R142). -/
def gone (s : State) (target : Nat) : State :=
  { s with core := { s.core with
      pc := target, dead := s.core.dead + 2, ictx := { s.core.ictx with moved := true } } }

/-- `s` with the focus core waiting for `w`. -/
def waiting (s : State) (w : Wait) : State := { s with core := { s.core with wait := some w } }

/-- `s` with the commit of the focus core begun: its drain ticks stand before it, every slot is disarmed (13 R384, 05 R129). -/
def committing (s : State) (after : AfterCommit) : State :=
  { s with core := { s.core with
      dead := s.core.dead + (s.core.inst.horizon - s.core.tick), wait := some (.commit after), latch := [] } }

/-- `s` with entry `e` at the tail of the XM queue, and of the CE queue. -/
def queuedXm (s : State) (e : QEntry) : State :=
  { s with nextId := s.nextId + 1, core := { s.core with xmq := s.core.xmq ++ [e], seq := s.core.seq + 1 } }
def queuedCe (s : State) (e : QEntry) : State :=
  { s with nextId := s.nextId + 1, core := { s.core with ceq := s.core.ceq ++ [e], seq := s.core.seq + 1 } }
/-- `s` with the present bundle held back for want of room in a queue (05 R124). -/
def heldBack (s : State) (xm : Bool) : State :=
  { s with core := { s.core with ictx := { s.core.ictx with stall := some (.room xm) } } }

/-- Two states that differ at most in the accesses in flight, in the dies and in the next number, which the sending of
accesses changes. -/
def SameButFabric (t u : State) : Prop :=
  { t with flight := [], dies := [], nextId := 0 } = { u with flight := [], dies := [], nextId := 0 }

/-- Is `b` the byte of memory at `a` in both states? -/
def SameMemory (s t : State) : Prop := ∀ a, memGet t.mem a = memGet s.mem a

/-- The four dies stand in the state in the order of their codes (01 R30). -/
def AllDies (s : State) : Prop := s.dies.map (·.id) = DieId.all

/-- Every access in flight has a number that was given before the next one, and so has the landing that waits for it
(log 2). -/
def Fresh (s : State) : Prop := ∀ a ∈ s.flight, a.id < s.nextId ∧ ∀ l, a.land = some l → l < s.nextId

/-! ## Scalar results -/

/-- Bit `i` of register `r`. -/
def sbit (s : State) (r : SReg) (i : Nat) : Bool := (s.core.s r).getLsbD i

/-- The format of a width, by its exponent and fraction fields (06 R156). -/
def expBits : Width → Nat | .f32 => 8 | .f64 => 11
def fracBits : Width → Nat | .f32 => 23 | .f64 => 52
/-- The operand of a scalar floating-point operation: the low 32 or 64 bits (06 R156). -/
def fpOperand (w : Width) (x : Word) : Nat := x.toNat % 2 ^ (1 + expBits w + fracBits w)
def fpSign (w : Width) (x : Nat) : Bool := bitAt x (expBits w + fracBits w)
def fpExp (w : Width) (x : Nat) : Nat := bitsAt x (fracBits w) (expBits w)
def fpFrac (w : Width) (x : Nat) : Nat := bitsAt x 0 (fracBits w)
def fpIsNan (w : Width) (x : Nat) : Bool := fpExp w x == 2 ^ expBits w - 1 && fpFrac w x != 0
/-- A signalling NaN has the top bit of its fraction clear (07 R199). -/
def fpIsSnan (w : Width) (x : Nat) : Bool := fpIsNan w x && !bitAt x (fracBits w - 1)
/-- The order of the values that are no NaN: by the magnitude below the sign bit, negated under it; both zeros are 0. -/
def fpKey (w : Width) (x : Nat) : Int :=
  let m : Int := (x % 2 ^ (expBits w + fracBits w) : Nat)
  if fpSign w x then -m else m

/-- The bit of FCLASS (06 R159). -/
def fpClass (w : Width) (x : Nat) : Nat :=
  let e := fpExp w x
  let f := fpFrac w x
  if e = 2 ^ expBits w - 1 then
    (if f ≠ 0 then (if bitAt x (fracBits w - 1) then 9 else 8) else if fpSign w x then 0 else 7)
  else if e ≠ 0 then (if fpSign w x then 1 else 6)
  else if f ≠ 0 then (if fpSign w x then 2 else 5)
  else (if fpSign w x then 3 else 4)

/-- Does relation `cc` hold of two numbers (06 R157)? -/
def relHolds (cc : Rel) (x y : Int) : Bool :=
  match cc with
  | .eq => x == y | .ne => x != y | .lt => x < y | .le => x ≤ y | .gt => y < x | .ge => y ≤ x | .un => false

/-! ## Vector elements -/

/-- The relation of VCMP on two elements of FLT type `t`, with its flags (08 R220, 06 R157): read from the sign, exponent and
fraction fields of F32, F16 and BF16. A NaN makes NE and UN true and the others false; it raises NV in LT, LE, GT and GE, and
in any relation if it is signalling. Else the order is that of the signed magnitudes, both zeros equal. -/
def fltCmp (t : ElemType) (cc : Rel) (x y : Nat) : Bool × Flags :=
  let eb := (fmtOf t).ebits
  let fb := (fmtOf t).fbits
  let nan (z : Nat) : Bool := bitsAt z fb eb == 2 ^ eb - 1 && bitsAt z 0 fb != 0
  let snan (z : Nat) : Bool := nan z && !bitAt z (fb - 1)
  let key (z : Nat) : Int := if bitAt z (eb + fb) then -(bitsAt z 0 (eb + fb) : Nat) else (bitsAt z 0 (eb + fb) : Nat)
  if nan x || nan y then
    (cc == .ne || cc == .un,
      if cc == .lt || cc == .le || cc == .gt || cc == .ge || snan x || snan y then 16 else 0)
  else (relHolds cc (key x) (key y), 0)

/-- The elements of the three operands. -/
def el (s : State) (t : ElemType) (r : VRegN) (i : Nat) : Nat := laneOf (s.core.v r) t.width i
/-- The signed or unsigned value of an element (08 R219). -/
def sval (t : ElemType) (x : Nat) : Int := if t.signed && 2 ^ (t.width - 1) ≤ x then (x : Int) - (2 ^ t.width : Nat) else x
/-- An integer taken modulo 2^w. -/
def modW (t : ElemType) (x : Int) : Nat := (x % (2 ^ t.width : Nat)).toNat
/-- The number of active elements below `i` (08 R221). -/
def rank (p : PWord) (t : ElemType) (i : Nat) : Nat := ((List.range i).filter fun j => activeLane p t.width j).length

/-! ## Atomics -/

/-- The signed value of an integer of `n` bytes. -/
def signedOf (n x : Nat) : Int := if 2 ^ (8 * n - 1) ≤ x then (x : Int) - (2 ^ (8 * n) : Nat) else x
/-- The new value of an integer atomic of `n` bytes: `old` in memory, operand `x`, compare value `c` (09 Table 09-13). -/
def atomResult (op : AtomOp) (n old x c : Nat) : Nat :=
  match op with
  | .add => (old + x) % 2 ^ (8 * n)
  | .min => if signedOf n x < signedOf n old then x else old
  | .max => if signedOf n old < signedOf n x then x else old
  | .and => Nat.land old x
  | .or => Nat.lor old x
  | .xor => Nat.xor old x
  | .swp => x
  | .cas => if old = c then x else old
  | .fadd => 0

/-! ## The matrix routines -/

/-- What entry (i, j) of the region of MM routine `r` of entry `e` holds after its blocks, if it held `old` before: each block adds the
product of row i of A and column j of B, exactly modulo 2^80 on integers (11 R305, R307); on floats it accumulates the scaled
contribution, which stands alone after the first block of MM.FP8.ACCSKIP (11 R306, R323 to R325). -/
def mmEntry (s : State) (r : Nat) (e : QEntry) (i j old : Nat) : Nat :=
  let p := rtParams e
  (mmBlocks r p).foldl (fun acc x =>
    let row := s.aRow s.core.id r e x.1 x.2.1 i
    let tile := bTile s.core e (p.wbase + (x.1 * p.nt + j / 128) * p.tstr + x.2.2)
    let a (k : Nat) : Opnd := row.getD k Opnd.zero
    let b (k : Nat) : Opnd := tile.ops.getD (128 * k + j % 128) Opnd.zero
    let d := sumBy 128 fun k => (a k).v * (b k).v
    let nan := match (List.range 128).findSome? fun k => (a k).nan with
      | some v => some v
      | none => (List.range 128).findSome? fun k => (b k).nan
    let c := (contribution nan d (s.scaleAt s.core.id (p.sbase + x.2.1 + 4 * (x.1 * p.m + i))) tile.scale).1
    (if isFloatMm r then (if r == 14 && x.1 == 0 then c else (accumulate acc c).1)
      else (IFmt.mk 80 true).wrap (int80 acc + d)) % 2 ^ 80) old

/-! ## Accesses through handles -/

/-- The walk `id` of the page of handle `h`, which no operation waits for (09 R247). -/
def pageWalk (s : State) (h : Reg16) (id : Nat) : Walk :=
  { id := id, core := s.core.id, ctx := hCtx (s.core.h h), va := canonVa (hVpage (s.core.h h) * 2 ^ 15), h := h
    why := .handle, stale := false }

/-- A landing operation through handle `h` at state `s` (09 R250 to R255, R263): on the elements `es` of a valid handle whose
page is present it takes an Arbour entry, its access leaves, and its register is to be written `land` ticks from now; with no
element it takes the entry alone; through a handle that is not valid its walk begins, with or without an element (09 R247); through an absent page it waits.
Beside these, only the place in the core's order and the accesses in flight move; in a bank the access may perform at once. -/
def LandsAt (s : State) (i : Instr) (h : Reg16) (es : List Elem) (al : Bool) (dst : LandDst) (land : BitVec 12) : Prop :=
  let c := s.core
  let hw := c.h h
  let entry (id : Nat) (wr : Option Wr) : Landing :=
    { id := id, due := c.tick + land.toNat, no := c.issueNo, size := 1, reg := dst.reg, wr := wr, fl := 0
      trap := none, inst := c.inst.id }
  let after (id : Nat) : Core := { c with arb := c.arb ++ [entry id none], seq := c.seq + 1 }
  Fresh s → hInit hw = true → c.arbUsed < 64 → al = true → (∀ e ∈ es, e.off < 2 ^ 27) →
    (hValid hw = true → hPresent hw = true → hR hw = true ∧ ∀ e ∈ es, e.off + e.len ≤ pageBytes (hSize hw)) →
    (es = [] → hValid hw = true → exec i s = .next { s with
      nextId := s.nextId + 1, core := { c with arb := c.arb ++ [entry s.nextId (some .none)] } }) ∧
    (es = [] → hValid hw = false → exec i s = .next { s with
      nextId := s.nextId + 2, core := { c with arb := c.arb ++ [entry s.nextId (some .none)] }
      walks := s.walks ++ [pageWalk s h (s.nextId + 1)] }) ∧
    (es ≠ [] → hValid hw = true → hPresent hw = true →
      ∃ t, exec i s = .next t ∧ t.core = after s.nextId ∧
        (isBank (hPbase hw) = false → SameButFabric t { s with core := after s.nextId }) ∧
        ∃ a ∈ t.flight, a.act = .load ∧ a.land = some s.nextId ∧ a.dst = dst) ∧
    (es ≠ [] → hValid hw = false →
      ∃ t, exec i s = .next t ∧ t.walks.length = s.walks.length + 1 ∧ SameMemory s t ∧ t.core = after (s.nextId + 1) ∧
        ∃ a ∈ t.flight, a.stage = .walk ∧ a.land = some (s.nextId + 1)) ∧
    (es ≠ [] → hValid hw = true → hPresent hw = false →
      ∃ t, exec i s = .next t ∧ (∃ a ∈ t.flight, a.stage = .absent ∧ a.land = some s.nextId) ∧ t.core = after s.nextId)

/-- The traps of a landing load through handle `h` at state `s` on elements `es` (09 R247, R250, R251): those taken at issue, in the
order of the model (log 106), with the address of the first element, and the MISALIGNED that its Arbour entry raises when it lands,
beside the walk of a handle that is not valid. -/
def LandTraps (s : State) (i : Instr) (h : Reg16) (es : List Elem) (al : Bool) (land : BitVec 12) : Prop :=
  let c := s.core
  let hw := c.h h
  let va := match es with | x :: _ => hVa hw x.off | [] => hVa hw 0
  let near := ∀ x ∈ es, x.off < 2 ^ 27
  let known := hValid hw = true ∧ hPresent hw = true
  let inside := ∀ x ∈ es, x.off + x.len ≤ pageBytes (hSize hw)
  (hInit hw = false → exec i s = .next (s.issueTrap .badHandle 0 0)) ∧
  (hInit hw = true → 64 ≤ c.arbUsed → exec i s = .next (s.issueTrap .arbourFull 0 0)) ∧
  (hInit hw = true → c.arbUsed < 64 → ¬ near ∨ (known ∧ ¬ inside) → exec i s = .next (s.issueTrap .handleRange 0 va)) ∧
  (hInit hw = true → c.arbUsed < 64 → near → known → inside → hR hw = false → exec i s = .next (s.issueTrap .pageRights 0 va)) ∧
  (hInit hw = true → c.arbUsed < 64 → near → (known → inside ∧ hR hw = true) → al = false →
    ∃ l, exec i s = .next (if hValid hw then { s with nextId := s.nextId + 1, core := { c with arb := c.arb ++ [l] } }
        else { s with
          nextId := s.nextId + 2, core := { c with arb := c.arb ++ [l] }, walks := s.walks ++ [pageWalk s h (s.nextId + 1)] }) ∧
      l.due = c.tick + land.toNat ∧ l.trap = some ⟨.misaligned, 0, .ofNat 64 va⟩)

/-- Lines of 64 bytes that an operation charges when it retires into the log: those of its data, or of each element that
makes an entry of its own (13 R382). -/
def logLines (each : Bool) (es : List Elem) : Nat := if each then (es.map fun e => linesOf [e]).sum else linesOf es

/-- A posted operation through handle `h` at state `s` (09 R254, R259, R261, 13 R382), on elements `es` in the page: through a
handle that is not valid the strand waits for its walk; through a valid one nothing changes where there is no element; through an absent page, or
while the log holds an entry of the page, it retires into the log; else its access is in flight, held until COMMIT and charged
`units` against the budget of the region, or on its way where the place is not a held one; in a bank it may perform at once. -/
def PostsAt (s : State) (i : Instr) (h : Reg16) (right : Right) (act : Act) (es : List Elem) (al each : Bool)
    (units : Nat) : Prop :=
  Fresh s → hInit (s.core.h h) = true → (∀ e ∈ es, e.off < 2 ^ 27) → al = true →
    let c := s.core
    let hw := c.h h
    let red := match act with | .store => false | _ => true
    let held := red || heldPlace (hPbase hw)
    let n := match act with | .store => units | _ => max units (logLines each es)
    let new := if each then es.length else 1
    let logged := !hPresent hw || es.any fun e => inLog c.trellis hw (hVa hw e.off)
    (es = [] → hValid hw = true → exec i s = .next s) ∧
    (hValid hw = false → ∃ t, exec i s = .next t ∧ t.core.wait = some (.walk s.nextId) ∧ t.mem = s.mem ∧
      t.flight = s.flight ∧ t.core.trellis = c.trellis ∧ ∃ w, t.walks = s.walks ++ [w] ∧ w.id = s.nextId ∧ w.h = h) ∧
    (es ≠ [] → hValid hw = true →
      (hPresent hw = true → hRight hw right = true ∧ ∀ e ∈ es, e.off + e.len ≤ pageBytes (hSize hw)) →
      (logged = false → (held = true → c.inst.used + units ≤ c.inst.budget) →
        (held || !isBank (hPbase hw) →
          ∃ t, exec i s = .next t ∧
            SameButFabric t { s with core := { c with
              seq := c.seq + 1, inst := { c.inst with used := if held then c.inst.used + units else c.inst.used } } } ∧
            ∃ a ∈ t.flight, a.id = s.nextId ∧ a.act = act ∧ a.held = held) ∧
        (held = false → isBank (hPbase hw) = true →
          ∃ t, exec i s = .next t ∧ t.core.sreg = c.sreg ∧ t.core.vreg = c.vreg ∧ t.core.preg = c.preg ∧ t.core.hreg = c.hreg)) ∧
      (logged = true → c.inst.used + n ≤ c.inst.budget → c.trellis.length + new ≤ 256 →
        ∃ t, exec i s = .next t ∧ SameButFabric { t with free := s.free, frame := s.frame, mem := s.mem }
            { s with core := { c with
                seq := c.seq + 1, trellis := t.core.trellis, inst := { c.inst with used := c.inst.used + n } } } ∧
          t.flight = s.flight ∧ t.core.trellis.length = c.trellis.length + new ∧
          t.core.trellis.take c.trellis.length = c.trellis ∧
          ∀ x ∈ t.core.trellis.drop c.trellis.length, x.act = act ∧ x.committed = false))

/-- The same for every state. -/
def Posts (i : Instr) (h : Reg16) (right : Right) (act : Act) (es : State → List Elem) (al : State → Bool) (each : Bool)
    (units : State → Nat) : Prop :=
  ∀ s : State, PostsAt s i h right act (es s) (al s) each (units s)

/-- A returning atomic (09 R265, 12 R339): sent once in the life of its instance, whatever its replays. Its first issue takes
an Arbour entry of one or two units and its access leaves; an issue of a replay that the instance has already sent only counts. In a
handler it traps. -/
def Atomics (i : Instr) (op : AtomOp) (w v : Bool) (t : BitVec 6) (h : Reg16) (a b : BitVec 6) (land : BitVec 12) : Prop :=
  ∀ s : State, (s.core.snap.isSome → exec i s = .next (s.issueTrap .handlerFault 0 0)) ∧ (Fresh s → s.core.snap = none →
    let c := s.core
    let size := if v then 2 else 1
    let es := atomElems s op w v t a b
    (c.inst.amoSeen < c.inst.amoSent → exec i s = .next { s with
      core := { c with inst := { c.inst with amoSeen := c.inst.amoSeen + 1 } } }) ∧
    (c.inst.amoSent ≤ c.inst.amoSeen → hInit (c.h h) = true → c.arbUsed + size ≤ 64 →
      (∀ e ∈ es, e.off < 2 ^ 27 ∧ e.off % atomSize op w = 0) → hValid (c.h h) = true → hPresent (c.h h) = true →
      hA (c.h h) = true → (∀ e ∈ es, e.off + e.len ≤ pageBytes (hSize (c.h h))) →
      ∃ u, exec i s = .next u ∧
        SameButFabric u { s with
          core := { c with
            arb := u.core.arb, seq := c.seq + 1, amos := c.amos + 1
            inst := { c.inst with
              carried := u.core.inst.carried, amoSent := c.inst.amoSent + 1, amoSeen := c.inst.amoSeen + 1 } } } ∧
        (∃ l, u.core.arb = c.arb ++ [l] ∧ l.id = s.nextId ∧ l.due = c.tick + land.toNat ∧ l.size = size ∧ l.wr = none ∧
          l.reg = if v then some (.v (vOf t)) else if t = 0 then none else some (.s t)) ∧
        ∃ x ∈ u.flight, x.act = .amo op w ∧ x.land = some s.nextId))

/-- A routine's directory row or an engine operation enters its queue with what it copied at issue, or is held back while the
queue is full (05 R116, R124). -/
def EntersXm (i : Instr) (e : State → QEntry) (s : State) : Prop :=
  (s.core.xmq.length < 16 → exec i s = .next (queuedXm s (e s))) ∧
  (16 ≤ s.core.xmq.length → exec i s = .next (heldBack s true))
def EntersCe (i : Instr) (e : State → QEntry) (s : State) : Prop :=
  (s.core.ceq.length < 16 → exec i s = .next (queuedCe s (e s))) ∧
  (16 ≤ s.core.ceq.length → exec i s = .next (heldBack s false))

/-- The entry of operation `op` that has copied `a`, `b`, descriptor `d` and counter `k` (05 R116). -/
def entryOf (op : Instr) (tk : Tok) (a b : Word) (d : VWord) (k : Reg16) (s : State) : QEntry :=
  { id := s.nextId, seq := s.core.seq, op := op, tok := tk, deps := s.core.depsOf tk, mp := s.core.mpreg.set 0 (s.core.mp 0)
    efmt := s.core.efmt, a := a, b := b, desc := d, k := k, inst := s.core.inst.id, entered := s.core.issueNo }

/-- A copy command with a descriptor (10 R277, R282, 13 R382): charged against the region's budget, it enters the CE queue with
the addresses `src` and `dst`; beyond the budget it traps. -/
def Copies (i : Instr) (tk : Tok) (v : VRegN) (src dst : State → Word) (k : Reg16) (s : State) : Prop :=
  let d := s.core.v v
  let n := s.copyUnits i d (dst s).toNat
  let e := entryOf i tk (src s) (dst s) d k s
  (s.core.inst.used + n ≤ s.core.inst.budget → s.core.ceq.length < 16 →
    exec i s = .next { queuedCe s e with
      core := { (queuedCe s e).core with inst := { s.core.inst with used := s.core.inst.used + n } } }) ∧
  (s.core.inst.used + n ≤ s.core.inst.budget → 16 ≤ s.core.ceq.length →
    ∃ t, exec i s = .next t ∧ t.core.ictx.stall = some (.room false) ∧ t.core.ceq = s.core.ceq) ∧
  (s.core.inst.budget < s.core.inst.used + n → exec i s = .next (s.issueTrap .regionBudget 0 0))

end Sys2Proof.Terms
end

