-- ==== Sys2Proof/Certificates/Slice0/Obligations.lean ====
section
/-! DEFINITION. The statements for the provers. -/

open Sys2Proof Sys2Proof.Machine Sys2Proof.Terms

/-- For every state and all register and immediate operands, ADD to ADDSH of Table 06-9 (divisions and bit counts apart),
the compares among them, SEL, the immediate forms of Table 06-10, MOVW and MOVK complete: the next state is the present one
with one more pending write of s(d), which falls due 1 tick later (3 ticks for the multiplications), raises no flag and has
its detector horizon 24 ticks behind. No register, flag, special register or byte of memory changes at issue. (states R154,
R155) -/
def Obligations.ScalarArithmetic : Prop :=
  ∀ (s : State) (d a b c : SReg) (sh n : BitVec 6) (i : BitVec 13) (w : BitVec 19) (k : BitVec 16) (pos : BitVec 2),
    let x := s.core.s a
    let y := s.core.s b
    let put (lat : Nat) (v : Word) : Out := .next (posted s lat (.s d v) 0 24)
    let immv : Word := i.signExtend 64
    exec (.add d a b) s = put 1 (x + y) ∧ exec (.sub d a b) s = put 1 (x - y) ∧
    exec (.and d a b) s = put 1 (x &&& y) ∧ exec (.or d a b) s = put 1 (x ||| y) ∧
    exec (.xor d a b) s = put 1 (x ^^^ y) ∧ exec (.andn d a b) s = put 1 (x &&& ~~~y) ∧
    exec (.shl d a b) s = put 1 (x <<< (y.toNat % 64)) ∧ exec (.shr d a b) s = put 1 (x >>> (y.toNat % 64)) ∧
    exec (.sar d a b) s = put 1 (x.sshiftRight (y.toNat % 64)) ∧
    exec (.rol d a b) s = put 1 (x <<< (y.toNat % 64) ||| x >>> (64 - y.toNat % 64)) ∧
    exec (.min d a b) s = put 1 (if x.toInt ≤ y.toInt then x else y) ∧
    exec (.max d a b) s = put 1 (if x.toInt ≤ y.toInt then y else x) ∧
    exec (.minn d a b) s = put 1 (if x.toNat ≤ y.toNat then x else y) ∧
    exec (.maxn d a b) s = put 1 (if x.toNat ≤ y.toNat then y else x) ∧
    exec (.mul d a b) s = put 3 (.ofNat 64 (x.toNat * y.toNat)) ∧
    exec (.mulh d a b) s = put 3 (.ofInt 64 (x.toInt * y.toInt / 2 ^ 64)) ∧
    exec (.mulhn d a b) s = put 3 (.ofNat 64 (x.toNat * y.toNat / 2 ^ 64)) ∧
    exec (.addsh d a b sh) s = put 1 (x + y <<< sh.toNat) ∧
    exec (.sel d a b c) s = put 1 (if s.core.s c = 0 then y else x) ∧
    exec (.cmpeq d a b) s = put 1 (if x = y then 1 else 0) ∧ exec (.cmpne d a b) s = put 1 (if x = y then 0 else 1) ∧
    exec (.cmplt d a b) s = put 1 (if x.toInt < y.toInt then 1 else 0) ∧
    exec (.cmple d a b) s = put 1 (if x.toInt ≤ y.toInt then 1 else 0) ∧
    exec (.cmpltn d a b) s = put 1 (if x.toNat < y.toNat then 1 else 0) ∧
    exec (.cmplen d a b) s = put 1 (if x.toNat ≤ y.toNat then 1 else 0) ∧
    exec (.addi d a i) s = put 1 (x + immv) ∧ exec (.andi d a i) s = put 1 (x &&& immv) ∧
    exec (.ori d a i) s = put 1 (x ||| immv) ∧ exec (.xori d a i) s = put 1 (x ^^^ immv) ∧
    exec (.shli d a n) s = put 1 (x <<< n.toNat) ∧ exec (.shri d a n) s = put 1 (x >>> n.toNat) ∧
    exec (.sari d a n) s = put 1 (x.sshiftRight n.toNat) ∧
    exec (.cmpeqi d a i) s = put 1 (if x = immv then 1 else 0) ∧
    exec (.cmplti d a i) s = put 1 (if x.toInt < immv.toInt then 1 else 0) ∧
    exec (.movw d w) s = put 1 (w.signExtend 64) ∧
    ∃ v : Word, exec (.movk d pos k) s = put 1 v ∧
      ∀ j, j < 64 → v.getLsbD j =
        if 16 * pos.toNat ≤ j ∧ j < 16 * pos.toNat + 16 then k.getLsbD (j - 16 * pos.toNat) else sbit s d j

/-- For every state and all registers the four division forms complete 18 ticks later. A zero divisor gives all ones (DIV,
DIVN) or the dividend (REM, REMN) and raises IDZ. DIV and REM of -2^63 by -1 give -2^63 and 0 and raise IOV. Otherwise there
are a quotient q and a remainder r with a = q * b + r, the magnitude of r below that of b, r zero or of the sign of a; DIV
and DIVN write q, REM and REMN write r, and no flag is raised. (states R152) -/
def Obligations.ScalarDivision : Prop :=
  ∀ (s : State) (d a b : SReg),
    let x := s.core.s a
    let y := s.core.s b
    let put (v : Word) (fl : Flags) : Out := .next (posted s 18 (.s d v) fl 24)
    let idz : Flags := 32
    let iov : Flags := 64
    (y = 0 → exec (.div d a b) s = put (BitVec.allOnes 64) idz ∧ exec (.divn d a b) s = put (BitVec.allOnes 64) idz ∧
      exec (.rem d a b) s = put x idz ∧ exec (.remn d a b) s = put x idz) ∧
    (x.toInt = -2 ^ 63 → y.toInt = -1 →
      exec (.div d a b) s = put x iov ∧ exec (.rem d a b) s = put 0 iov) ∧
    (y ≠ 0 → ¬(x.toInt = -2 ^ 63 ∧ y.toInt = -1) → ∃ q r : Word,
      exec (.div d a b) s = put q 0 ∧ exec (.rem d a b) s = put r 0 ∧
      x.toInt = q.toInt * y.toInt + r.toInt ∧ r.toInt.natAbs < y.toInt.natAbs ∧
      (r.toInt = 0 ∨ (r.toInt < 0 ↔ x.toInt < 0))) ∧
    (y ≠ 0 → ∃ q r : Word,
      exec (.divn d a b) s = put q 0 ∧ exec (.remn d a b) s = put r 0 ∧
      x.toNat = q.toNat * y.toNat + r.toNat ∧ r.toNat < y.toNat)

/-- For every state and all registers these operations complete with a pending write of s(d) due on the next tick and no
flag. CLZ and CTZ count the zeros above and below the ends of s(a), 64 for zero; POPC counts its ones; BREV moves bit i to
63 - i; BSWAP moves byte i to byte 7 - i. EXTB takes w bits of s(a) from bit lo, with lo = bits [5:0] and w = min(bits
[14:8], 64) of s(b), bits above 63 reading zero, and extends them by zeros or by their top bit. INSB replaces bits lo to lo
+ w - 1 of s(d) by the low bits of s(a). (states R153) -/
def Obligations.ScalarBitOperations : Prop :=
  ∀ (s : State) (d a b : SReg) (sx : Bool),
    let x := s.core.s a
    let y := (s.core.s b).toNat
    let lo := y % 64
    let w := min (y / 256 % 128) 64
    let put (v : Word) : Out := .next (posted s 1 (.s d v) 0 24)
    (∃ n, n ≤ 64 ∧ exec (.clz d a) s = put (.ofNat 64 n) ∧
      (∀ i, 64 - n ≤ i → x.getLsbD i = false) ∧ (n < 64 → x.getLsbD (63 - n) = true)) ∧
    (∃ n, n ≤ 64 ∧ exec (.ctz d a) s = put (.ofNat 64 n) ∧
      (∀ i, i < n → x.getLsbD i = false) ∧ (n < 64 → x.getLsbD n = true)) ∧
    exec (.popc d a) s = put (.ofNat 64 ((List.range 64).filter fun i => x.getLsbD i).length) ∧
    (∃ v, exec (.brev d a) s = put v ∧ ∀ i, i < 64 → v.getLsbD i = x.getLsbD (63 - i)) ∧
    (∃ v, exec (.bswap d a) s = put v ∧
      ∀ i, i < 8 → v.extractLsb' (8 * i) 8 = x.extractLsb' (8 * (7 - i)) 8) ∧
    (∃ v, exec (.extb d a b sx) s = put v ∧ ∀ i, i < 64 → v.getLsbD i =
      if i < w then x.getLsbD (lo + i) else sx && decide (0 < w) && x.getLsbD (lo + w - 1)) ∧
    (∃ v, exec (.insb d a b) s = put v ∧ ∀ i, i < 64 → v.getLsbD i =
      if lo ≤ i ∧ i < lo + w then x.getLsbD (i - lo) else sbit s d i)

/-- For every state, width and registers these operations complete with one pending write of s(d), due 4 ticks later, and
its flags; nothing else changes. FADD, FSUB, FMUL and FFMA convert the exact sum, difference, product, or product and sum of
the operands once, in the rounding and saturation of the bundle; FMIN, FMAX and FCVT give what the number operations of
chapter 07 give; the register bits above the result are zero, and an I32 result of FCVT is sign-extended. The numbers
themselves are constrained by ScalarFloatComparison and FormatsHoldTheirValues. (rests on 06 R156, 06 R158, 07 R196) -/
def Obligations.ScalarFloatArithmetic : Prop :=
  ∀ (s : State) (w : Width) (dst src : CvtFmt) (d a b : SReg),
    let f := widthFmt w
    let x := decodeVal f (fpOperand w (s.core.s a))
    let y := decodeVal f (fpOperand w (s.core.s b))
    let z := decodeVal f (fpOperand w (s.core.s d))
    let m := s.core.ictx.rnd
    let sm := s.core.ictx.sm
    let put (r : Nat × Flags) : Out := .next (posted s 4 (.s d (.ofNat 64 r.1)) r.2 24)
    let rounded (v : Val × Flags) : Nat × Flags := ((convert f m sm v.1).1, v.2 ||| (convert f m sm v.1).2)
    exec (.fadd w d a b) s = put (rounded (addVal m x y)) ∧
    exec (.fsub w d a b) s = put (rounded (addVal m x y.neg)) ∧
    exec (.fmul w d a b) s = put (rounded (mulVal x y)) ∧
    exec (.ffma w d a b) s = put (rounded (fmaVal m x y z)) ∧
    exec (.fmin w d a b) s = put (minMaxBits false f (fpOperand w (s.core.s a)) (fpOperand w (s.core.s b))) ∧
    exec (.fmax w d a b) s = put (minMaxBits true f (fpOperand w (s.core.s a)) (fpOperand w (s.core.s b))) ∧
    (dst ≠ .i32 → exec (.fcvt dst src d a) s = put (cvtNum (cvtFmtNum dst) (cvtFmtNum src) m sm (s.core.s a).toNat)) ∧
    (∀ r : Nat × Flags, r = cvtNum (cvtFmtNum .i32) (cvtFmtNum src) m sm (s.core.s a).toNat →
      exec (.fcvt .i32 src d a) s = .next (posted s 4 (.s d ((BitVec.ofNat 32 r.1).signExtend 64)) r.2 24))

/-- For every state, width and registers FCMP completes in 4 ticks with 1 or 0. If an operand is a NaN, only NE and UN hold;
LT, LE, GT and GE then raise NV, and the other relations raise NV only for a signalling NaN. Otherwise the relation is that
of the sign-magnitude order of the operands, both zeros equal, UN is false and no flag is raised. FCLASS completes in 4
ticks with the one-hot class of Table R159, read from the sign, exponent and fraction fields, and raises no flag. (states
R157, R159) -/
def Obligations.ScalarFloatComparison : Prop :=
  ∀ (s : State) (w : Width) (cc : Rel) (d a b : SReg),
    let x := fpOperand w (s.core.s a)
    let y := fpOperand w (s.core.s b)
    let put (v : Bool) (fl : Flags) : Out := .next (posted s 4 (.s d (if v then 1 else 0)) fl 24)
    let nv : Flags := 16
    (fpIsNan w x || fpIsNan w y →
      exec (.fcmp w cc d a b) s = put (cc == .ne || cc == .un)
        (if cc == .lt || cc == .le || cc == .gt || cc == .ge || fpIsSnan w x || fpIsSnan w y then nv else 0)) ∧
    (fpIsNan w x = false → fpIsNan w y = false →
      exec (.fcmp w cc d a b) s = put (relHolds cc (fpKey w x) (fpKey w y)) 0) ∧
    exec (.fclass w d a) s = .next (posted s 4 (.s d (.ofNat 64 (2 ^ fpClass w x))) 0 24)

/-- For every state and operands these operations complete: PTOS writes one 64-bit part of a predicate (all ones for p0),
MPSET and MPGET move between s and mp, CNTSET and CNTRD between s and k, CNTADD posts an addition that is made on its due
tick, LIX writes the index of the n-th loop entry from the innermost or 0, all due on the next tick; FRAMEQ writes the frame
counter as it stands at issue, due in 2 ticks. Nothing else changes. When they fall due, mp takes its value, k its value or
its sum modulo 2^32, and no other register changes. That the horizon of a move lies 16 ticks behind is a reading (log 30).
(rests on 06 R160, 06 R161, 06 R162, 06 R163, 06 R165, 13 R384) -/
def Obligations.ScalarMoves : Prop :=
  ∀ (s : State) (d a : SReg) (p : PReg) (c : BitVec 2) (m : MpReg) (k : Reg16) (n : BitVec 13),
    exec (.ptos d p c) s = .next (posted s 1 (.s d
      (if p = 0 then BitVec.allOnes 64 else (s.core.preg.get p.toFin).extractLsb' (64 * c.toNat) 64)) 0 16) ∧
    exec (.mpset m a) s = .next (posted s 1 (.mp m (s.core.s a)) 0 16) ∧
    exec (.mpget d m) s = .next (posted s 1 (.s d (s.core.mpreg.get m.toFin)) 0 16) ∧
    exec (.cntset k a) s = .next (posted s 1 (.kSet k ((s.core.s a).setWidth 32)) 0 16) ∧
    exec (.cntadd k a) s = .next (posted s 1 (.kAdd k ((s.core.s a).setWidth 32)) 0 16) ∧
    exec (.cntrd d k) s = .next (posted s 1 (.s d ((s.core.kreg.get k.toFin).setWidth 64)) 0 16) ∧
    (∀ e, s.core.loops[n.toNat]? = some e → exec (.lix d n) s = .next (posted s 1 (.s d (e.index.setWidth 64)) 0 16)) ∧
    (s.core.loops.length ≤ n.toNat → exec (.lix d n) s = .next (posted s 1 (.s d 0) 0 16)) ∧
    exec (.frameq d) s = .next (posted s 2 (.s d (s.frame.setWidth 64)) 0 16) ∧
    ∀ (x : BitVec 32) (y : Word),
      (∃ v, s.core.apply (.mp m y) = { s.core with mpreg := v } ∧ v.get m.toFin = y ∧
        ∀ q, q ≠ m → v.get q.toFin = s.core.mpreg.get q.toFin) ∧
      (∃ v w, s.core.apply (.kSet k x) = { s.core with kreg := v, kver := w } ∧ v.get k.toFin = x ∧
        ∀ q, q ≠ k → v.get q.toFin = s.core.kreg.get q.toFin) ∧
      ∃ v w, s.core.apply (.kAdd k x) = { s.core with kreg := v, kver := w } ∧
        (v.get k.toFin).toNat = ((s.core.kreg.get k.toFin).toNat + x.toNat) % 2 ^ 32 ∧
        ∀ q, q ≠ k → v.get q.toFin = s.core.kreg.get q.toFin

/-- For every state and registers VDQRY completes with a pending write due in 2 ticks: 255 if either value exceeds 3 or
names an invalid entry of the map of the strand's context, else 0 for one die, 1 for twins and for the compute and memory
die of one side, and 2 for the diagonal pairs. (states R164) -/
def Obligations.VirtualDieDistance : Prop :=
  ∀ (s : State) (st : Strand) (d a b : SReg), s.core.strand = some st →
    let x := vdieOf s st.ctx (s.core.s a).toNat
    let y := vdieOf s st.ctx (s.core.s b).toNat
    let put (v : Word) : Out := .next (posted s 2 (.s d v) 0 16)
    ((x = none ∨ y = none) → exec (.vdqry d a b) s = put 255) ∧
    ((4 ≤ (s.core.s a).toNat ∨ 4 ≤ (s.core.s b).toNat) → exec (.vdqry d a b) s = put 255) ∧
    (∀ i j, x = some i → y = some j →
      exec (.vdqry d a b) s = put (if i = j then 0
        else if (i = .cd0 ∧ j = .md1) ∨ (i = .md1 ∧ j = .cd0) ∨ (i = .cd1 ∧ j = .md0) ∨ (i = .md0 ∧ j = .cd1) then 2
        else 1))

/-- CSRRD of an assigned number completes with a pending write of its present value, due in 2 ticks; of an unassigned number
it takes ILLEGAL_CSR at issue with the number as detail. CSRWR of FLAGS, MODE, RXFLAGS, ERRINJ, TVEC or TSCR0 to TSCR3
completes with a pending write due on the next tick; of any other number it takes ILLEGAL_CSR. The readable and the writable
numbers are listed in the statement. (rests on 06 R144, 06 R145, 13 R372) -/
def Obligations.CsrAccess : Prop :=
  ∀ (s : State) (d a : SReg) (n : BitVec 13),
    let readable := [0x000, 0x001, 0x002, 0x003, 0x010, 0x011, 0x012, 0x020, 0x021, 0x030, 0x040, 0x050, 0x051, 0x052,
      0x053, 0x054, 0x056, 0x058, 0x059, 0x05A, 0x05B]
    let writable := [0x000, 0x001, 0x030, 0x040, 0x050, 0x058, 0x059, 0x05A, 0x05B]
    (n.toNat ∈ readable → ∃ x, s.core.csr n.toNat = some x ∧ exec (.csrrd d n) s = .next (posted s 2 (.s d x) 0 16)) ∧
    (n.toNat ∉ readable → exec (.csrrd d n) s = .next (s.issueTrap .illegalCsr n.toNat 0)) ∧
    (n.toNat ∈ writable → exec (.csrwr n a) s = .next (posted s 1 (.csr n.toNat (s.core.s a)) 0 16)) ∧
    (n.toNat ∉ writable → exec (.csrwr n a) s = .next (s.issueTrap .illegalCsr n.toNat 0))

/-- Written with x: FLAGS takes bits 0 to 6 and 8 to 14 of x and its other bits read 0; the CONTRACT field of MODE takes the
low two bits unless they are the reserved value 3, and its other fields stay; RXFLAGS loses the bits that x has set; TVEC
takes an even address below 2^32; TSCR0 takes x. An armed ERRINJ value with a target of 0 or above 6 is ignored. Each write
leaves every other register of the core as it was. (rests on 06 R145, 06 R146, 02 R58, 13 R372, 13 R389) -/
def Obligations.CsrWriteEffects : Prop :=
  ∀ (c : Core) (x : Word),
    (∃ f, c.apply (.csr 0 x) = { c with flags := f } ∧
      ∀ i, f.getLsbD i = (x.getLsbD i && decide (i < 15 ∧ i ≠ 7))) ∧
    (∃ m, c.apply (.csr 1 x) = { c with mode := m } ∧
      (∀ i, 2 ≤ i → m.getLsbD i = c.mode.getLsbD i) ∧
      m.toNat % 4 = if x.toNat % 4 = 3 then c.mode.toNat % 4 else x.toNat % 4) ∧
    (∃ r, c.apply (.csr 0x30 x) = { c with rx := r } ∧ ∀ i, i < 8 → r.getLsbD i = (c.rx.getLsbD i && !x.getLsbD i)) ∧
    (∃ v, c.apply (.csr 0x50 x) = { c with tvec := v } ∧ v.toNat = x.toNat % 2 ^ 32 - x.toNat % 2) ∧
    c.apply (.csr 0x58 x) = { c with tscr := c.tscr.set 0 x } ∧
    (x.getLsbD 63 = true → (x.toNat / 2 ^ 56 % 16 = 0 ∨ 6 < x.toNat / 2 ^ 56 % 16) → c.apply (.csr 0x40 x) = c)

/-- At a tick of the focus core: with one pending write of s(d) due, settling writes s(d) (nothing for s0), leaves every
other scalar register, and ORs its flags into FLAGS; with one write that is not yet due, no scalar register changes and the
write stays pending; with two writes of one register of which only the first is due, the register takes the first and the
second stays pending, so that the one with the latest due tick wins; of two writes of one register due on one tick, that of
the later-issued bundle remains. Memory never changes by such a write. (states R117) -/
def Obligations.PendingWritesFallDue : Prop :=
  ∀ (s : State) (d r : SReg) (x y : Word) (fl : Flags) (t n m : Nat), s.core.arb = [] →
    let one : Pend := { due := t, no := n, wr := .s d x, fl := fl, walk := none }
    (s.core.pend = [one] → t ≤ s.core.tick →
      s.settle.1.core.s r = (if r = d ∧ d ≠ 0 then x else s.core.s r) ∧
      s.settle.1.core.flags = s.core.flags ||| fl.setWidth 64 ∧ s.settle.1.core.pend = [] ∧
      s.settle.1.mem = s.mem) ∧
    (s.core.pend = [one] → s.core.tick < t →
      s.settle.1.core.s r = s.core.s r ∧ s.settle.1.core.flags = s.core.flags ∧ s.settle.1.core.pend = [one]) ∧
    (s.core.pend = [one, { due := t, no := m, wr := .s d y, fl := 0, walk := none }] → t ≤ s.core.tick → n ≤ m → d ≠ 0 →
      s.settle.1.core.s d = y) ∧
    ∀ later : Pend, later = { due := m, no := n + 1, wr := .s d y, fl := 0, walk := none } →
      s.core.pend = [one, later] → t ≤ s.core.tick → s.core.tick < m →
      s.settle.1.core.s r = (if r = d ∧ d ≠ 0 then x else s.core.s r) ∧ s.settle.1.core.pend = [later]

/-- NOP changes nothing. BR, JMP, RET, BRZ and BRNZ taken, CALL and CALLR go on at their target, A + 2 * sext(off20), s(a) +
2 * sext(imm14) or s63, with two ticks without issue between; CALL and CALLR also link s63 to the address of the following
bundle, due on the next tick. A BRZ or BRNZ that is not taken changes nothing. A taken transfer to an odd address takes
FETCH_RANGE with detail 0x1F0 at issue. (rests on 06 R142, 06 R167, 06 R172) -/
def Obligations.ControlTransfers : Prop :=
  ∀ (s : State) (a : SReg) (off : BitVec 20) (imm : BitVec 14),
    let dest := ((s.core.pc + 2 * off.toInt) % 2 ^ 64).toNat
    let far := (s.core.s a + 2 * imm.signExtend 64).toNat
    let back := (s.core.s 63).toNat
    let linked := posted s 1 (.link (.ofNat 64 s.core.ictx.npc)) 0 16
    let odd : Out := .next (s.issueTrap .fetchRange 0x1F0 0)
    exec .nop s = .next s ∧
    (dest % 2 = 0 → exec (.br off) s = .next (gone s dest) ∧ exec (.call off) s = .next (gone linked dest) ∧
      (s.core.s a = 0 → exec (.brz a off) s = .next (gone s dest)) ∧
      (s.core.s a ≠ 0 → exec (.brnz a off) s = .next (gone s dest))) ∧
    (dest % 2 = 1 → exec (.br off) s = odd ∧ exec (.call off) s = odd ∧
      (s.core.s a = 0 → exec (.brz a off) s = odd) ∧ (s.core.s a ≠ 0 → exec (.brnz a off) s = odd)) ∧
    (s.core.s a ≠ 0 → exec (.brz a off) s = .next s) ∧ (s.core.s a = 0 → exec (.brnz a off) s = .next s) ∧
    (far % 2 = 0 → exec (.jmp a imm) s = .next (gone s far) ∧ exec (.callr a imm) s = .next (gone linked far)) ∧
    (far % 2 = 1 → exec (.jmp a imm) s = odd ∧ exec (.callr a imm) s = odd) ∧
    (back % 2 = 0 → exec .ret s = .next (gone s back)) ∧ (back % 2 = 1 → exec .ret s = odd)

/-- LOOP and LOOPI with a count of 1 to 2^32 - 1 and fewer than 6 live loops push an entry of index 0, that limit, the
following bundle as its start and A + 2 * last as its end; a count of 0 goes on after the end bundle, where a page-table
entry that the walk to the end bundle rejects leaves its record, and so it does where the header of the end bundle cannot be
read, a reading of the model (log 13); a count of 2^32 or more takes LOOP_COUNT and a seventh loop LOOP_OVERFLOW. LBREAK
pops the innermost entry and goes on after its end bundle when its condition holds, does nothing when it does not, and takes
LOOP_EMPTY with no live loop; where it goes on if its end bundle cannot be read is log 13 too. DISARM removes the latches of
the slots of its mask. (rests on 06 R169, 06 R171, 05 R129, 06 R172, 09 R243) -/
def Obligations.Loops : Prop :=
  ∀ (s : State) (a : SReg) (last : BitVec 20) (cnt : BitVec 12) (end14 : BitVec 14) (z : Bool) (mask : BitVec 8),
    let n := (s.core.s a).toNat
    let e := s.core.pc + 2 * last.toNat
    let e' := s.core.pc + 2 * end14.toNat
    let pushed (k e : Nat) : State := { s with core := { s.core with
      loops := { index := 0, limit := .ofNat 32 k, start := s.core.ictx.npc, last := e } :: s.core.loops } }
    (0 < n → n < 2 ^ 32 → s.core.loops.length < 6 → exec (.loop a last) s = .next (pushed n e)) ∧
    (0 < cnt.toNat → s.core.loops.length < 6 → exec (.loopi cnt end14) s = .next (pushed cnt.toNat e')) ∧
    (n = 0 → exec (.loop a last) s = .next (gone (s.endRec e) (s.afterBundle e))) ∧
    (cnt = 0 → exec (.loopi cnt end14) s = .next (gone (s.endRec e') (s.afterBundle e'))) ∧
    (2 ^ 32 ≤ n → exec (.loop a last) s = .next (s.issueTrap .loopCount 0 0)) ∧
    (0 < n → n < 2 ^ 32 → 6 ≤ s.core.loops.length → exec (.loop a last) s = .next (s.issueTrap .loopOverflow 0 0)) ∧
    (0 < cnt.toNat → 6 ≤ s.core.loops.length → exec (.loopi cnt end14) s = .next (s.issueTrap .loopOverflow 0 0)) ∧
    (s.core.loops = [] → exec (.lbreak a z) s = .next (s.issueTrap .loopEmpty 0 0)) ∧
    (∀ l r, s.core.loops = l :: r → (s.core.s a == 0) = z → exec (.lbreak a z) s =
      .next { gone (s.endRec l.last) (s.afterBundle l.last) with
        core := { (gone (s.endRec l.last) (s.afterBundle l.last)).core with loops := r } }) ∧
    (∀ l r, s.core.loops = l :: r → (s.core.s a == 0) = !z → exec (.lbreak a z) s = .next s) ∧
    exec (.disarm mask) s = .next { s with core := { s.core with
      latch := s.core.latch.filter fun x => !(disarmSlots mask).contains x.1 } }

/-- WAITLT waits for k below s(b) + imm14, WAITTK for the tokens of its field and mask, FLAGWT for its flags, WFE for an
event. Outside a handler COMMIT, BAR, SSTEP, EXIT and DRAIN begin the commit of the open region: the ticks left to its
detector horizon pass first, every slot is disarmed. YIELD continues when no stop is asked or the region has issued
something, and stops the strand where a stop is asked at a commit and the pool has slots, once its pending writes have
fallen due; that the first stop of a gang takes the slots of all its strands is a reading of the model (log 14). In a
handler all six take HANDLER_FAULT. (rests on 06 R173, 06 R174, 06 R175, 06 R176, 06 R177, 06 R178, 06 R179, 06 R180, 09
R266, 13 R376, 13 R384, 13 R390) -/
def Obligations.WaitsAndCommits : Prop :=
  ∀ (s : State) (k : Reg16) (b : SReg) (imm : BitVec 14) (tk : BitVec 6) (mask : BitVec 8),
    exec (.waitlt k b imm) s = .next (waiting s (.lt k ((s.core.s b).setWidth 32 + imm.setWidth 32))) ∧
    exec (.waittk tk mask) s = .next (waiting s (.tokens
      (tk :: ((List.range 8).filter fun i => mask.getLsbD i).map fun i => tk + 1 + .ofNat 6 i))) ∧
    exec (.flagwt mask) s = .next (waiting s (.flags mask)) ∧ exec .wfe s = .next (waiting s (.wfe false)) ∧
    (s.core.snap = none →
      exec .commit s = .next (committing s .next) ∧ exec .bar s = .next (committing s (.barrier false)) ∧
      (∀ st, s.core.strand = some st → exec .sstep s = .next (committing s (.barrier st.superstep))) ∧
      exec .exit s = .next (committing s .exit) ∧ exec .drain s = .next (committing s .drain) ∧
      (s.core.stop = false ∨ s.core.atCommit = false ∨ s.reserveSlots = none → exec .yield s = .next s) ∧
      (∀ t, s.core.stop = true → s.core.atCommit = true → s.reserveSlots = some t →
        (s.core.pend = [] → exec .yield s = .next { t with core := { t.core with stopping := some 1 } }) ∧
        (s.core.pend ≠ [] → exec .yield s = .next { t with core := { t.core with
          dead := t.core.dead + t.core.pendEnd, wait := some .yield } }))) ∧
    (s.core.snap.isSome → ∀ i, i ∈ [Instr.commit, .bar, .sstep, .exit, .drain, .yield] →
      exec i s = .next (s.issueTrap .handlerFault 0 0))

/-- TRAP takes trap SOFT with its code as detail and s(a) as value, EBREAK trap BREAK, each with the next bundle as its
resume point: with a handler set and no handler running both enter it. ERET in a handler passes two ticks without issue and
then returns; outside a handler it takes BAD_ERET. HINVALL posts the clearing of the VALID bit of h0 to h15, due on the next
tick. (rests on 06 R183, 06 R184, 13 R371, 13 R375, 13 R377) -/
def Obligations.TrapOperations : Prop :=
  ∀ (s : State) (a : SReg) (code : BitVec 14),
    exec (.trap a code) s = .next (s.takeTrap ⟨.soft, code.setWidth 64, s.core.s a⟩ false s.core.ictx.npc 0 s.core.tick) ∧
    exec .ebreak s = .next (s.takeTrap ⟨.brk, 0, 0⟩ false s.core.ictx.npc 0 s.core.tick) ∧
    (s.core.tvec ≠ 0 → s.core.snap = none → ∃ t u, exec (.trap a code) s = .next t ∧ exec .ebreak s = .next u ∧
      t.core.snap.isSome ∧ t.core.tval = s.core.s a ∧ t.core.tdetail = code.setWidth 64 ∧ t.core.pc = s.core.tvec.toNat ∧
      u.core.snap.isSome ∧ u.core.pc = s.core.tvec.toNat) ∧
    (s.core.snap.isSome → exec .eret s = .next { s with core := { s.core with
      dead := s.core.dead + 2, wait := some .eret, ictx := { s.core.ictx with moved := true } } }) ∧
    (s.core.snap = none → exec .eret s = .next (s.issueTrap .badEret 0 0)) ∧
    exec .hinvall s = .next (posted s 1 .hInvAll 0 16)

/-- For a trap r taken with resume point pc and bundle issue n at strand tick t, outside a handler: if r resumes and TVEC is
set, the core goes on at TVEC on tick t + 4 with TCAUSE (cause code, asynchronous bit, the queued traps, the issue),
TDETAIL, TVAL and TEPC written, the pending writes, landings, latches, group and loops in the snapshot and none pending, and
memory, tasks and every other core as before. If r does not resume, or TVEC is 0, the strand's task has status 8 with the
trap's code as its detail, unless it had a status. A synchronous trap in a handler is HANDLER_FAULT. (rests on 13 R371, 13
R373, 13 R375, 13 R376, 13 R378) -/
def Obligations.TakingATrap : Prop :=
  ∀ (s : State) (r : TrapReq) (async : Bool) (pc n t : Nat), n < 16 →
    s.core.pend.all (fun p => !p.isCt) = true →
    (s.core.snap = none → trapResumes r.name = true → s.core.tvec ≠ 0 →
      let u := s.takeTrap r async pc n t
      u.core.pc = s.core.tvec.toNat ∧ u.core.tick = t + 4 ∧ u.core.issue = 0 ∧
      bitsAt u.core.tcause.toNat 0 8 = trapCode r.name ∧ bitsAt u.core.tcause.toNat 8 4 = min s.core.trapq.length 15 ∧
      u.core.tcause.getLsbD 35 = async ∧ bitsAt u.core.tcause.toNat 36 4 = n ∧
      u.core.tdetail = r.detail ∧ u.core.tval = r.val ∧ u.core.tepc.toNat = pc % 2 ^ 32 ∧
      (∃ z, u.core.snap = some z ∧ z.tick = t ∧ z.pend = s.core.pend ∧ z.arb = s.core.arb ∧ z.latch = s.core.latch ∧
        z.grp = s.core.grp ∧ z.loops = s.core.loops) ∧
      u.core.pend = [] ∧ u.core.arb = [] ∧ u.core.latch = [] ∧ u.core.sreg = s.core.sreg ∧ u.core.vreg = s.core.vreg ∧
      u.core.preg = s.core.preg ∧ u.core.hreg = s.core.hreg ∧ u.core.kreg = s.core.kreg ∧ u.core.flags = s.core.flags ∧
      u.core.mode = s.core.mode ∧ { u with core := s.core } = s) ∧
    (∀ st k, s.core.strand = some st → s.findTask st.task = some k → k.status = 0 → s.core.snap = none →
      (trapResumes r.name = false ∨ s.core.tvec = 0) →
      ∃ k', (s.takeTrap r async pc n t).findTask st.task = some k' ∧ k'.status = 8 ∧ k'.detail = trapCode r.name ∧
        k'.statusGang = st.gang ∧ ∀ g ∈ k'.gangs, g.state = .done) ∧
    (∀ st k, s.core.strand = some st → s.findTask st.task = some k → k.status = 0 → s.core.snap.isSome → async = false →
      ∃ k', (s.takeTrap r async pc n t).findTask st.task = some k' ∧ k'.status = 8 ∧ k'.detail = 0x22)

/-- A core that stands at the end of the wait of ERET, its ticks without issue passed, goes on at the address and issue that
TEPC and TCAUSE hold, on the strand tick after the one that the snapshot names, with the latches, group, loops and wait of
the snapshot; the snapshot is gone; the saved pending writes stand before those that the handler left; scalar, vector,
predicate, handle registers, counters, flags and memory are those of the handler's end. (rests on 13 R377, 13 R378) -/
def Obligations.ReturnFromTrap : Prop :=
  ∀ (s : State) (st : Strand) (n : Snap), s.core.strand = some st → s.core.snap = some n → s.core.wait = some .eret →
    s.core.dead = 0 → s.core.ended = false → s.core.stopping = none → s.core.frozen = false →
    ∃ t, exec (.bundleIssue s.core.id) s = .next t ∧
      t.core.pc = s.core.tepc.toNat % 2 ^ 32 ∧ t.core.issue = s.core.tcause.toNat / 2 ^ 36 % 16 ∧ t.core.tick = n.tick + 1 ∧
      t.core.snap = none ∧ t.core.latch = n.latch ∧ t.core.grp = n.grp ∧ t.core.loops = n.loops ∧ t.core.wait = n.wait ∧
      n.pend <+: t.core.pend ∧ n.arb <+: t.core.arb ∧ t.core.sreg = s.core.sreg ∧ t.core.vreg = s.core.vreg ∧
      t.core.preg = s.core.preg ∧ t.core.hreg = s.core.hreg ∧ t.core.kreg = s.core.kreg ∧ t.core.flags = s.core.flags ∧
      { t with core := s.core } = s

/-- SIGNAL at an offset that is a multiple of 8, and LAUNCH at one that is a multiple of 64 with a valid virtual die,
complete through an initialised handle: with the page present and the leaf right (A for SIGNAL, R for LAUNCH) they become
held accesses charged one unit; with the page absent they retire into the Trellis log. A LAUNCH whose virtual die is invalid
takes BAD_VDIE at issue, before any other look at its page: the order of the model (log 113). (rests on 06 R181, 06 R182, 09
R254, 13 R382) -/
def Obligations.SignalsAndLaunches : Prop :=
  ∀ (h : Reg16) (b : SReg) (dec : BitVec 14) (q : BitVec 6) (vd : BitVec 2),
    let off (s : State) : Nat := (s.core.s b).toNat
    Posts (.signal h b dec) h .a (.dec dec.toNat)
      (fun s => [{ off := off s, len := 8, pos := 0, data := dec.toNat, cmp := 0 }]) (fun s => off s % 8 == 0) false (fun _ => 1) ∧
    (∀ s : State, (∃ st, s.core.strand = some st ∧ (vdieOf s st.ctx vd.toNat).isSome) →
      PostsAt s (.launch h b q vd) h .r (.launch q.toNat vd.toNat)
        [{ off := off s, len := 64, pos := 0, data := 0, cmp := 0 }] (off s % 64 == 0) false 1) ∧
    (∀ (s : State) (st : Strand), s.core.strand = some st → vdieOf s st.ctx vd.toNat = none → hInit (s.core.h h) = true →
      off s % 64 = 0 → off s + 64 ≤ 2 ^ 15 → exec (.launch h b q vd) s = .next (s.issueTrap .badVdie vd.toNat 0))

/-- For every state, integer element type, registers and predicate, VADD, VSUB, VMUL, VFMA, VFMS, VFNMA, VMIN, VMAX, VABS,
VNEG, VSHL, VSHR, VSAR, VMULH, VAVG, VCLZ and VPOPC, and on every type VAND, VOR, VXOR and VANDN, complete with a pending
write due in 2 ticks of the active elements, each the integer result by the signedness of the type taken modulo 2^w, and no
flag; VABS and VNEG are stated for the signed types. (states R219) -/
def Obligations.VectorIntegerArithmetic : Prop :=
  ∀ (s : State) (t : ElemType) (vd va vb vc : VRegN) (p : PReg) (r : Bool),
    let a (i : Nat) : Nat := el s t va i
    let b (i : Nat) : Nat := el s t vb i
    let c (i : Nat) : Nat := el s t vc i
    let w := t.width
    let put (f : Nat → Nat) : Out := .next (vposted s t 2 24 vd p fun i => (f i, 0))
    let int (f : Nat → Int) : Out := put fun i => modW t (f i)
    (t.isInt = true →
      exec (.vadd t vd va vb p r) s = int (fun i => sval t (a i) + sval t (b i)) ∧
      exec (.vsub t vd va vb p r) s = int (fun i => sval t (a i) - sval t (b i)) ∧
      exec (.vmul t vd va vb p r) s = int (fun i => sval t (a i) * sval t (b i)) ∧
      exec (.vfma t vd va vb vc p r) s = int (fun i => sval t (a i) * sval t (b i) + sval t (c i)) ∧
      exec (.vfms t vd va vb vc p r) s = int (fun i => sval t (a i) * sval t (b i) - sval t (c i)) ∧
      exec (.vfnma t vd va vb vc p r) s = int (fun i => sval t (c i) - sval t (a i) * sval t (b i)) ∧
      exec (.vmin t vd va vb p r) s = put (fun i => if sval t (a i) ≤ sval t (b i) then a i else b i) ∧
      exec (.vmax t vd va vb p r) s = put (fun i => if sval t (a i) ≤ sval t (b i) then b i else a i) ∧
      (t.signed = true → exec (.vabs t vd va p r) s = int (fun i => (sval t (a i)).natAbs) ∧
        exec (.vneg t vd va p r) s = int (fun i => -sval t (a i))) ∧
      exec (.vshl t vd va vb p r) s = put (fun i => a i * 2 ^ (b i % w) % 2 ^ w) ∧
      exec (.vshr t vd va vb p r) s = put (fun i => a i / 2 ^ (b i % w)) ∧
      exec (.vsar t vd va vb p r) s = put (fun i =>
        a i / 2 ^ (b i % w) + if bitAt (a i) (w - 1) then 2 ^ w - 2 ^ (w - b i % w) else 0) ∧
      exec (.vmulh t vd va vb p r) s = int (fun i => sval t (a i) * sval t (b i) / (2 ^ w : Nat)) ∧
      exec (.vavg t vd va vb p r) s = int (fun i => (sval t (a i) + sval t (b i) + 1) / 2) ∧
      exec (.vpopc t vd va p r) s = put (fun i => ((List.range w).filter fun j => bitAt (a i) j).length) ∧
      ∃ n : Nat → Nat, exec (.vclz t vd va p r) s = put n ∧
        ∀ i, n i ≤ w ∧ (∀ j, w - n i ≤ j → bitAt (a i) j = false) ∧ (n i < w → bitAt (a i) (w - 1 - n i) = true)) ∧
    exec (.vand t vd va vb p r) s = put (fun i => a i &&& b i) ∧
    exec (.vor t vd va vb p r) s = put (fun i => a i ||| b i) ∧
    exec (.vxor t vd va vb p r) s = put (fun i => a i ^^^ b i) ∧
    exec (.vandn t vd va vb p r) s = put (fun i => a i &&& (2 ^ w - 1 - b i))

/-- For every state, type of F32, F16 and BF16, registers and predicate, VADD, VSUB, VMUL, VFMA, VFMS, VFNMA and VAVG
complete with a pending write due in 4 ticks of the active elements, each the exact result converted once in the rounding
and saturation of the bundle, with the flags of the active elements; VMIN, VMAX, VABS and VNEG in 2 ticks, VABS clearing and
VNEG inverting the sign bit with no flag. (rests on 08 R218, 07 R196, 06 R156) -/
def Obligations.VectorFloatArithmetic : Prop :=
  ∀ (s : State) (t : ElemType) (vd va vb vc : VRegN) (p : PReg) (r : Bool), t.isFlt = true →
    let f := fmtOf t
    let x (i : Nat) : Val := decodeVal f (el s t va i)
    let y (i : Nat) : Val := decodeVal f (el s t vb i)
    let z (i : Nat) : Val := decodeVal f (el s t vc i)
    let m := s.core.ictx.rnd
    let rounded (v : Val × Flags) : Nat × Flags :=
      ((convert f m s.core.ictx.sm v.1).1, v.2 ||| (convert f m s.core.ictx.sm v.1).2)
    let put (g : Nat → Val × Flags) : Out := .next (vposted s t 4 24 vd p fun i => rounded (g i))
    let move (g : Nat → Nat × Flags) : Out := .next (vposted s t 2 24 vd p g)
    exec (.vadd t vd va vb p r) s = put (fun i => addVal m (x i) (y i)) ∧
    exec (.vsub t vd va vb p r) s = put (fun i => addVal m (x i) (y i).neg) ∧
    exec (.vmul t vd va vb p r) s = put (fun i => mulVal (x i) (y i)) ∧
    exec (.vfma t vd va vb vc p r) s = put (fun i => fmaVal m (x i) (y i) (z i)) ∧
    exec (.vfms t vd va vb vc p r) s = put (fun i => fmaVal m (x i) (y i) (z i).neg) ∧
    exec (.vfnma t vd va vb vc p r) s = put (fun i => fmaVal m (x i).neg (y i) (z i)) ∧
    exec (.vavg t vd va vb p r) s = put (fun i => avgV m (x i) (y i)) ∧
    exec (.vmin t vd va vb p r) s = move (fun i => minMaxBits false f (el s t va i) (el s t vb i)) ∧
    exec (.vmax t vd va vb p r) s = move (fun i => minMaxBits true f (el s t va i) (el s t vb i)) ∧
    exec (.vabs t vd va p r) s = move (fun i => (el s t va i % 2 ^ (t.width - 1), 0)) ∧
    exec (.vneg t vd va p r) s = move (fun i => ((el s t va i + 2 ^ (t.width - 1)) % 2 ^ t.width, 0))

/-- For every state, type, registers and predicate: VMOV copies, VIOTA writes the number of active elements below, both in 2
ticks; VBCAST, VPERM, VROT, VSLIDE, VZIP and VUNZIP write the named elements of their sources in 3 ticks, active elements
only; VSEL writes every element in 2 ticks, from va where active and from vb elsewhere; VEXT writes one element to a scalar
register, sign-extended on signed types, and VINS one element of vd, in 3 ticks. That the horizon of VIOTA, VSEL, VEXT and
VINS, as of the moves, lies 16 ticks behind and not 24 is the reading of 13 R384 that log 30 declares. (rests on 08 R221, 08
R222, 08 R223, 13 R384) -/
def Obligations.VectorMoves : Prop :=
  ∀ (s : State) (t : ElemType) (vd va vb : VRegN) (n d : SReg) (p : PReg) (r hi : Bool) (idx : BitVec 10),
    let a (i : Nat) : Nat := el s t va i
    let b (i : Nat) : Nat := el s t vb i
    let k := (s.core.s n).toNat
    let l := t.lanes
    let put (lat h : Nat) (f : Nat → Nat) : Out := .next (vposted s t lat h vd p fun i => (f i, 0))
    exec (.vmov t vd va p r) s = put 2 16 a ∧ exec (.viota t vd p r) s = put 2 16 (fun i => rank (s.core.p p) t i % 2 ^ t.width) ∧
    exec (.vbcast t vd n p r) s = put 3 16 (fun _ => k % 2 ^ t.width) ∧
    exec (.vperm t vd va vb p r) s = put 3 16 (fun i => a (b i % l)) ∧
    exec (.vrot t vd va n p r) s = put 3 16 (fun i => a ((i + k % l) % l)) ∧
    exec (.vslide t vd va vb n false p r) s = put 3 16 (fun i =>
      if i + min k (2 * l) < l then a (i + min k (2 * l))
      else if i + min k (2 * l) < 2 * l then b (i + min k (2 * l) - l) else 0) ∧
    exec (.vslide t vd va vb n true p r) s = put 3 16 (fun i =>
      if min k (2 * l) ≤ i then a (i - min k (2 * l))
      else if min k (2 * l) ≤ l + i then b (l + i - min k (2 * l)) else 0) ∧
    exec (.vzip t vd va vb hi p r) s = put 3 16 (fun i =>
      let g := (if hi then l / 2 else 0) + i / 2
      if i % 2 = 0 then a g else b g) ∧
    exec (.vunzip t vd va vb hi p r) s = put 3 16 (fun i =>
      let g := 2 * (i % (l / 2)) + if hi then 1 else 0
      if i < l / 2 then a g else b g) ∧
    (∃ x, exec (.vsel t vd va vb p r) s = .next (posted s 2 (.v vd x (BitVec.allOnes 2048)) 0 16) ∧
      ∀ i, i < l → laneOf x t.width i = if activeLane (s.core.p p) t.width i then a i else b i) ∧
    exec (.vext t d va idx r) s = .next (posted s 3
      (.s d (if t.isSgn then .ofInt 64 (sval t (a idx.toNat)) else .ofNat 64 (a idx.toNat))) 0 16) ∧
    (∃ x m, exec (.vins t vd n idx r) s = .next (posted s 3 (.v vd x m) 0 16) ∧
      ∀ i, i < l → idx.toNat < l →
        laneOf m t.width i = (if i = idx.toNat then 2 ^ t.width - 1 else 0) ∧
        (i = idx.toNat → laneOf x t.width i = k % 2 ^ t.width))

/-- For every core, element type and lists of element values, when the write of a vector result falls due, each active
element of the register takes its value and every element that is not active keeps its own; no other register of the core
changes. The same holds for a predicate: the written bits take their values, the others stay, and p0 is never written.
(states R215) -/
def Obligations.VectorWritesByElement : Prop :=
  ∀ (c : Core) (t : ElemType) (vd : VRegN) (p : PWord) (f : Nat → Nat) (i : Nat), i < t.lanes →
    let m := activeMask p t.width
    let x := ofLanes t.width ((List.range t.lanes).map f)
    laneOf ((c.apply (.v vd x m)).v vd) t.width i =
      (if activeLane p t.width i then f i % 2 ^ t.width else laneOf (c.v vd) t.width i) ∧
    (∀ q, q ≠ vd → (c.apply (.v vd x m)).v q = c.v q) ∧ (∃ v, c.apply (.v vd x m) = { c with vreg := v }) ∧
    (∀ (pd : PReg) (y n : PWord) (j : Nat), j < 256 → pd ≠ 0 →
      ((c.apply (.p pd y n)).p pd).getLsbD j = (if n.getLsbD j then y.getLsbD j else (c.p pd).getLsbD j)) ∧
    (∀ y n : PWord, c.apply (.p 0 y n) = c)

/-- For every state, types, registers and predicate: VREDADD, VREDMAX and VREDMIN complete in 8 ticks with the tree of R210
over the active elements in element 0 and zeros above, or with 0 (+0), the least value (-Inf) and the largest (+Inf) of the
type where no element is active; VSCAN in 8 ticks with the running sums of R211; VDOT4 on I8 and N8 with the sum of four
products and vc modulo 2^32; VPACK and VUNPACK in 3 ticks with the converted elements, but that an N4 element which E5M2
does not hold is a free value (log 97). VDOT4 on F8 types, VABSMAX, VCVT and VSCALE complete with one pending write, in 8,
8, 3 and 4 ticks. (rests on 08 R224, 08 R225, 08 R226, 08 R227, 08 R229, 08 R230, 08 R231, 08 R232, 07 R210, 07 R211) -/
def Obligations.VectorReductionsAndConversions : Prop :=
  ∀ (s : State) (t u : ElemType) (vd va vb vc : VRegN) (p : PReg) (r hi : Bool) (part : BitVec 4) (blk : Blk),
    let act (i : Nat) : Option Nat := if activeLane (s.core.p p) t.width i then some (el s t va i) else none
    let whole (lat : Nat) (x : VWord) (fl : Flags) : Out := .next (posted s lat (.v vd x (BitVec.allOnes 2048)) fl 24)
    let tree (f : Nat → Nat → Nat × Flags) (empty : Nat) : Out :=
      let q := treeSum f t.lanes.log2 ((List.range t.lanes).map act)
      whole 8 (.ofNat 2048 (q.1.getD empty % 2 ^ t.width)) q.2
    exec (.vredadd t vd va p r) s = tree (addLane t s) 0 ∧
    exec (.vredmax t vd va p r) s = tree (minMax2 t true)
      (if t.isFlt then infBits (fmtOf t) true else modW t (if t.signed then -(2 ^ (t.width - 1) : Nat) else 0)) ∧
    exec (.vredmin t vd va p r) s = tree (minMax2 t false)
      (if t.isFlt then infBits (fmtOf t) false
        else modW t (if t.signed then (2 ^ (t.width - 1) : Nat) - 1 else (2 ^ t.width : Nat) - 1)) ∧
    (∃ x fl, exec (.vscan t vd va p r) s = whole 8 x fl ∧
      x = ofLanes t.width (scanLanes (addLane t s) none ((List.range t.lanes).map act)).1) ∧
    (t = .i8 ∨ t = .n8 → exec (.vdot4 t vd va vb vc p r) s = .next (vposted s .i32 8 24 vd p fun i =>
      (modW .i32 (sval .i32 (el s .i32 vc i) + sval t (el s t va (4 * i)) * sval t (el s t vb (4 * i)) +
        sval t (el s t va (4 * i + 1)) * sval t (el s t vb (4 * i + 1)) +
        sval t (el s t va (4 * i + 2)) * sval t (el s t vb (4 * i + 2)) +
        sval t (el s t va (4 * i + 3)) * sval t (el s t vb (4 * i + 3))), 0))) ∧
    (t.isF8 = true → ∃ f, exec (.vdot4 t vd va vb vc p r) s = .next (vposted s .i32 8 24 vd p f)) ∧
    (∃ x fl, exec (.vabsmax t vd va vb p r) s = whole 8 x fl) ∧
    (∃ x m fl, exec (.vcvt t u vd va part p r) s = .next (posted s 3 (.v vd x m) fl 24)) ∧
    exec (.vpack t u vd va vb p r) s = .next (vposted s t 3 24 vd p fun i =>
      cvtNum (elemNum t) (elemNum u) s.core.ictx.rnd s.core.ictx.sm
        (if i < u.lanes then el s u va (i % u.lanes) else el s u vb (i % u.lanes))) ∧
    (let f (i : Nat) : Nat × Flags := cvtNum (elemNum t) (elemNum u) .rne .none (el s u va ((if hi then t.lanes else 0) + i));
      (¬(t = .e5m2 ∧ u = .n4) → exec (.vunpack t u vd va hi p r) s = .next (vposted s t 3 24 vd p f)) ∧
      (t = .e5m2 → u = .n4 → ∃ g, exec (.vunpack t u vd va hi p r) s =
          .next (vposted { s with free := s.free + t.lanes } t 3 24 vd p g) ∧
        ∀ i, (g i).2 = 0 ∧ ((f i).2 = 0 → g i = f i))) ∧
    (∃ x m fl, exec (.vscale t u vd va vb part blk p r) s = .next (posted s 4 (.v vd x m) fl 24))

/-- For every state and pair of types with no width of 4 bits: a narrowing VCVT with PART q writes, of the active
destination elements, those numbered q * n to q * n + n - 1 with n = 2048 / ws, element q * n + i from source element i; a
widening or equal one writes each active element i from source element q * n + i with n = 2048 / wd. Each written element is
the converted source element, and the write names no other element. (states R229) -/
def Obligations.ConversionPlaces : Prop :=
  ∀ (s : State) (t u : ElemType) (vd va : VRegN) (part : BitVec 4) (p : PReg) (r : Bool), t.isW4 = false → u.isW4 = false →
    part.toNat < widthFactor t u →
    ∃ x m fl, exec (.vcvt t u vd va part p r) s = .next (posted s 3 (.v vd x m) fl 24) ∧
      ∀ j, j < t.lanes →
        let q := part.toNat
        let n := u.lanes
        let inside : Bool := if t.width < u.width then q * n ≤ j && j < q * n + n else true
        let src := if t.width < u.width then j - q * n else q * t.lanes + j
        let named := inside && activeLane (s.core.p p) t.width j
        laneOf m t.width j = (if named then 2 ^ t.width - 1 else 0) ∧
        (named = true → laneOf x t.width j =
          (cvtNum (elemNum t) (elemNum u) s.core.ictx.rnd s.core.ictx.sm (el s u va src)).1 % 2 ^ t.width)

/-- For each floating format of the module, every pattern that is no NaN and every rounding mode, the conversion of the
number that the pattern holds, to the same format without saturation, gives the pattern back and raises no flag; and an
integer that a format of the integer types holds wraps to its own bits. (rests on 07 R196, 07 R195, 06 R158) -/
def Obligations.FormatsHoldTheirValues : Prop :=
  (∀ (f : Fmt) (m : Rnd) (x : Nat), f ∈ [fp32, fp64, fp16, bf16, e4m3, e5m2] → x < 2 ^ f.bits →
      (decodeVal f x).isNan = false → convert f m .none (decodeVal f x) = (x, 0)) ∧
    (∀ (t : ElemType) (x : Nat), t.isInt = true → x < 2 ^ t.width → (ifmtOf t).wrap ((ifmtOf t).toInt x) = x ∧
      (ifmtOf t).clamp ((ifmtOf t).toInt x) = (ifmtOf t).toInt x)

/-- For every state, registers and type: VCMP completes in 2 ticks and sets, for each active element, the bits of its bytes
to the result of the relation, and names no other bit. On an integer type the relation is that of the signed or unsigned
values and no flag is raised. On F32, F16 and BF16 it is that of FCMP: a NaN makes NE and UN true and the others false and
raises NV in LT, LE, GT and GE and wherever it is signalling, else the signed magnitudes are compared, both zeros equal; the
flags are those of the active elements together. PAND, POR, PXOR and PNOT write all 256 bits, PSET the bits of the bytes of
the elements below its count, PCOUNT and PFIRST the number of active elements and the lowest, or n(t) if there is none, all
in 1 tick. (states R220, R233) -/
def Obligations.VectorComparesAndPredicates : Prop :=
  ∀ (s : State) (t : ElemType) (cc : Rel) (pd pa pb p : PReg) (va vb : VRegN) (d : SReg) (cnt : BitVec 10) (r : Bool),
    let a := s.core.p pa
    let b := s.core.p pb
    let put (x : PWord) : Out := .next (posted s 1 (.p pd x (BitVec.allOnes 256)) 0 24)
    (∃ x m fl, exec (.vcmp t cc pd va vb p r) s = .next (posted s 2 (.p pd x m) fl 24) ∧
      ∀ j, j < 256 →
        let i := 8 * j / t.width
        m.getLsbD j = activeLane (s.core.p p) t.width i ∧
        (t.isInt = true → fl = 0 ∧ x.getLsbD j = relHolds cc (sval t (el s t va i)) (sval t (el s t vb i))) ∧
        (t.isFlt = true → x.getLsbD j = (fltCmp t cc (el s t va i) (el s t vb i)).1 ∧
          fl = orFlags ((List.range t.lanes).map fun n =>
            if activeLane (s.core.p p) t.width n then (fltCmp t cc (el s t va n) (el s t vb n)).2 else 0))) ∧
    exec (.pand pd pa pb r) s = put (a &&& b) ∧ exec (.por pd pa pb r) s = put (a ||| b) ∧
    exec (.pxor pd pa pb r) s = put (a ^^^ b) ∧ exec (.pnot pd pa r) s = put (~~~a) ∧
    (∃ x, exec (.pset t pd cnt r) s = put x ∧ ∀ j, j < 256 → x.getLsbD j = decide (8 * j / t.width < cnt.toNat)) ∧
    exec (.pcount t d pa r) s = .next (posted s 1 (.s d (.ofNat 64 (rank a t t.lanes))) 0 24) ∧
    (∃ n, exec (.pfirst t d pa r) s = .next (posted s 1 (.s d (.ofNat 64 n)) 0 24) ∧ n ≤ t.lanes ∧
      (∀ i, i < n → activeLane a t.width i = false) ∧ (n < t.lanes → activeLane a t.width n = true))

/-- For every state, floating type, registers and predicate, FRCP, FRSQ, FRCPS, FRSQS, FEXP2, FLOG2, FSIN, FCOS, FTANH,
FSIGM, FGELU and FCLASSV complete with a pending write of the active elements due in 12 ticks, FSQRT and FDIV in 24; nothing
else changes. FDIV converts the exact quotient once. (rests on 08 R234, 08 R235, 08 R236, 08 R237, 08 R239, 08 R240) -/
def Obligations.SpecialFunctions : Prop :=
  ∀ (s : State) (t : ElemType) (vd va vb : VRegN) (p : PReg) (r : Bool),
    let f := fmtOf t
    let m := s.core.ictx.rnd
    let sm := s.core.ictx.sm
    let x (i : Nat) : Val := decodeVal f (el s t va i)
    let y (i : Nat) : Val := decodeVal f (el s t vb i)
    let put (lat : Nat) (g : Nat → Nat × Flags) : Out := .next (vposted s t lat 24 vd p g)
    exec (.frcp t vd va p r) s = put 12 (fun i => frcpVal f m sm (x i)) ∧
    exec (.frsq t vd va p r) s = put 12 (fun i => frsqVal f m sm (x i)) ∧
    exec (.frcps t vd va vb p r) s = put 12 (fun i => refineVal false f m sm (x i) (y i)) ∧
    exec (.frsqs t vd va vb p r) s = put 12 (fun i => refineVal true f m sm (x i) (y i)) ∧
    exec (.fsqrt t vd va p r) s = put 24 (fun i => fsqrtVal f m sm (x i)) ∧
    exec (.fdiv t vd va vb p r) s = put 24 (fun i =>
      ((convert f m sm (divVal (x i) (y i)).1).1, (divVal (x i) (y i)).2 ||| (convert f m sm (divVal (x i) (y i)).1).2)) ∧
    exec (.fexp2 t vd va p r) s = put 12 (fun i => sfApply .exp2 f m sm (x i)) ∧
    exec (.flog2 t vd va p r) s = put 12 (fun i => sfApply .log2 f m sm (x i)) ∧
    exec (.fsin t vd va p r) s = put 12 (fun i => sfApply .sin f m sm (x i)) ∧
    exec (.fcos t vd va p r) s = put 12 (fun i => sfApply .cos f m sm (x i)) ∧
    exec (.ftanh t vd va p r) s = put 12 (fun i => sfApply .tanh f m sm (x i)) ∧
    exec (.fsigm t vd va p r) s = put 12 (fun i => sfApply .sigm f m sm (x i)) ∧
    exec (.fgelu t vd va p r) s = put 12 (fun i => sfApply .gelu f m sm (x i)) ∧
    exec (.fclassv t vd va p r) s = put 12 (fun i => (classBits f (el s t va i), 0))

/-- At an offset that is aligned (to the size for LD, 8 for VLD, 256 for VLDW) and whose bytes lie in the near scratchpad,
with no injection armed and no write of the other view unjoined, LD completes with a pending write, due in 5 ticks, of the
little-endian bytes at the offset, extended as the size code says; VLD and VLDW of each byte that the predicate names, at
the offset or its swizzled place. Misaligned they take MISALIGNED, at every aligned offset out of range SCRATCH_RANGE, at
issue. With an injection or an unjoined write they complete too. (rests on 09 R258, 09 R259, 09 R262, 05 R128) -/
def Obligations.NearScratchpadLoads : Prop :=
  ∀ (s : State) (sz p : PReg) (t a : SReg) (v : VRegN) (imm : BitVec 18) (r : Bool) (st : BitVec 7),
    let off := s.addrM1 a imm
    let n := Machine.sizeOf sz
    let byte (o : Nat) : Byte := memGet s.mem (nspBase s.core.id + o)
    let calm := s.core.stale = [] ∧ s.core.injArmed = false
    (off % n = 0 → off + n ≤ nspSize s.core.id →
      (∃ t', exec (.ld sz t a imm r st) s = .next t' ∧ t'.core.pend.length = s.core.pend.length + 1) ∧
      (calm → ∃ x, exec (.ld sz t a imm r st) s = .next (posted s 5 (.s t x) 0 16) ∧
        (∀ i, i < n → x.extractLsb' (8 * i) 8 = byte (off + i)) ∧
        ∀ j, 8 * n ≤ j → j < 64 → x.getLsbD j = (sizeSigned sz && (byte (off + n - 1)).getLsbD 7))) ∧
    (off % 8 = 0 → off + 256 ≤ nspSize s.core.id →
      (∃ t', exec (.vld v a p imm r st) s = .next t' ∧ t'.core.pend.length = s.core.pend.length + 1) ∧
      (calm → ∃ x, exec (.vld v a p imm r st) s = .next (posted s 5 (.v v x (activeMask (s.core.p p) 8)) 0 16) ∧
        ∀ i, i < 256 → laneOf x 8 i = (byte (off + i)).toNat)) ∧
    (off % 256 = 0 → off + 256 ≤ nspSize s.core.id →
      (∃ t', exec (.vldw v a p imm r st) s = .next t' ∧ t'.core.pend.length = s.core.pend.length + 1) ∧
      (calm → ∃ x, exec (.vldw v a p imm r st) s = .next (posted s 5 (.v v x (activeMask (s.core.p p) 8)) 0 16) ∧
        ∀ i, i < 256 → laneOf x 8 i = (byte (swizzle (off + i))).toNat)) ∧
    (off % n ≠ 0 → exec (.ld sz t a imm r st) s = .next (s.issueTrap .misaligned 0 0)) ∧
    (off % n = 0 → nspSize s.core.id < off + n → exec (.ld sz t a imm r st) s = .next (s.issueTrap .scratchRange 0 0)) ∧
    (off % 8 ≠ 0 → exec (.vld v a p imm r st) s = .next (s.issueTrap .misaligned 0 0)) ∧
    (off % 256 ≠ 0 → exec (.vldw v a p imm r st) s = .next (s.issueTrap .misaligned 0 0)) ∧
    (off % 8 = 0 → nspSize s.core.id < off + 256 → exec (.vld v a p imm r st) s = .next (s.issueTrap .scratchRange 0 0)) ∧
    (off % 256 = 0 → nspSize s.core.id < off + 256 →
      exec (.vldw v a p imm r st) s = .next (s.issueTrap .scratchRange 0 0))

/-- In a state whose memory is in canonical form, at an offset that is aligned and whose bytes lie in the near scratchpad,
ST stores the low bytes of s(t) at the offset, little-endian, VST each byte of v(t) that the predicate names at its place
from the offset, VSTW at its swizzled place. Every byte of memory outside those bytes reads as before, no pending write is
added, and no register, flag or special register changes: the state differs from the present one in memory and in the
records of unjoined writes and of writes made while a routine runs only. Misaligned they take MISALIGNED, at every aligned
offset out of range SCRATCH_RANGE, at issue. (rests on 09 R258, 09 R259, 09 R262, 00 R5) -/
def Obligations.NearScratchpadStores : Prop :=
  ∀ (s : State) (sz p : PReg) (t a : SReg) (v : VRegN) (imm : BitVec 18) (r : Bool) (st : BitVec 7),
    let off := s.addrM1 a imm
    let n := Machine.sizeOf sz
    let at' (o : Nat) : Nat := nspBase s.core.id + o
    Sys2Proof.Safety.MemoryOk s →
    let same (u : State) : Prop := ∃ l d, { u with mem := s.mem } = { s with core := { s.core with stale := l, during := d } }
    let pw := s.core.p p
    (off % n = 0 → off + n ≤ nspSize s.core.id → ∃ u, exec (.st sz t a imm r st) s = .next u ∧ same u ∧
      (∀ i, i < n → memGet u.mem (at' (off + i)) = (s.core.s t).extractLsb' (8 * i) 8) ∧
      ∀ b, (∀ i, i < n → b ≠ at' (off + i)) → memGet u.mem b = memGet s.mem b) ∧
    (off % 8 = 0 → off + 256 ≤ nspSize s.core.id → ∃ u, exec (.vst v a p imm r st) s = .next u ∧ same u ∧
      (∀ i, i < 256 → pw.getLsbD i = true → (memGet u.mem (at' (off + i))).toNat = laneOf (s.core.v v) 8 i) ∧
      ∀ b, (∀ i, i < 256 → pw.getLsbD i = true → b ≠ at' (off + i)) → memGet u.mem b = memGet s.mem b) ∧
    (off % 256 = 0 → off + 256 ≤ nspSize s.core.id → ∃ u, exec (.vstw v a p imm r st) s = .next u ∧ same u ∧
      (∀ i, i < 256 → pw.getLsbD i = true → (memGet u.mem (at' (swizzle (off + i)))).toNat = laneOf (s.core.v v) 8 i) ∧
      ∀ b, (∀ i, i < 256 → pw.getLsbD i = true → b ≠ at' (swizzle (off + i))) → memGet u.mem b = memGet s.mem b) ∧
    (off % n ≠ 0 → exec (.st sz t a imm r st) s = .next (s.issueTrap .misaligned 0 0)) ∧
    (off % 8 ≠ 0 → exec (.vst v a p imm r st) s = .next (s.issueTrap .misaligned 0 0)) ∧
    (off % 256 ≠ 0 → exec (.vstw v a p imm r st) s = .next (s.issueTrap .misaligned 0 0)) ∧
    (off % n = 0 → nspSize s.core.id < off + n → exec (.st sz t a imm r st) s = .next (s.issueTrap .scratchRange 0 0)) ∧
    (off % 8 = 0 → nspSize s.core.id < off + 256 → exec (.vst v a p imm r st) s = .next (s.issueTrap .scratchRange 0 0)) ∧
    (off % 256 = 0 → nspSize s.core.id < off + 256 →
      exec (.vstw v a p imm r st) s = .next (s.issueTrap .scratchRange 0 0))

/-- XLT of an address whose bits 63 to 55 are alike posts the write of its handle, due in 6 ticks when its walk has ended,
and starts the walk; of another address it takes VA_CANON. HINV posts the clearing of VALID, due on the next tick. HQRY
posts QW0 of a valid handle, with a pending write that keeps the handle (log 107), 0 for one that is not initialised, in 6
ticks, and starts the walk of the page of one that is not valid. PLD through a valid handle changes nothing, through an
initialised one that is not valid it starts the walk of its page, else it takes BAD_HANDLE. FENCE adds its order behind the
earlier ones of the strand, or alone where nothing of the strand is logged or on its way. (rests on 05 R119, 09 R248, 09
R249, 09 R263, 09 R266) -/
def Obligations.HandleOperations : Prop :=
  ∀ (s : State) (st : Strand) (h : Reg16) (a d : SReg) (o : BitVec 4) (sc : Scope) (pr pw sr sw : Bool),
    s.core.strand = some st →
    let va := (s.core.s a).toNat
    let hw := s.core.h h
    let walk (v c : Nat) (y : WalkFor) : Walk := { id := s.nextId, core := s.core.id, ctx := c, va := v, h := h, why := y, stale := false }
    let pend (w : Wr) : Pend :=
      { due := s.core.tick + 6, no := s.core.issueNo, wr := w, fl := 0, walk := some s.nextId }
    let with' (w : Walk) (l : List Pend) : State := { s with
      nextId := s.nextId + 1, walks := s.walks ++ [w]
      core := { s.core with
        pend := s.core.pend ++ l, inst := { s.core.inst with horizon := max s.core.inst.horizon (s.core.tick + 22) } } }
    ((va / 2 ^ 55 = 0 ∨ va / 2 ^ 55 = 511) → ∃ w, exec (.xlt h a) s = .next (with' (walk (canonVa va) st.ctx .xlt) [pend (.h h w)])) ∧
    (va / 2 ^ 55 ≠ 0 → va / 2 ^ 55 ≠ 511 → exec (.xlt h a) s = .next (s.issueTrap .vaCanon 0 va)) ∧
    exec (.hinv h) s = .next (posted s 1 (.hInv h) 0 16) ∧
    (hInit hw = false → exec (.hqry d h) s = .next (posted s 6 (.s d 0) 0 16)) ∧
    (hInit hw = true → hValid hw = true →
      exec (.hqry d h) s = .next (posted (posted s 6 (.s d (hw.setWidth 64)) 0 16) 6 (.hKeep h) 0 16)) ∧
    let page (y : WalkFor) : Walk := walk (canonVa (hVpage hw * 2 ^ 15)) (hCtx hw) y
    (hInit hw = true → hValid hw = false →
      exec (.hqry d h) s = .next (with' (page .hqry) [pend (.s d (hw.setWidth 64)), pend (.h h hw)])) ∧
    (hInit hw = true → hValid hw = true → exec (.pld h a o) s = .next s) ∧
    (hInit hw = true → hValid hw = false →
      exec (.pld h a o) s = .next { s with nextId := s.nextId + 1, walks := s.walks ++ [page .handle] }) ∧
    (hInit hw = false → exec (.pld h a o) s = .next (s.issueTrap .badHandle 0 0)) ∧
    let idle := s.core.trellis = [] ∧ (∀ x ∈ s.flight, ¬ (x.task = some st.task ∧ x.gang = st.gang ∧ x.lcore = st.lcore)) ∧
      ∀ x ∈ s.effects, ¬ (x.task = some st.task ∧ x.gang = st.gang ∧ x.lcore = st.lcore)
    let fenced (l : List (Nat × Bool × Bool × Bool × Bool × Scope)) : Out :=
      .next { s with core := { s.core with fences := l ++ [(s.core.seq, pr, pw, sr, sw, sc)] } }
    (¬ idle → exec (.fence sc pr pw sr sw) s = fenced s.core.fences) ∧ (idle → exec (.fence sc pr pw sr sw) s = fenced [])

/-- For every state in which the handle is initialised, the Arbour has room, every element is aligned and within the page,
and the leaf grants R, each of the four loads completes: its Arbour entry stands at its landing tick with its destination
and no data, its access is in flight, waiting for its walk, or waiting for its page; with no active element the entry lands
with nothing to write, and a handle that is not valid is walked again. Registers, flags and special registers do not change
at issue. (rests on 09 R247, 09 R250, 09 R251, 09 R253, 09 R255, 09 R263) -/
def Obligations.LandingLoads : Prop :=
  ∀ (sz p : PReg) (t a : SReg) (h : Reg16) (v va : VRegN) (off : BitVec 4) (e : BitVec 2) (land : BitVec 12) (r : Bool) (st : BitVec 5),
    ∀ s : State,
    (let o := s.addrM2 a off (Machine.sizeOf sz);
      LandsAt s (.ldl sz t h a off land r st) h (one o (Machine.sizeOf sz) 0) (o % Machine.sizeOf sz == 0) (.s t (Machine.sizeOf sz) (sizeSigned sz)) land) ∧
    (let o := s.addrM2 a off 256;
      LandsAt s (.vldl v h a p off land r st) h (byteRuns (s.core.p p).getLsbD o 0) (o % 8 == 0)
        (.v v (activeMask (s.core.p p) 8)) land) ∧
    (let n := 2 ^ e.toNat;
      let es := strideElems (s.core.p p) n (s.addrM2 a 0 n) (s.core.s (a + 1)) 0;
      LandsAt s (.vldlx e v h a p land r st) h es (allAligned n es) (.v v (activeMask (s.core.p p) (8 * n))) land) ∧
    (let es := gatherElems s va (s.core.p p) off 0;
      LandsAt s (.vgath v h va p off land r st) h es (allAligned 4 es) (.v v (activeMask (s.core.p p) 32)) land)

/-- For LDL, VLDL, VLDLX and VGATH at every state: a handle that is not initialised takes BAD_HANDLE; otherwise a full
Arbour takes ARBOUR_FULL; otherwise an element 128 MiB or more from the handle, or beyond the page of a present handle,
takes HANDLE_RANGE; otherwise a missing right R takes PAGE_RIGHTS, all at issue; otherwise a misaligned element adds an
Arbour entry that raises MISALIGNED at its landing tick, and nothing else changes but the walk of a handle that is not
valid. That ARBOUR_FULL comes before HANDLE_RANGE and PAGE_RIGHTS is the order of the model (log 106). (rests on 09 R247, 09
R250, 09 R251, 09 R263, 09 R269) -/
def Obligations.LandingTraps : Prop :=
  ∀ (s : State) (sz p : PReg) (t a : SReg) (h : Reg16) (v va : VRegN) (off : BitVec 4) (e : BitVec 2) (land : BitVec 12) (r : Bool) (st : BitVec 5),
    (let o := s.addrM2 a off (Machine.sizeOf sz);
      LandTraps s (.ldl sz t h a off land r st) h (one o (Machine.sizeOf sz) 0) (o % Machine.sizeOf sz == 0) land) ∧
    (let o := s.addrM2 a off 256;
      LandTraps s (.vldl v h a p off land r st) h (byteRuns (s.core.p p).getLsbD o 0) (o % 8 == 0) land) ∧
    (let n := 2 ^ e.toNat;
      let es := strideElems (s.core.p p) n (s.addrM2 a 0 n) (s.core.s (a + 1)) 0;
      LandTraps s (.vldlx e v h a p land r st) h es (allAligned n es) land) ∧
    (let es := gatherElems s va (s.core.p p) off 0;
      LandTraps s (.vgath v h va p off land r st) h es (allAligned 4 es) land)

/-- For every state in which the handle is initialised and the elements are aligned and within the page: through a valid
handle with no active element nothing changes; through one whose page is present and writable, with no entry of that page in
the log and room in the region's budget, the store's access is in flight, held until COMMIT and charged its lines if the
page lies in DRAM or deep SRAM; through an absent page it retires into the log. Registers, flags and special registers do
not change. (rests on 09 R247, 09 R254, 09 R261, 09 R263, 13 R382) -/
def Obligations.PostedStores : Prop :=
  ∀ (s : State) (sz p : PReg) (t a : SReg) (h : Reg16) (v va : VRegN) (off : BitVec 4) (e : BitVec 2) (r : Bool) (st : BitVec 5),
    (let n := Machine.sizeOf sz;
      let o := s.addrM2 a off n;
      let es := one o n ((s.core.s t).toNat % 2 ^ (8 * n));
      PostsAt s (.sth sz t h a off r st) h .w .store es (o % n == 0) false (linesOf es)) ∧
    (let o := s.addrM2 a off 256;
      let es := byteRuns (s.core.p p).getLsbD o (s.core.v v);
      PostsAt s (.vsth v h a p off r st) h .w .store es (o % 8 == 0) false (linesOf es)) ∧
    (let n := 2 ^ e.toNat;
      let es := strideElems (s.core.p p) n (s.addrM2 a 0 n) (s.core.s (a + 1)) (s.core.v v);
      PostsAt s (.vsthx e v h a p r st) h .w .store es (allAligned n es) false (linesOf es)) ∧
    (let es := gatherElems s va (s.core.p p) off (s.core.v v);
      PostsAt s (.vscat v h va p off r st) h .w .store es (allAligned 4 es) true (linesOf es))

/-- With the first entry a multiple of 64, its 64 entries in the accumulator memory and room in the Arbour, VLDA and VSTA
complete: one Arbour entry stands at the landing tick, for VLDA with the conversion of the active entries into vt, for VSTA
with the active elements of vt as its data; nothing else changes. Another entry takes ACC_RANGE, a full Arbour ARBOUR_FULL,
at issue; that ACC_RANGE comes first where both hold is the order of the model (log 106). (rests on 09 R250, 09 R251, 09
R264) -/
def Obligations.AccumulatorAccesses : Prop :=
  ∀ (s : State) (int : Bool) (v : VRegN) (a : SReg) (p : PReg) (off : BitVec 4) (land : BitVec 12) (r : Bool) (st : BitVec 5),
    let e := s.addrM2 a off 64
    let m := activeMask (s.core.p p) 32
    let landed (reg : Option RegName) (w : Wr) : Out := .next { s with
      nextId := s.nextId + 1
      core := { s.core with arb := s.core.arb ++ [
        { id := s.nextId, due := s.core.tick + land.toNat, no := s.core.issueNo, size := 1, reg := reg, wr := some w, fl := 0
          trap := none, inst := s.core.inst.id }] } }
    let ld : Instr := .vlda int v a p off land r st
    let sta : Instr := .vsta int v a p off land r st
    (e % 64 = 0 → e + 64 ≤ accEntries s.core.id → s.core.arbUsed < 64 →
      exec ld s = landed (some (.v v)) (.vlda int v e m s.core.ictx.rnd s.core.ictx.sm []) ∧
      exec sta s = landed none (.vsta int e (s.core.v v) m)) ∧
    ((e % 64 ≠ 0 ∨ accEntries s.core.id < e + 64) →
      exec ld s = .next (s.issueTrap .accRange 0 0) ∧ exec sta s = .next (s.issueTrap .accRange 0 0)) ∧
    (e % 64 = 0 → e + 64 ≤ accEntries s.core.id → 64 ≤ s.core.arbUsed →
      exec ld s = .next (s.issueTrap .arbourFull 0 0) ∧ exec sta s = .next (s.issueTrap .arbourFull 0 0))

/-- AMOADD, AMOMIN, AMOMAX, AMOAND, AMOOR, AMOXOR, AMOSWP, AMOCAS and AMOFADD, in every width, scalar and vector form, order
and scope: outside a handler, through a valid handle with its page present, right A, the elements aligned and in range, and
room in the Arbour, the first issue takes an Arbour entry of 1 unit, or 2 for a vector form, and its access is in flight; an
issue that a replay repeats only counts. In a handler each of the nine takes HANDLER_FAULT. (rests on 09 R265, 12 R338, 12
R339, 12 R340, 13 R376) -/
def Obligations.ReturningAtomics : Prop :=
  ∀ (w v : Bool) (o : Ord) (sc : Scope) (t : BitVec 6) (h : Reg16) (a b : BitVec 6) (land : BitVec 12),
    Atomics (.amoadd w v o sc t h a b land) .add w v t h a b land ∧ Atomics (.amomin w v o sc t h a b land) .min w v t h a b land ∧
    Atomics (.amomax w v o sc t h a b land) .max w v t h a b land ∧ Atomics (.amoand w v o sc t h a b land) .and w v t h a b land ∧
    Atomics (.amoor w v o sc t h a b land) .or w v t h a b land ∧ Atomics (.amoxor w v o sc t h a b land) .xor w v t h a b land ∧
    Atomics (.amoswp w v o sc t h a b land) .swp w v t h a b land ∧ Atomics (.amocas w v o sc t h a b land) .cas w v t h a b land ∧
    Atomics (.amofadd w v o sc t h a b land) .fadd w v t h a b land

/-- In every width, scalar and vector form, order and scope, at every state in which the handle is initialised and the
elements are aligned and within the page: through a valid handle whose page is present with right A, with no entry of that
page in the log and room in the budget, the reduction is a held access charged one unit; through an absent page it retires
into the log, one entry for each lane of a vector form. Registers, flags and special registers do not change. (rests on 09
R261, 09 R265, 12 R339, 12 R340, 13 R382) -/
def Obligations.PostedReductions : Prop :=
  ∀ (s : State) (w v : Bool) (o : Ord) (sc : Scope) (h : Reg16) (a b : BitVec 6),
    let posts (i : Instr) (op : AtomOp) : Prop :=
      let es := atomElems s op w v 0 a b;
      PostsAt s i h .a (.red op w) es (allAligned (atomSize op w) es) v 1
    posts (.redadd w v o sc h a b) .add ∧ posts (.redmin w v o sc h a b) .min ∧ posts (.redmax w v o sc h a b) .max ∧
    posts (.redfadd w v o sc h a b) .fadd

/-- With fewer than 16 entries queued each operation enters the XM queue with its operands, tokens and mp0 to mp7 as they
are at issue; with 16 its bundle is held back. An MCALL whose routine is not in the store takes NO_ROUTINE, one whose
routine does not accept the EFMT in force BAD_EFMT. An MFMT of a value that EFMT cannot hold takes BAD_EFMT; otherwise its
value comes into force with the third issue after it. (rests on 05 R116, 05 R124, 07 R201, 07 R202, 11 R332, 11 R333, 11
R334, 11 R335, 11 R336) -/
def Obligations.MatrixQueue : Prop :=
  ∀ (s : State) (r : BitVec 6) (f : SReg) (tk : Tok) (sb : Bool) (st : BitVec 6),
    let x := s.core.s f
    let e := s.core.efmtNow
    EntersXm (.mchk f tk) (entryOf (.mchk f tk) tk x 0 0 0) s ∧ EntersXm (.mclr f tk) (entryOf (.mclr f tk) tk x 0 0 0) s ∧
    EntersXm (.mldstore f tk) (entryOf (.mldstore f tk) tk x 0 0 0) s ∧
    (∀ en, s.core.store.find? (·.1 == r.toNat) = some en → acceptOk en.2.2 e = true → s.core.ictx.addr = none →
      EntersXm (.mcall r tk sb st) (fun s => { entryOf (.mcall r tk sb st) tk 0 0 0 0 s with efmt := e }) s) ∧
    (∀ en x, s.core.store.find? (·.1 == r.toNat) = some en → acceptOk en.2.2 e = true → s.core.ictx.addr = some x →
      EntersXm (.mcall r tk sb st)
        (fun s => { entryOf (.mcall r tk sb st) tk 0 0 0 0 s with efmt := e, mp := s.core.mpreg.set 0 x.1 }) s) ∧
    (∀ en, s.core.store.find? (·.1 == r.toNat) = some en → acceptOk en.2.2 e = false →
      exec (.mcall r tk sb st) s = .next (s.issueTrap .badEfmt (e.toNat % 2 ^ 16) 0)) ∧
    (s.core.store.find? (·.1 == r.toNat) = none → exec (.mcall r tk sb st) s = .next (s.issueTrap .noRoutine r.toNat 0)) ∧
    (efmtOk x = true → s.core.xmq.length < 16 → ∃ t, exec (.mfmt f tk) s = .next t ∧
      t.core.xmq = s.core.xmq ++ [entryOf (.mfmt f tk) tk x 0 0 0 s] ∧ t.core.efmt = s.core.efmt ∧
      t.core.efmtPend = s.core.efmtPend ++ [(s.core.issueNo + 3, x)] ∧ SameMemory s t) ∧
    (efmtOk x = true → 16 ≤ s.core.xmq.length → ∃ t, exec (.mfmt f tk) s = .next t ∧ t.core.ictx.stall = some (.room true)) ∧
    (efmtOk x = false → exec (.mfmt f tk) s = .next (s.issueTrap .badEfmt (x.toNat % 2 ^ 16) 0))

/-- CPY, CPYSIG, CPEER and PSEND enter with their descriptor (a PSEND whose virtual die is not valid takes BAD_VDIE), the
addresses D0 + s(a) and D1 + s(b) (or the latched addresses of a re-issue) and their counter, charged their lines against
the region's budget, and take REGION_BUDGET beyond it. BANKCFG, STRMBIND, STRMREL, PGLOAD, PGRUN, PGSTOP, PGRANT, CFLUSH and
CINV enter with their register operands. With 16 entries queued the bundle of each is held back. Registers, flags and memory
do not change at issue. (rests on 05 R116, 05 R124, 10 R270, 10 R277, 10 R279, 10 R281, 10 R282, 10 R283, 10 R288, 10 R297,
10 R302, 13 R382) -/
def Obligations.CopyQueue : Prop :=
  ∀ (s : State) (tk : Tok) (v : VRegN) (a b : SReg) (k : Reg16) (r : Bool) (st : BitVec 21),
    let x := s.core.s a
    let y := s.core.s b
    let d (n : Nat) (s : State) : Word := .ofNat 64 (bitsAt (s.core.v v).toNat (64 * n) 64)
    let plain (i : Instr) (a b : Word) (k : Reg16) : Prop := EntersCe i (entryOf i tk a b 0 k) s
    (s.core.ictx.addr = none →
      (∀ i, i ∈ [Instr.cpy tk v a b k r st, .cpysig tk v a b k r st, .cpeer tk v a b k r st] →
        Copies i tk v (fun s => d 0 s + s.core.s a) (fun s => d 1 s + s.core.s b) k s) ∧
      ∀ st, s.core.strand = some st →
        let vd := bitsAt (s.core.v v).toNat (64 * 21 + 8) 2
        ((vdieOf s st.ctx vd).isSome → Copies (.psend tk v a k) tk v (fun s => d 0 s + s.core.s a) (d 1) k s) ∧
        (vdieOf s st.ctx vd = none → exec (.psend tk v a k) s = .next (s.issueTrap .badVdie vd 0))) ∧
    (∀ l, s.core.ictx.addr = some l → ∀ i, i ∈ [Instr.cpy tk v a b k r st, .cpysig tk v a b k r st, .cpeer tk v a b k r st] →
      Copies i tk v (fun _ => l.1) (fun _ => l.2.1) k s) ∧
    plain (.bankcfg tk a b) x y 0 ∧ plain (.strmbind tk a k) x 0 k ∧ plain (.strmrel tk a b) x y 0 ∧
    plain (.pgload tk a b) x y 0 ∧ plain (.pgrun tk b) 0 y 0 ∧ plain (.pgstop tk b) 0 y 0 ∧ plain (.pgrant tk a) x 0 0 ∧
    plain (.cflush tk a b) x y 0 ∧ plain (.cinv tk a b) x y 0

/-- In a state whose memory is canonical, with no injection armed and the routine of a started MCALL about to perform:
ACC_ZERO writes all 80 bits of each entry (ROW0 + i, COL0 + j) of its region to zero. An MM routine whose parameters pass,
with no unordered copy, no write of its strand while it runs and no unjoined write in the scratchpad, leaves in each entry
(i, j) of its region what its blocks make of the entry before: each adds its partial product modulo 2^80 on integers, or
accumulates its scaled contribution on floats, which the first block of MM.FP8.ACCSKIP writes instead. The drains to F32,
BF16 and I32 write each entry, converted, at DBASE + i * DSTR + j * size where the rows do not meet and lie in the
scratchpad; that to FP8 the code of each entry and the scale of each group of 128. Every other byte of memory reads as
before. Each accumulator entry takes ten bytes of memory (log 7). (rests on 11 R305, 11 R306, 11 R307, 11 R319, 11 R322, 11
R323, 11 R324, 11 R325, 11 R326, 11 R327) -/
def Obligations.RoutineResults : Prop :=
  ∀ (s : State) (x : XmRun) (n : BitVec 6) (tk : Tok) (sb : Bool) (st : BitVec 6) (i : Instr),
    let c := s.core.id
    let p := rtParams x.ent
    let entry (a b : Nat) : Nat := (p.row0 + a) * accCols c + p.col0 + b
    let elsewhere (t : State) (w z : Nat) (mine : Nat → Nat → Nat → Prop) : Prop :=
      ∀ y, (∀ a b, a < w → b < z → ¬ mine a b y) → memGet t.mem y = memGet s.mem y
    let inEntry (a b y : Nat) : Prop := accBase c + 10 * entry a b ≤ y ∧ y < accBase c + 10 * entry a b + 10
    let place (size a b : Nat) : Nat := nspBase c + p.abase + a * p.abstr + b * size
    let scale (a g : Nat) : Nat := nspBase c + p.sbase + 4 * (a * (p.nc / 128) + g)
    let rowsFit (size : Nat) : Prop :=
      (p.m ≤ 1 ∨ p.nc * size ≤ p.abstr) ∧ p.abase + (p.m - 1) * p.abstr + p.nc * size ≤ nspSize c
    let drained (i : Instr) (size : Nat) (f : Nat → Nat) : Prop := rowsFit size → ∃ t, exec i s = .next t ∧
      (∀ a b, a < p.m → b < p.nc → memBytes t.mem (place size a b) size = natBytes (f (s.accEntry c (entry a b))) size) ∧
      elsewhere t p.m p.nc fun a b y => place size a b ≤ y ∧ y < place size a b + size
    Sys2Proof.Safety.MemoryOk s → s.core.xmRun = some x → x.ent.op = .mcall n tk sb st → x.ran = false → x.status = 0 →
    s.core.injArmed = false →
    (n = 4 → ∃ t, exec (.accZero c) s = .next t ∧ (∀ a b, a < p.m → b < p.nc → t.accEntry c (entry a b) = 0) ∧
      elsewhere t p.m p.nc inEntry) ∧
    ((n.toNat, i) ∈ [(0, Instr.mmFp8 c), (1, .mmInt8 c), (2, .mmInt4 c), (3, .mmBf16x3 c), (14, .mmFp8Accskip c)] →
      s.core.old = [] → s.core.during = [] → s.core.stale = [] → rtCheck s.core n.toNat x.ent = (0, 0) → ∃ t, exec i s = .next t ∧
        (∀ a b, a < p.m → b < 128 * p.nt →
          t.accEntry c (entry a b) = mmEntry s n.toNat x.ent a b (s.accEntry c (entry a b))) ∧
        elsewhere t p.m (128 * p.nt) inEntry) ∧
    (n = 5 → drained (.accDrainF32 c) 4 fun v => (convert fp32 .rne .none (decodeVal a80 v)).1) ∧
    (n = 6 → drained (.accDrainBf16 c) 2 fun v => (convert bf16 .rne .none (decodeVal a80 v)).1) ∧
    (n = 8 → drained (.accDrainI32 c) 4 fun v => (IFmt.mk 32 true).wrap ((IFmt.mk 32 true).clamp (int80 v))) ∧
    (n = 7 → p.nc % 128 = 0 → rowsFit 1 → p.sbase + 4 * (p.m * (p.nc / 128)) ≤ nspSize c →
      (p.sbase + 4 * (p.m * (p.nc / 128)) ≤ p.abase ∨ p.abase + (p.m - 1) * p.abstr + p.nc ≤ p.sbase) →
      ∃ t, exec (.accDrainFp8 c) s = .next t ∧
        (∀ y, (∀ a b, a < p.m → b < p.nc → y ≠ place 1 a b) →
          (∀ a g, a < p.m → g < p.nc / 128 → y < scale a g ∨ scale a g + 4 ≤ y) → memGet t.mem y = memGet s.mem y) ∧
        ∀ a g, a < p.m → g < p.nc / 128 →
        let q := quantise ((List.range 128).map fun k => s.accEntry c (entry a (128 * g + k)))
        memBytes t.mem (scale a g) 4 = natBytes q.1 4 ∧
        ∀ k, k < 128 → memGet t.mem (place 1 a (128 * g + k)) = BitVec.ofNat 8 (q.2.getD k (0, 0)).1)

/-- Each of the sixteen shipped routines performs where its MCALL has started and its parameters have passed: its entry
stays and is marked as having run; NOP_ROUTINE leaves memory as it was. XM_ENTRY_START takes the head of the XM queue when
the engine has room (idle, or an MM routine draining), its producers are complete and, for an MCALL, its routine is a
shipped one of the store. ROUTINE_COMPLETE ends the older operation that has taken effect; an MCALL without a status raises
its flags. TILE_COMPLETION_CHECK takes the next check and reports a failed one to the detector. ROUTINE_INSTALL puts a
committed routine into the directory of its die. (rests on 05 R124, 11 R309, 11 R310, 11 R315, 11 R317, 11 R319, 11 R323, 11
R327, 11 R335, 11 R336, 11 R337) -/
def Obligations.MatrixEngineEvents : Prop :=
  ∀ (s : State) (e : QEntry) (rest : List QEntry) (st : Strand),
    let c := s.core.id
    (∀ x (n : BitVec 6) tk sb b, s.core.xmRun = some x → x.ent.op = .mcall n tk sb b → x.ran = false → x.status = 0 →
      (∀ (k : Nat) (i : Instr), n.toNat = k →
        (k, i) ∈ [(0, Instr.mmFp8 c), (1, .mmInt8 c), (2, .mmInt4 c), (3, .mmBf16x3 c), (4, .accZero c), (5, .accDrainF32 c),
          (6, .accDrainBf16 c), (7, .accDrainFp8 c), (8, .accDrainI32 c), (9, .accToa c), (10, .wbLoad c), (11, .corrLoad c),
          (12, .chkRead c), (13, .accScalerow c), (14, .mmFp8Accskip c), (15, .nopRoutine c)] →
        ∃ t y, exec i s = .next t ∧ (t.getCore c).xmRun = some y ∧ y.ran = true ∧ y.ent = x.ent ∧ y.hold = x.hold) ∧
      (n = 15 → ∃ t, exec (.nopRoutine c) s = .next t ∧ SameMemory s t)) ∧
    (s.core.xmq = e :: rest → s.core.xmRoom.isSome = true → s.core.strand = some st → s.core.depsDone e = true →
      s.core.stopping = none →
      (∀ r tk b z, e.op = .mcall r tk b z → s.core.store.any (fun x => x.1 == r.toNat && shipped.contains x) = true) →
      ∃ t, exec (.xmEntryStart c) s = .next t ∧ t.core.xmq = rest ∧
        ∀ r tk b z, e.op = .mcall r tk b z → ∃ y, t.core.xmRun = some y ∧ y.ent = e) ∧
    (∀ r, s.core.xmDrain.head?.or s.core.xmRun = some r → s.core.strand = some st →
      (∀ n tk b z, r.ent.op = .mcall n tk b z → r.ran = true) →
      (∀ f tk, r.ent.op = .mldstore f tk → r.hold = none ∧ s.mldCheck c st.ctx r.ent ≠ .wait ∧
        ∀ va, s.mldCheck c st.ctx r.ent ≠ .absent va) →
      ∃ t, exec (.routineComplete c) s = .next t ∧ (t.getCore c).xmDrain = s.core.xmDrain.tail ∧
        (s.core.xmDrain = [] → (t.getCore c).xmRun = none) ∧
        (∀ n tk b z, r.ent.op = .mcall n tk b z → r.status = 0 → r.seen = 0 → s.core.enabledFlags &&& r.fl = 0 →
          t.core.flags = s.core.flags ||| r.fl.setWidth 64)) ∧
    (∀ l, s.core.tiles = true :: l → exec (.tileCompletionCheck c) s =
      .next { s with core := { s.core with tiles := l, tileCmps := s.core.tileCmps + 1 } }) ∧
    (∀ l, s.core.tiles = false :: l → exec (.tileCompletionCheck c) s =
      .next { s with
        core := { s.core with tiles := l, tileCmps := s.core.tileCmps + 1, injected := s.core.injected ++ [6] }
        inputs := s.inputs ++ [.detectorEvent c 6 0] }) ∧
    (∀ f slot v acc dig, AllDies s → (s.effects.find? fun e => e.id == f.id && e.committed) = some f →
      f.kind = .install slot v acc dig → ∃ t, exec (.routineInstall f.id) s = .next t ∧
        (t.die f.core.die).directory.find? (·.1 == slot) = some (slot, v, acc) ∧ ∀ x ∈ t.effects, x.id ≠ f.id)

/-- CE_COMMAND_START takes the head of the CE queue when fewer than four commands have started and its producers are
complete. PACKET_LAND lands a packet that has been sent; one of a CPY into the near scratchpad writes its bytes and no
others. CE_COMMAND_COMPLETE ends a command whose effects have taken place or that has a status. CPYSIG_SIGNAL of a committed
signal whose packets have performed leaves as an access in flight, a release at package scope that will decrement its
counter, at the place where the fabric takes it once it is sent. PSEND_DELIVERY of the first committed micro-batch of a
channel spends one permit and, where the lines of the bank are permitted, leaves its bytes in the bank and no other byte of
memory changed. PERMIT_ARRIVE adds a permit to those of the channel. PEER_PUT_RECEIVE of a granted put from another chip,
its seals sound, writes its bytes. (rests on 05 R124, 10 R271, 10 R273, 10 R281, 10 R283, 10 R288, 10 R289) -/
def Obligations.CopyEngineEvents : Prop :=
  ∀ (s : State) (e : QEntry) (rest : List QEntry) (st : Strand) (r : CeRun) (f : Effect),
    let c := s.core.id
    (s.core.ceq = e :: rest → s.core.strand = some st → s.core.ceRun.length < 4 → s.core.depsDone e = true →
      s.core.stopping = none → (s.startEntry s.core st e).2.status ≠ 256 →
      ∃ t y, exec (.ceCommandStart c) s = .next t ∧ t.core.ceq = rest ∧ t.core.ceRun.getLast? = some y) ∧
    (s.core.ceRun.find? (·.ent.id == r.ent.id) = some r → s.core.strand = some st →
      (∀ i p u l, r.air[i]? = some (p, l) → (isPsend r.ent.op = true → i = 0) →
        s.writeDst s.core st r p l (r.air.length = 1 && r.pkts.isEmpty && r.status == 0) = .done u →
        ∃ t, exec (.packetLand c r.ent.id i) s = .next t ∧ t.mem = u.mem ∧ t.flight = u.flight ∧ t.effects = u.effects) ∧
      (∀ i p l tk v a b k z x, r.ent.op = .cpy tk v a b k z x → r.air[i]? = some (p, l) → descDstSpace r.ent.desc = 1 →
        p.dst + l.length ≤ nspSize c → Sys2Proof.Safety.MemoryOk s →
        ∃ t, exec (.packetLand c r.ent.id i) s = .next t ∧
          (∀ j (h : j < l.length), memGet t.mem (nspBase c + p.dst + j) = l[j]) ∧
          ∀ y, (∀ j, j < l.length → y ≠ nspBase c + p.dst + j) → memGet t.mem y = memGet s.mem y) ∧
      (runDone r = true → ∃ t, exec (.ceCommandComplete c r.ent.id) s = .next t ∧ ∀ x ∈ (t.getCore c).ceRun, x.ent.id ≠ r.ent.id)) ∧
    ((s.effects.find? fun e => e.id == f.id && e.committed) = some f → ∀ va pa dec cmd seq, f.kind = .signal va pa dec cmd seq → Fresh s →
      s.copyPerformed cmd = true → f.id < s.nextId →
      ∃ t, exec (.cpysigSignal f.id) s = .next t ∧ (∀ x ∈ t.effects, x.id ≠ f.id) ∧ SameMemory s t ∧
        ∃ x ∈ t.flight, x.id = s.nextId ∧ x.act = .dec dec ∧ x.ctx = f.ctx ∧ x.task = f.task ∧ x.seq = seq ∧ x.held = false ∧
          x.ord = .rel ∧ x.sc = .package ∧ x.parts = [{
            va := va, len := 8, pos := 0, data := dec, cmp := 0
            pa := if x.stage = .away then pa else if s.down ((paDie pa).getD .cd0) then s.redirect pa else s.route pa }]) ∧
    (∀ d ch data, s.effects.find? (·.id == f.id) = some f → f.kind = .psend d ch data →
      (s.nextBatch d ch).map (·.id) = some f.id →
      let cfg := s.reg d (0xB000 + ch * 0x20)
      let stat := s.reg d (0xB008 + ch * 0x20)
      let base := bankBase d (bitsAt cfg 8 3) (bitsAt cfg 16 6 + bitsAt stat 2 1)
      stat % 4 ≠ 0 → bitAt cfg 0 = true → s.switching base = false → (s.directWrite f.core.die d).isSome = true → AllDies s →
      ∃ t, exec (.psendDelivery f.id) s = .next t ∧ (∀ x ∈ t.effects, x.id ≠ f.id) ∧
        t.reg d (0xB008 + ch * 0x20) % 4 = stat % 4 - 1 ∧
        (Sys2Proof.Safety.MemoryOk s → s.badSeal = [] → data.length ≤ 0x80000 →
          (∀ a, base ≤ a → a < base + data.length → (s.die d).permits 0 (s.engineWho f.core (bitsAt cfg 4 4)) needW a = true) →
          memBytes t.mem base data.length = data ∧ ∀ y, y < base ∨ base + data.length ≤ y → memGet t.mem y = memGet s.mem y)) ∧
    (∀ d ch, AllDies s → (d, ch) ∈ s.permits → ∃ t, exec (.permitArrive d ch) s = .next t ∧
      t.permits = s.permits.erase (d, ch) ∧ t.reg d (0xB008 + ch * 0x20) % 4 = (s.reg d (0xB008 + ch * 0x20) + 1) % 4) ∧
    (∀ (p : PeerPut) (k : Core), Sys2Proof.Safety.MemoryOk s → p.sender = none → s.putTarget p = some k → putAccepted k p = true →
      p.bad = [] → p.off + p.data.length ≤ nspSize k.id → ∃ t, exec (.peerPutReceive p) s = .next t ∧
        ∀ i (h : i < p.data.length), memGet t.mem (nspBase k.id + p.off + i) = p.data[i])

/-- LINE_FRAME completes at ports 0 and 1 of a compute die that is up: a port that is off changes nothing. CONTROL_FRAME
sends the counts of the port and changes nothing else. PLATE_SWITCH takes the first pending start or stop of the port's
Pergola fabric. PCIE_DMA_WRITE and PCIE_DMA_READ complete on a memory die that is up; a read of permitted lines with sound
seals, once the writes that causally precede it have been delivered at its homes (12 R349), returns the bytes of memory, not
poisoned, and changes nothing else but the counts of the fabric. (rests on 10 R292, 10 R294, 10 R302, 12 R349, 14 R415, 14
R416) -/
def Obligations.StreamAndPcieEvents : Prop :=
  ∀ (s : State) (d : DieId) (p : Nat) (frame data : List Byte) (pa n : Nat),
    (d.isMem = false → p < 2 → s.down d = false →
      (∃ t, exec (.lineFrame d p frame) s = .next t) ∧
      (bitAt (s.reg d (portOff p)) 0 = false → exec (.lineFrame d p frame) s = .next s) ∧
      (∃ l, exec (.controlFrame d p) s = .next { s with replyData := l })) ∧
    (∀ y run c cmd rest, AllDies s → (s.die d).ports[p]? = some y → y.pending = (run, c, cmd) :: rest →
      ∃ t z, exec (.plateSwitch d p) s = .next t ∧ (t.die d).ports[p]? = some z ∧ z.pending = rest) ∧
    (d.isMem = true → s.down d = false →
      (∃ t, exec (.pcieDmaWrite d pa data) s = .next t) ∧ (∃ t, exec (.pcieDmaRead d pa n) s = .next t) ∧
      (∀ u, s.directReads d (homesOf pa n) = some u → 0 < n →
        s.redirect pa = pa → s.mirrorNamed pa = false → s.switchingAny pa n = false →
        (∀ a, pa ≤ a → a < pa + n → u.judge (u.pcieWho d) needR a = .ok) → u.failedSectors pa n = [] →
        exec (.pcieDmaRead d pa n) s = .next { u with replyData := memBytes s.mem pa n, poisoned := false } ∧
        { u with dies := s.dies } = s))

/-- HOME_SLICE_ACCESS completes for every access ready at its slice on its own die; a load of one permitted part with sound
seals, the last transfer of its operation, is answered with the bytes it sees and leaves memory alone; a permitted store of
one part writes its bytes and no other byte. ATOMIC_PERFORM of a returning atomic of one part in arrival order,
REPLAY_ORDER_RELEASE of one whose turn has come in replay order: the new value by the operation is stored and the old value
answered, in its order at the address; no other byte changes. DIVERGE serves the address in arrival order from then on.
COUNTER_DECREMENT lowers the counter by n; a counter below n becomes 0, with a fault record on its die's ring, where there
is one. LOCAL_CAUSAL_RELEASE sends an access whose causally earlier writes are delivered to its slice. (rests on 09 R252, 09
R261, 09 R268, 12 R346, 12 R349, 12 R359, 06 R181) -/
def Obligations.HomeSliceEvents : Prop :=
  ∀ (s : State) (a : Access) (p : Part), Sys2Proof.Safety.MemoryOk s → AllDies s → Fresh s →
    let last := s.sibling a = none ∧ a.bad = none ∧ (a.land.isSome ∨ a.app.isSome)
    let out (m : List Host.Cell) : Prop := ∀ x, x < p.pa ∨ p.pa + p.len ≤ x → memGet m x = memGet s.mem x
    (s.flight.find? (·.id == a.id) = some a →
      (s.homeReady a = true → ∃ t, exec (.homeSliceAccess a.id) s = .next t) ∧
      (s.homeReady a = true → s.down a.home = false → a.held = false → last → a.act = .load → a.parts = [p] →
        s.judge (s.whoIs a) needR p.pa = .ok → s.failedSector p.pa p.len false = none →
        ∃ t, exec (.homeSliceAccess a.id) s = .next t ∧ SameMemory s t ∧ ∃ x ∈ t.flight, x.id = a.id ∧ x.stage = .reply ∧
          x.res = a.res ||| BitVec.ofNat 2048 (bytesNat (s.seen a p) * 2 ^ (8 * p.pos))) ∧
      (s.homeReady a = true → s.down a.home = false → a.held = false → a.act = .store → a.parts = [p] →
        s.judge (s.whoIs a) needW p.pa = .ok → s.failedSector p.pa p.len true = none →
        ∃ t, exec (.homeSliceAccess a.id) s = .next t ∧ memBytes t.mem p.pa p.len = natBytes p.data p.len ∧ out t.mem ∧
          ∀ x ∈ t.flight, x.id ≠ a.id)) ∧
    (∀ (op : AtomOp) (w : Bool), (s.flight.find? fun x => x.id == a.id && x.stage == .turn) = some a → a.parts = [p] →
      a.act = .amo op w → last → s.laneFirst a = true → p.len = (if w then 8 else 4) → p.data < 2 ^ (8 * p.len) → op ≠ .fadd → s.isReserved p.pa = false →
      s.failedSector p.pa p.len false = none →
      let perform (i : Instr) : Prop := ∃ t, exec i s = .next t ∧
        memBytes t.mem p.pa p.len = natBytes (atomResult op p.len (memNat s.mem p.pa p.len) p.data p.cmp) p.len ∧
        out t.mem ∧ ∃ x ∈ t.flight, x.id = a.id ∧ x.stage = .reply ∧
          x.res = a.res ||| BitVec.ofNat 2048 (memNat s.mem p.pa p.len * 2 ^ (8 * p.pos))
      (a.order = 0 → perform (.atomicPerform a.id)) ∧
      (∀ k r l, a.order = 2 → a.task = some k → (s.die a.home).diverged.any (fun x => x.1 == p.pa && x.2 = k) = false →
        s.replayRecs a.home a.ctx p.pa ((s.die a.home).arrived p.pa k) = r :: l →
        (recNames a p r = true → perform (.replayOrderRelease a.id)) ∧
        ((r :: l).any (recNames a p) = false → ∃ t, exec (.diverge a.id) s = .next t ∧
          (p.pa, k) ∈ (t.die a.home).diverged))) ∧
    (∀ n, (s.flight.find? fun x => x.id == a.id && x.stage == .home && x.checked && !x.held &&
        !x.parts.any fun p => s.switching p.pa) = some a →
      a.act = .dec n → s.down a.home = false → a.parts = [p] → p.len = 8 → s.isReserved p.pa = false →
      s.failedSector p.pa 8 false = none →
      let old := memNat s.mem p.pa 8
      ∃ t, exec (.counterDecrement a.id) s = .next t ∧
        (n ≤ old → memBytes t.mem p.pa 8 = natBytes (old - n) 8 ∧ out t.mem) ∧
        (old < n → (bitsAt (s.reg a.home 0xA110) 0 5 = 0 → memBytes t.mem p.pa 8 = natBytes 0 8 ∧ out t.mem) ∧
          t.mem = ((s.storeBytes (s.whoIs a).ctx p.pa (natBytes 0 8)).faultRec a.home (s.whoIs a).ctx 0x06 p.va (p.pa - p.pa % 64) n
            (s.whoIs a).code).mem)) ∧
    ((s.flight.find? fun x => x.id == a.id && x.stage == .causal) = some a →
      (∀ k, k < 4 → k = a.core.die.code ∨
        winLe (a.clock.getD (4 * k + a.core.die.code) 0) (dlvAt (s.die a.core.die) k) = true) →
      exec (.localCausalRelease a.id) s =
        .next { s with flight := s.flight.map fun x => if x.id = a.id then { a with stage := .home } else x })

/-- Where every strand of a gang, or with SSTEP of every gang of its task, on any cores, has ended or waits in barrier n,
all its effects performed, and one of them waits: EPOCH_CLOSE completes, each of these waits is a barrier passed (number 0),
and no hold of those gangs is left on any die. TRELLIS_REPLAY at a core with a strand whose log has a committed entry with
its page found, once what causally precedes its walk has been delivered (12 R349): where the page is absent again the
entries of that page wait again and nothing leaves (a page-table entry that the walk rejects leaves its record); where its
rights fail or it leaves its page, while the trap queue has room, the entry leaves the log; else it leaves the log as an
access in flight with the entry's action, held no longer. (rests on 12 R357, 12 R358, 06 R177, 09 R254, 13 R390) -/
def Obligations.EpochsAndTheLog : Prop :=
  (∀ (s : State) (t : Task) (g n : Nat) (sm : Bool),
    let gangs := t.gangs.filter fun x => sm || x.idx == g
    let holds (c : Core) (x : Gang) (l : Nat) : Prop := ∃ st, c.strand = some st ∧ st.task = t.id ∧ st.gang = x.idx ∧ st.lcore = l
    let mine (c : Core) : Prop := ∃ st, c.strand = some st ∧ st.task = t.id ∧ (sm = true ∨ st.gang = g)
    AllDies s → s.findTask t.id = some t → n ≠ 0 →
    (∃ c ∈ s.cores, mine c ∧ c.ended = false) →
    (∀ c ∈ s.cores, mine c → s.performed c = true ∧ (c.ended = true ∨ (c.ended = false ∧ c.snap = none ∧
      c.wait = some (.barrier sm n) ∧ n ≤ if sm then c.ssteps else c.bars))) →
    (∀ x ∈ gangs, ∀ l, l < t.gangSize →
      (x.ended.contains l = true ∧ s.strandPerformed t.id x.idx l = true) ∨ (x.ended.contains l = false ∧ ∃ c ∈ s.cores, holds c x l)) →
    ∃ u, exec (.epochClose t.id g) s = .next u ∧
      (∀ c ∈ u.cores, mine c → c.ended = false → c.wait = some (.barrier sm 0)) ∧ (∃ c ∈ u.cores, mine c ∧ c.ended = false) ∧
      ∀ d ∈ DieId.all, ∀ h ∈ (u.die d).holds, ∀ x ∈ gangs, ¬ (h.task = t.id ∧ h.gang = x.idx)) ∧
  ∀ (s v : State) (t : Trel) (st : Strand),
    Fresh s → s.replayNext s.core = some t → s.core.strand = some st →
    s.directReads s.core.id.die (s.walkDies st.ctx t.va) = some v →
    let again : State := { v with core := { s.core with
      trellis := s.core.trellis.map fun x => if x.va / 2 ^ 15 = t.va / 2 ^ 15 then { x with ready := false } else x } }
    (v.replayCheck st.ctx t = .ok [] → exec (.trellisReplay s.core.id) s = .next
      (match (v.walkVa st.ctx t.va).bad with
      | none => again
      | some l => again.faultRec s.core.id.die st.ctx 0x03 t.va 0 l (s.coreMaster s.core.id 0))) ∧
    (∀ n, v.replayCheck st.ctx t = .error n → s.core.trapq.length < 16 → ∃ u, exec (.trellisReplay s.core.id) s = .next u ∧
      (u.getCore s.core.id).trellis = s.core.trellis.erase t) ∧
    (∀ p l, v.replayCheck st.ctx t = .ok (p :: l) → ∃ u, exec (.trellisReplay s.core.id) s = .next u ∧
      u.core.trellis = s.core.trellis.erase t ∧ ∃ x ∈ u.flight, x.id = s.nextId ∧ x.act = t.act ∧ x.held = false)

/-- FLIT_RECEIVE puts the first flit of a channel, of the present epoch, into the reorder buffer where an entry is free for
its source, and nothing else changes; a flit of an old epoch leaves the machine. FLIT_DELIVER completes for a flit whose
causally earlier writes are delivered. CREDIT_SEND sends a die's counts to every other die that is up. CREDIT_RECEIVE takes
the credit off the link and raises the receiver's column of the sender to at least the counts of the credit, its own row
apart, which writes sent on the occasion raise further; the count of its own writes in it is the D of the hold (R351).
DRAM_WRITEBACK cleans its line; without a mirror nothing else changes. BANK_SWITCH_COMPLETE ends the switch: the bank has
its new mode, and SCRATCH is entered zeroed. CACHE_UE of a DRAM line at its home slice of a die that is up, in a way in use,
completes; a dirty line's page is retired. PEER_ACK ends a committed remote put. (rests on 04 R93, 04 R95, 04 R98, 10 R284,
12 R347, 12 R349, 12 R350, 12 R351, 12 R352, 14 R410, 14 R412, 14 R413) -/
def Obligations.FabricEvents : Prop :=
  ∀ (s : State) (a : Access) (d src : DieId) (pa : Nat), AllDies s → Fresh s →
    ((s.flight.find? fun x => x.id == a.id && x.stage == .link) = some a → s.down a.home = false →
      (∀ x ∈ s.flight, x.stage = .link → x.core.die = a.core.die → x.home = a.home → a.sent ≤ x.sent) →
      (a.epoch = (s.die a.home).epoch →
        (s.robFrom a.home a.core.die < 128 ∨ ((DieId.all.map fun e => s.robFrom a.home e - 128)).sum < 128) →
        exec (.flitReceive a.id) s =
          .next { s with flight := s.flight.map fun x => if x.id = a.id then { a with stage := .rob } else x }) ∧
      (a.epoch ≠ (s.die a.home).epoch →
        ∃ t, exec (.flitReceive a.id) s = .next t ∧ ∀ x ∈ t.flight, x.id ≠ a.id)) ∧
    ((s.flight.find? fun x => x.id == a.id && x.stage == .rob) = some a → s.deliverable a = true →
      a.parts.any (fun p => s.switching p.pa) = false → ∃ t, exec (.flitDeliver a.id) s = .next t) ∧
    (s.creditDue d = true → exec (.creditSend d) s = .next { s with
      credits := s.credits ++ ((s.dies.filter fun e => e.id != d && e.uncoreUp).map fun e => (d, e.id, (s.die d).dlv)) }) ∧
    (∀ c, (s.credits.find? fun c => c.1 == src && c.2.1 == d) = some c →
      ∃ t, exec (.creditReceive d src) s = .next t ∧ t.credits = s.credits.erase c ∧ SameMemory s t ∧
        (t.die d).seen = (s.die d).seen.set src.code (c.2.2.getD d.code 0) ∧
        ∀ k j, k < 4 → j < 4 → k ≠ d.code → knowAt (t.die d) k j =
          if j = src.code then winMax (knowAt (s.die d) k j) (c.2.2.getD k 0) else knowAt (s.die d) k j) ∧
    (∀ y ∈ (s.die d).dirty, y.1 = pa / 64 →
      (∃ t, exec (.dramWriteback d pa) s = .next t ∧ ∀ z ∈ (t.die d).dirty, z.1 ≠ pa / 64) ∧
      ((s.die d).mirror (64 * (pa / 64) % 2 ^ 49) = none → ∃ t, exec (.dramWriteback d pa) s = .next t ∧ t.mem = s.mem)) ∧
    (∀ c b x, ((s.die d).switches.find? fun x => x.1 == c && x.2.1 == b) = some x → x.2.2.1 < 4 → c < 8 → b < 64 →
      ∃ t, exec (.bankSwitchComplete d c b) s = .next t ∧ (t.die d).bankMode c b = x.2.2.1 ∧
        (t.die d).switches = (s.die d).switches.erase x ∧
        ((s.die d).bankMode c b ≠ 1 → x.2.2.1 = 1 → ∀ i, i < 0x80000 → memGet t.mem (bankBase d c b + i) = 0) ∧
        ∀ i, i < bankBase d c b ∨ bankBase d c b + 0x80000 ≤ i → memGet t.mem i = memGet s.mem i) ∧
    (∀ slice way, (slice = homeSlice d pa → s.down d = false → paDie pa = some d → placeOf pa = .dram →
      (s.die d).quarantined slice way = false →
      ∃ t, exec (.cacheUe d pa slice way) s = .next t ∧ ((s.die d).dirty.any (·.1 == pa / 64) = true →
        (d, pa / 64 / 512 * 0x8000 % 2 ^ 49 / 0x8000) ∈ t.rhoath.retPages))) ∧
    (∀ (f : Effect) (q : PeerPut) tok, s.effects.find? (·.id == f.id) = some f → f.committed = true → f.kind = .put q true tok →
      ∃ t, exec (.peerAck f.id) s = .next t ∧ f ∉ t.effects)

/-- DETECTOR_EVENT of a detector 1 to 7 at a running strand ends its task with status 7 where recovery is off; where it is
on, below the retry limit and with fewer than 15 events on record, it discards the instance and counts one retry.
SAVE_AREA_WRITE at a stopped, quiet core with a slot none of whose banks is being switched frees the core and, where no page
of the slot refuses an access and a mirror of the slot lies within the twin's range, leaves the near scratchpad in the
slot's area (which pages refuse, and what is done then, is log 14). STRAND_LOAD sets the strand of its task on its core, at
the entry of the packet, every scalar register zero. STRAND_RESUME with no bank of the slot being switched sets the strand
on its core and, where no page of the slot refuses an access, restores pc and the live scalar registers from it. (rests on
02 R58, 06 R140, 06 R147, 13 R387, 13 R388, 13 R391, 13 R393, 13 R395, 14 R399, 14 R409, 14 R413) -/
def Obligations.DetectionAndStrands : Prop :=
  ∀ (s : State) (st : Strand), AllDies s →
    let c := s.core
    (∀ num blocks, c.strand = some st → c.ended = false → c.stopping = none → 1 ≤ num → num ≤ 7 →
      (c.recovEn = false → ∀ x, s.findTask st.task = some x → x.status = 0 →
        ∃ t y, exec (.detectorEvent c.id num blocks) s = .next t ∧ t.findTask st.task = some y ∧ y.status = 7 ∧ y.detail = num) ∧
      (c.recovEn = true → bitsAt c.rcvstat.toNat 0 2 ≠ c.retryLimit → c.events.length < 15 →
        ∃ t, exec (.detectorEvent c.id num blocks) s = .next t ∧
          t.core.rcvstat = c.rcvstat + 1 + BitVec.ofNat 64 (2 ^ 32) ∧ t.core.k = c.rewind.k ∧
          ∀ e ∈ t.effects, ¬ (e.core = c.id ∧ e.inst = c.inst.id ∧ e.committed = false))) ∧
    (∀ r b, c.strand = some st → c.stopping = some r → s.slotBase c.id.die st.task st.gang st.lcore = some b → c.quiet = true →
      c.ended = false → c.trellis.length ≤ 256 → c.arb.length ≤ 64 → c.ceRun.length + c.ceq.length ≤ 20 →
      b + 2 ^ 23 ≤ nspBase c.id → s.slotSwitching b = false →
      ∃ t, exec (.saveAreaWrite c.id) s = .next t ∧ t.core.strand = none ∧
        (s.slotBad b = [] → Sys2Proof.Safety.MemoryOk s →
          (∀ d x, paDie b = some d → (s.die d).mirror (b % 2 ^ 49) = some x → x.2 + (b % 2 ^ 49 - x.1) + 2 ^ 23 ≤ 2 ^ 49) →
          ∀ i, i < nspSize c.id → memGet t.mem (b + 0x20000 + i) = memGet s.mem (nspBase c.id + i))) ∧
    (∀ id tid g l x im y, s.toLoad id tid g l = some (x, im, y) →
      (y.saved.contains l = false → ∃ t, exec (.strandLoad id tid g l) s = .next t ∧ t.core.id = id ∧
        t.core.strand = some (strandOf s x im y l) ∧ t.core.pc = bitsAt (x.pkt.getD 1 0).toNat 0 32 ∧ ∀ r, t.core.s r = 0) ∧
      (∀ b k, s.slotBase id.die tid g l = some b → y.counts.find? (·.1 == l) = some k → s.slotSwitching b = false →
        ∃ t, exec (.strandResume id tid g l) s = .next t ∧ t.core.id = id ∧
          t.core.strand = some (strandOf s x im y l) ∧ (s.slotBad b = [] → t.core.pc = memNat s.mem (b + 8) 4 ∧
          ∀ r : SReg, r ≠ 0 → t.core.s r =
            if bitAt (memNat s.mem (b + 0x20) 8) r.toNat then BitVec.ofNat 64 (memNat s.mem (b + 0x200 + 8 * r.toNat) 8) else 0)))

/-- TASK_RELEASE at the release tick releases the task; one without wait conditions is ready at once. COUNTER_WATCH and
COUNTER_POLL complete when a sample of the conditions they test brings news. SIGNATURE_CHECK ends the task with status 4 or
marks its image as verified. DEADLINE_MISS of a task that misses its deadline marks it as demoted. TASK_RETIRE of a task
that may retire, whose completion decrement nothing holds back, removes it and counts one more completion record of its
queue. (rests on 02 R55, 02 R57, 03 R70, 03 R75, 03 R76, 03 R77, 03 R78, 03 R433) -/
def Obligations.TaskEvents : Prop :=
  ∀ (s : State) (t : Task) (d : DieId), AllDies s → s.findTask t.id = some t →
    (t.released = false → t.status = 0 → s.launchUp (homeOf t.id) = true → t.release ≤ s.frame.toNat →
      (∃ u, exec (.taskRelease t.id) s = .next u) ∧
      (t.cond 0 = none → t.cond 1 = none → ∃ u v, exec (.taskRelease t.id) s = .next u ∧ u.findTask t.id = some v ∧
        v.released = true ∧ (t.ready = none → v.ready = some s.frame.toNat) ∧ u.mem = s.mem ∧ u.dies = s.dies ∧ u.core = s.core)) ∧
    (s.launchUp d = true → t ∈ s.newsOf ((s.conds d).take 256) → ∃ u, exec (.counterWatch d) s = .next u) ∧
    (s.launchUp d = true → t ∈ s.newsOf ((s.conds d).drop 256) → ∃ u, exec (.counterPoll d) s = .next u) ∧
    (∀ im o n, t.image = some im → im.sign = some (o, n) → im.verified = false → t.status = 0 →
      ∃ u v, exec (.signatureCheck t.id) s = .next u ∧ u.findTask t.id = some v ∧
        (v.status = 4 ∨ (v.status = 0 ∧ v.image = some { im with verified := true }))) ∧
    (s.launchUp (homeOf t.id) = true →
      (s.missed t = true → ∃ u v, exec (.deadlineMiss t.id) s = .next u ∧ u.findTask t.id = some v ∧ v.demoted = true ∧
        u.core = s.core) ∧
      (s.canRetire t = true → s.completionHeld (homeOf t.id) t = false → t.id.queue < 64 → ∃ u, exec (.taskRetire t.id) s = .next u ∧ u.findTask t.id = none ∧
        u.qreg (homeOf t.id) (qnOf t.id) 0x18 / 2 ^ 32 = (s.qreg (homeOf t.id) (qnOf t.id) 0x18 / 2 ^ 32 + 1) % 2 ^ 32 ∧
        u.core = s.core))

/-- ADMISSION_PASS of a die that admits and whose pass changes a task or a reservation leaves the state after the pass over
its gangs in rank order. SUPERSTEP_BIND_REQUEST of the next die asked completes once no superstep task of higher rank that
involves the die awaits its answers (log 108); a die that does not admit refuses, the bindings are released, and the pass of
the task's own die goes on below it. AGING_RESERVATION adds the reservation. RESERVATION_PREEMPT asks the lowest-ranked gang
to stop. STARVATION_YIELD in progress asks the highest resident gang to stop, or ends the task with status 5 when none is
left. (rests on 03 R71, 03 R72, 03 R73, 03 R74, 03 R79, 03 R80, 04 R85) -/
def Obligations.AdmissionEvents : Prop :=
  ∀ (s : State) (d : DieId) (t : Task) (g : Nat), AllDies s →
    (s.admits d = true → ((s.pass d fun _ => true).tasks ≠ s.tasks ∨ ((s.pass d fun _ => true).die d).reserve ≠ (s.die d).reserve) →
      exec (.admissionPass d) s = .next (s.pass d fun _ => true)) ∧
    (s.findTask t.id = some t → t.nextAsk = some d → t.status = 0 → s.launchUp (homeOf t.id) = true →
      (s.admits d = true →
        (s.pass d fun x => x.1.id != t.id && rankLt (x.1.rank x.2) (t.rank t.head)).askedAbove d t t.head = false →
        ∃ u, exec (.superstepBindRequest d t.id) s = .next u) ∧
      (s.admits d = false → ∃ (w : State) (v : Task), exec (.superstepBindRequest d t.id) s = .next (w.passBelow t) ∧ w.findTask t.id = some v ∧
        v.asks = none ∧ ∀ y ∈ v.gangs, y.state = .waiting → y.cores = [])) ∧
    (∀ x f, s.findTask t.id = some t → t.gangs.find? (·.idx == g) = some x → x.die = d → x.state = .waiting → t.rankClass = 1 →
      s.admissible t = true → s.launchUp d = true → x.since = some f → f + 65536 ≤ s.frame.toNat →
      (∀ r ∈ (s.die d).reserve, ¬ (r.1 = true ∧ r.2.1 = t.id ∧ r.2.2.1 = g)) →
      ∃ u, exec (.agingReservation d t.id g) s = .next u ∧
        (u.die d).reserve = (s.die d).reserve ++ [(true, t.id, g, s.frame.toNat)] ∧ u.tasks = s.tasks ∧ u.core = s.core) ∧
    (∀ y h, s.launchUp d = true → s.preemptFor d = some (t, g) →
      lowest ((s.gangsOn d .running).filter fun x => x.1.rankClass != 0) = some (y, h) →
      s.fitsWith t g ((s.gangsOn d .stopping).flatMap fun x => x.1.coresOf x.2) = false →
      exec (.reservationPreempt d d.isMem) s = .next (s.stopWith y.id h)) ∧
    (∀ w x, s.findTask t.id = some t → t.isSuper = false → x ∈ t.gangs → x.idx = w → x.state = .waiting →
      s.admissible t = true → t.layout.isSome = true → (∀ y ∈ t.gangs, y.state ≠ .stopping) → s.admits (homeOf t.id) = true →
      s.fitsWith t w [] = false → t.yielding = some w →
      (t.resident = [] → ∃ u v, exec (.starvationYield t.id w) s = .next u ∧ u.findTask t.id = some v ∧
        v.status = 5 ∧ v.detail = w) ∧
      (∀ y, t.resident.getLast? = some y → ∃ u v, exec (.starvationYield t.id w) s = .next u ∧ u.findTask t.id = some v ∧
        ∀ z ∈ v.gangs, z.idx = y.idx → z.state ≠ .running))

/-- Every one of these completes at every die and queue; at a die that is down or a queue that is not there nothing changes,
nor by an application core that is not there. QTAIL_WRITE of an EDF queue takes a tail that leaves at most the ring's size
of packets. QCFG_WRITE of a stopped queue takes the writable bits where TRACE and SIZE_LOG2 are legal, of a running one EN
alone; where they are not, the register keeps its value and ACCVIOL counts one more, saturating, with the offset and the
writer. QTT_WRITE of a queue with a timetable gives the one to be bound at the end of its frame, a reading (log 60);
QTRACE_WRITE of a stopped queue sets the trace; an illegal one is counted too. QFAULT_READ answers the register and clears
it. (rests on 02 R59, 03 R63, 03 R65, 03 R66, 03 R68, 03 R78, 14 R405) -/
def Obligations.QueueRegisters : Prop :=
  ∀ (s : State) (d : DieId) (q : Nat) (v : Word) (app : AppCore), AllDies s →
    let there := s.down d = false ∧ s.queueThere d q = true
    let cfg := s.qreg d q 0
    (∀ i ∈ [Instr.qtailWrite d q v, .qttWrite d q v app, .qcfgWrite d q v app, .qtraceWrite d q v app, .qfaultRead d q],
      (∃ t, exec i s = .next t ∧ t.core = s.core) ∧ (¬ there → exec i s = .next s)) ∧
    (s.appUp app = false → ∀ i ∈ [Instr.qttWrite d q v app, .qcfgWrite d q v app, .qtraceWrite d q v app], exec i s = .next s) ∧
    (there → s.appUp app = true →
      let counted (t : State) (off : Nat) : Prop := t.reg d 0x3F10 =
        min 0xFFFF (bitsAt (s.reg d 0x3F10) 48 16 + 1) * 2 ^ 48 + masterOf s.rhoath.chip app.die.code 3 app.num * 2 ^ 24 + off % 2 ^ 24
      (cfgEdf cfg = true → (v.toNat % 2 ^ 32 + 2 ^ 32 - s.qreg d q 0x18 % 2 ^ 32) % 2 ^ 32 ≤ 2 ^ cfgLog cfg →
        exec (.qtailWrite d q v) s = .next (s.setQreg d q 0x10 (v.toNat % 2 ^ 32))) ∧
      (∀ y, (s.die d).tt q = some y → ∃ t, exec (.qttWrite d q v app) s = .next t ∧
        (t.die d).tt q = some { y with next := some (v.toNat % 2 ^ 56) }) ∧
      (let w := Nat.land v.toNat 0xFFFFF0F000E01
        let legal := cfgTrace w ≠ 3 ∧ 4 ≤ cfgLog w ∧ cfgLog w ≤ 12
        (legal → cfgEn cfg = false → ∃ t, exec (.qcfgWrite d q v app) s = .next t ∧ t.qreg d q 0 = w) ∧
        (legal → cfgEn cfg = true → ∃ t, exec (.qcfgWrite d q v app) s = .next t ∧ t.qreg d q 0 = cfg - 1 + w % 2) ∧
        (¬ legal → ∃ t, exec (.qcfgWrite d q v app) s = .next t ∧ t.qreg d q 0 = cfg ∧ t.tasks = s.tasks ∧ t.mem = s.mem ∧
          counted t (qOff q))) ∧
      (cfgEn cfg = true ∨ v.toNat % 32 < 4 ∨ 11 < v.toNat % 32 → ∃ t, exec (.qtraceWrite d q v app) s = .next t ∧
        t.qreg d q 0x30 = s.qreg d q 0x30 ∧ counted t (qOff q + 0x30)) ∧
      (cfgEn cfg = false → 4 ≤ v.toNat % 32 → v.toNat % 32 ≤ 11 → exec (.qtraceWrite d q v app) s =
        .next (s.setQreg d q 0x30 (Nat.land (v.toNat % 2 ^ 52) 0xFFFFFFFFFF01F))) ∧
      exec (.qfaultRead d q) s =
        .next { s.setQreg d q 0x38 0 with reply := some (BitVec.ofNat 64 (s.qreg d q 0x38)) })

/-- RING_SLOT_READ moves HEAD on by one where its read of the slot is not held (by a bank being switched, 04 R96, or by what
its die has yet to learn, 12 R349; log 90). LAUNCH_PACKET_ARRIVE of a permitted packet with sound seals whose read is not
held takes the access from the machine and writes no memory. WAITING_PACKET_ACCEPT takes the first waiting packet of the
queue. TIMETABLE_UNBIND without a successor leaves the queue without a timetable. FRAME_START begins the frame, or passes
one with no accepted entry, which is over at once: a reading (log 67). DEGRADED_SWITCH completes at a frame start of a
degraded timetable. (rests on 03 R67, 03 R68, 02 R59, 02 R60, 02 R61, 14 R408) -/
def Obligations.QueueEvents : Prop :=
  ∀ (s : State) (d : DieId) (q : Nat), AllDies s → Fresh s →
    (s.ringReady d q = true → (s.packetHold d (s.ringSlot d q)).isSome = true → ∃ t, exec (.ringSlotRead d q) s = .next t ∧ t.core = s.core ∧
      t.qreg d q 0x18 % 2 ^ 32 = (s.qreg d q 0x18 % 2 ^ 32 + 1) % 2 ^ 32) ∧
    (∀ (a : Access) r vd p l, s.flight.find? (·.id == a.id) = some a → s.launchTurn a = true → a.act = .launch r vd →
      a.parts = p :: l → a.checked = false → s.firstBad a = none → s.failedSector p.pa 64 false = none →
      (s.packetHold a.home p.pa).isSome = true →
      ∃ t, exec (.launchPacketArrive a.id) s = .next t ∧ t.mem = s.mem ∧ t.core = s.core ∧ ∀ x ∈ t.flight, x.id ≠ a.id) ∧
    (∀ x, (s.die d).launchWait.find? (·.1 == q) = some x → s.launchUp d = true → s.queueLoad d q < 64 →
      ∃ t, exec (.waitingPacketAccept d q) s = .next t ∧ (t.die d).launchWait = (s.die d).launchWait.erase x ∧
        t.mem = s.mem ∧ t.core = s.core) ∧
    (∀ x, (s.die d).tt q = some x → s.launchUp d = true → s.unbindDue x = true → ∃ t, exec (.timetableUnbind d q) s = .next t ∧
      (x.next.getD 0 = 0 → (t.die d).tt q = none ∧ t.qreg d q 0x20 = 0)) ∧
    (∀ x, s.frameDue d q = some x →
      (x.degraded = false → ∃ t y, exec (.frameStart d q) s = .next t ∧ (t.die d).tt q = some y ∧ t.core = s.core ∧
        (y.began = true ∨ (y.frame = x.frame + 1 ∧ y.s = x.s + x.frameLen))) ∧
      (x.degraded = true → ∃ t, exec (.degradedSwitch d q) s = .next t ∧ t.core = s.core ∧
        ∀ y, (t.die d).tt q = some y → y.degraded = false))

/-- LANDING_ARRIVAL of an access that has been answered completes: its landing has its data, flags and trap, and the access
leaves the machine. WALK_COMPLETE of a walk completes and ends it once what causally precedes its reads has been delivered
(12 R349). At a frozen core each of these completes, ends the wait and the freeze and leaves the registers:
WAIT_CONDITION_MET of a wait whose condition holds, where a FLAGWT clears the flags it waited for; WFE_TIMEOUT of a WFE, of
whose 4,096 wall ticks the model keeps no count (log 5); QUEUE_ROOM once an entry has left the queue, XM or CE, that the
held bundle found full; SYNC_RELEASE once both queues are empty. (rests on 05 R124, 05 R125, 06 R143, 06 R173, 06 R174, 06
R175, 06 R176, 09 R248, 09 R250, 09 R255, 12 R341) -/
def Obligations.WaitsEnd : Prop :=
  ∀ (s : State) (w : Wait), Fresh s →
    let c := s.core
    let ended (t : State) : Prop := t.core.wait = none ∧ t.core.frozen = false ∧ t.core.pc = c.pc ∧ t.core.tick = c.tick ∧
      t.core.sreg = c.sreg ∧ t.core.vreg = c.vreg ∧ t.core.kreg = c.kreg ∧ t.mem = s.mem ∧ t.dies = s.dies
    (∀ (a : Access) l, s.flight.find? (·.id == a.id) = some a → a.stage = .reply → a.land = some l →
      ∃ t, exec (.landingArrival a.id) s = .next t ∧ t.core.id = a.core ∧ t.mem = s.mem ∧ (∀ x ∈ t.flight, x.id ≠ a.id) ∧
        ∀ x ∈ t.core.arb, x.id = l → x.wr = some (landWr a) ∧ x.fl = a.fl ∧ x.trap = a.bad) ∧
    (∀ k, s.walks.find? (·.id == k.id) = some k →
      (s.directReads k.core.die (s.lookupDies k.core k.ctx k.va)).isSome = true →
      ∃ t, exec (.walkComplete k.id) s = .next t ∧ t.core.id = k.core ∧ ∀ x ∈ t.walks, x.id ≠ k.id) ∧
    (c.waiting = some w → beforeIssue w = false → s.waitHolds c w = true →
      ∃ t, exec (.waitConditionMet c.id) s = .next t ∧ ended t ∧
        t.core.rx = match w with | .flags m => c.rx &&& ~~~m | _ => c.rx) ∧
    (∀ b, c.waiting = some (.wfe b) → ∃ t, exec (.wfeTimeout c.id) s = .next t ∧ ended t ∧ t.core.rx = c.rx) ∧
    (∀ xm, c.waiting = some (.room xm) → (if xm then c.xmq else c.ceq).length < 16 → ∃ t, exec (.queueRoom c.id) s = .next t ∧ ended t ∧
      t.core.rx = c.rx) ∧
    (c.waiting = some .sync → c.xmq = [] → c.ceq = [] → ∃ t, exec (.syncRelease c.id) s = .next t ∧ ended t ∧
      t.core.rx = c.rx)

/-- COMMIT_RELEASE past its horizons releases every held effect of the instance, commits its log entries and begins a new
instance. STRAND_EXIT_COMPLETE frees the core of an ended strand. ASYNC_TRAP_ARRIVAL puts a trap at the end of a queue with
room. TRAP_ENTRY enters the handler with the first synchronous trap that waits, else the first asynchronous one: TCAUSE,
TDETAIL, TVAL and TEPC are written, the pc is TVEC, its queue one shorter. FATAL_TRAP ends the task with status 8 and the
trap's code. STOP_REQUEST asks every strand of the gang. STOP_DEADLINE stops the strand with reason 2: the model does not
count the ticks of 13 R390 (log 63, a reading). The queue of synchronous traps is the model's own, for two that one bundle
raises (log 16). (rests on 13 R371, 13 R374, 13 R375, 13 R384, 13 R390, 06 R180, 03 R75, 03 R80) -/
def Obligations.CommitsTrapsAndStops : Prop :=
  ∀ (s : State) (st : Strand), s.core.strand = some st →
    let c := s.core
    (∀ after, c.wait = some (.commit after) → c.dead = 0 → c.frozen = false → c.ended = false → c.stopping = none → c.snap = none →
      s.horizonsPassed c = true → (after = .exit → c.syncq = [] ∧ c.trapq = []) → ∃ t, exec (.commitRelease c.id) s = .next t ∧ t.mem = s.mem ∧ t.core.inst.id = s.nextId ∧
        (∀ x ∈ t.core.trellis, x.committed = true) ∧
        (∀ a ∈ t.flight, a.core = c.id → a.inst = c.inst.id → a.held = false) ∧
        (∀ e ∈ t.effects, e.core = c.id → e.inst = c.inst.id → e.committed = true) ∧
        (after = .next → t.core.wait = none) ∧ (after = .exit → t.core.ended = true)) ∧
    (c.ended = true → c.idle = true → ∃ t, exec (.strandExitComplete c.id) s = .next t ∧ t.core.strand = none ∧
      t.mem = s.mem ∧ ∀ x, s.findTask st.task = some x → ∃ y, t.findTask st.task = some y ∧
        ∀ g ∈ y.gangs, g.idx = st.gang → st.lcore ∈ g.ended) ∧
    (∀ n d v, c.ended = false → c.trapq.length < 16 → ∃ t, exec (.asyncTrapArrival c.id n d v) s = .next t ∧
      t.core.trapq = c.trapq ++ [⟨n, d, v⟩] ∧ { t with core := c } = s) ∧
    (∀ r, s.trapTurn c = some r →
      (enters c r = true → ∃ t, exec (.trapEntry c.id) s = .next t ∧ t.core.pc = c.tvec.toNat ∧
        t.core.syncq = c.syncq.tail ∧ t.core.trapq = (if c.syncq = [] then c.trapq.tail else c.trapq) ∧
        t.core.tdetail = r.detail ∧ t.core.tval = r.val ∧ t.core.tepc = BitVec.ofNat 64 (c.pc % 2 ^ 32) ∧
        bitsAt t.core.tcause.toNat 0 8 = trapCode r.name ∧ bitAt t.core.tcause.toNat 35 = c.syncq.isEmpty ∧ t.mem = s.mem) ∧
      (enters c r = false → c.snap = none → ∀ x, s.findTask st.task = some x → x.status = 0 → ∃ t y,
        exec (.fatalTrap c.id) s = .next t ∧ t.findTask st.task = some y ∧ y.status = 8 ∧ y.detail = trapCode r.name)) ∧
    (∀ x g, s.findTask st.task = some x → x.gangs.find? (·.idx == st.gang) = some g → g.state = .stopping →
      c.ended = false → c.stop = false → ∃ t, exec (.stopRequest st.task st.gang) s = .next t ∧ t.core.stop = true ∧
        { t with core := c, parked := s.parked } = s) ∧
    (c.stop = true → c.ended = false → c.stopping = none → s.reserveSlots.isSome = true →
      ∃ t, exec (.stopDeadline c.id) s = .next t ∧ t.core.stopping = some 2 ∧ (c.xmRun = none → t.mem = s.mem))

/-- Every write and every clearing read of the window completes in every state and writes no vector, scalar or predicate
register; at a die that is down, or by an application core that is not there, it changes nothing. While nothing forbids it:
CTXCFG QW0, CTXMMU (on every die), an invalid access entry's QW0, the base of a replay list, a quota within the total, and
SAVEPOOL take the writable bits of the value; an enabled channel or port takes EN alone and counts nothing, which is a
reading (log 46). REVOKE invalidates every handle of the context on its cores, REVOKE_COMPLETE ends a revocation that is
over. ACCVIOL, VIOLOG1, DETCNT, PORTCNT and FABCNT answer and clear their counts. (The access entries are those of 04 R99,
SAVEPOOL is that of 13 R393.) (rests on 00 R11, 01 R44, 04 R90, 04 R100, 09 R245, 09 R249, 10 R287, 10 R296, 12 R353, 12
R358, 12 R361, 12 R362) -/
def Obligations.RegisterWindow : Prop :=
  ∀ (s : State) (d : DieId) (ctx : BitVec 4) (n k q off : Nat) (v : Word) (app : AppCore) (b : Bool), AllDies s →
    let up := s.down d = false
    let o := 0x2000 + ctx.toNat * 16
    (∀ i ∈ [Instr.ctxmmuWrite d ctx v, .accessTableWrite d n k q v app, .ppcfgWrite d n v app, .portcfgWrite d n v app,
        .ctxordWrite d ctx n v app, .detquotaWrite d ctx v app, .mirrorcfgWrite d n q v app, .savepoolWrite d v app,
        .accviolRead d, .violog1Read d, .detcntRead d, .portcntRead d n b, .fabcntRead d],
      (∃ t, exec i s = .next t ∧ t.core = s.core ∧ t.parked = s.parked ∧
        (i ≠ .accessTableWrite d n k q v app → t.mem = s.mem)) ∧
      (s.down d = true → exec i s = .next s)) ∧
    (s.appUp app = false → ∀ i ∈ [Instr.accessTableWrite d n k q v app, .ppcfgWrite d n v app, .portcfgWrite d n v app,
        .ctxordWrite d ctx n v app, .detquotaWrite d ctx v app, .mirrorcfgWrite d n q v app, .savepoolWrite d v app,
        .ctxcfgWrite ctx b v app, .registerWrite (some d) off v app, .registerWrite none off v app], exec i s = .next s) ∧
    (∀ i ∈ [Instr.ctxcfgWrite ctx b v app, .revoke ctx, .pfdone v, .registerWrite (some d) off v app, .registerWrite none off v app],
      ∃ t, exec i s = .next t ∧ (t.getCore s.core.id).sreg = s.core.sreg ∧ (t.getCore s.core.id).vreg = s.core.vreg ∧
        (t.getCore s.core.id).preg = s.core.preg) ∧
    (s.appUp app = true → s.rhoath.faultN = false → s.busyCtx ctx.toNat = false → (∀ j, j < 4 → bitAt v.toNat (8 * j + 7) = true →
        bitAt v.toNat (8 * j + 2) = false) →
      ∃ t, exec (.ctxcfgWrite ctx false v app) s = .next t ∧ cfgReg t o = Nat.land v.toNat 0x87878787) ∧
    (∃ t, exec (.revoke ctx) s = .next t ∧ (∀ st, s.core.strand = some st → st.ctx = ctx.toNat → ∀ r, hValid (t.core.h r) = false) ∧
      t.revokes = s.revokes ++ [(ctx.toNat, s.nextId)] ∧ t.mem = s.mem) ∧
    (∀ x, (s.revokes.find? fun x => x.1 == ctx.toNat && s.revokeOver ctx.toNat x.2) = some x →
      exec (.revokeComplete ctx) s = .next { s with revokes := s.revokes.erase x }) ∧
    (up →
      (s.busyCtx ctx.toNat = false → ∃ t, exec (.ctxmmuWrite d ctx v) s = .next t ∧
        ∀ e, t.reg e (0xA000 + ctx.toNat * 16) = Nat.land v.toNat 0xFFFFFFFFF8001) ∧
      (s.appUp app = true → n < 3 → k < 256 → bitAt v.toNat 63 = false → ∃ t, exec (.accessTableWrite d n k 0 v app) s = .next t ∧
        t.reg d (0x4000 + n * 0x2000 + k * 0x20) = Nat.land v.toNat 0x87F0000000FFFFE0) ∧
      (s.appUp app = true → n < 16 → bitAt (s.reg d (0xB000 + n * 0x20)) 0 = true →
        exec (.ppcfgWrite d n v app) s = .next (s.setReg d (0xB000 + n * 0x20) (s.reg d (0xB000 + n * 0x20) - 1 + v.toNat % 2))) ∧
      (s.appUp app = true → n < 2 → d.isMem = false → bitAt (s.reg d (0xC000 + n * 0x80)) 0 = true →
        exec (.portcfgWrite d n v app) s = .next (s.setReg d (0xC000 + n * 0x80) (s.reg d (0xC000 + n * 0x80) - 1 + v.toNat % 2))) ∧
      (s.appUp app = true → s.busyOn d ctx.toNat = false → exec (.ctxordWrite d ctx 2 v app) s =
        .next (s.setReg d (0xA210 + ctx.toNat * 0x20) (Nat.land v.toNat 0xFFFFFFFFFFFC0))) ∧
      (s.appUp app = true → s.busyOn d ctx.toNat = false → v.toNat % 2 ^ 17 +
          (((List.range 16).filter (· != ctx.toNat)).map fun c => s.reg d (0xA408 + c * 8)).sum ≤ 65536 →
        exec (.detquotaWrite d ctx v app) s = .next (s.setReg d (0xA408 + ctx.toNat * 8) (v.toNat % 2 ^ 17))) ∧
      (s.appUp app = true → (s.die d).slots = [] → exec (.savepoolWrite d v app) s = .next (s.setReg d 0xA500 (Nat.land v.toNat 0xFFFFFFF8000FF))) ∧
      (∀ x ∈ [(Instr.accviolRead d, 0x3F10, 0xFFFFFFFFFFFF), (.violog1Read d, 0x3F08, 0xFFFFFFFFFFFF), (.detcntRead d, 0xA400, 0)],
        exec x.1 s = .next { s.setReg d x.2.1 (Nat.land (s.reg d x.2.1) x.2.2) with
          reply := some (BitVec.ofNat 64 (s.reg d x.2.1)) }) ∧
      (d.isMem = false → n < 2 → exec (.portcntRead d n b) s =
        .next { s.setReg d (0xC010 + n * 0x80 + if b then 8 else 0) 0 with
          reply := some (BitVec.ofNat 64 (s.reg d (0xC010 + n * 0x80 + if b then 8 else 0))) }) ∧
      ∃ t, exec (.fabcntRead d) s = .next t ∧ t.reg d 0xD008 = 0 ∧
        t.reply = some (BitVec.ofNat 64 (s.reg d 0xD008 / 2 ^ 32 * 2 ^ 32 + s.robUsed d)))

/-- POWER_GOOD_BOOT completes in every state: the dies whose images in the board flash fail stay down, and all where the
images of both memory dies or that of Rhoath itself fail (log 102), no task is accepted, every byte of memory is zero. The
domains of a die leave and enter reset with their memories zero. RHOATH_UE and THERMAL_SHUTDOWN take every die down.
DIE_FAILOVER removes its die; where the twin is not removed and nothing is in flight, the twin has the registers of its
queues, and each task of them, or superstep task with a gang on it, that has no status yet waits again if not admitted,
starts again if restartable with its inputs mirrored, and else ends with DIE_LOST. The mailbox commands complete while a
memory die's channel is up, with their status in MBSTAT, whose BUSY is 1 while another waits. An SPDM request on a channel
that is up changes nothing but the reply, the free values and the session. LINK_RETRAIN of the first of the pending requests
counts its failures and applies its change, a width only while no frequency request stands; THERMAL moves the clock step by
one, down while the measured power is above the cap or the die is hot, up only within the cap. That an UNCORE_RESET_REQUEST
stands until what its uncore has accepted is answered is log 75, the queue of commands and the digests are log 78, both
readings. (rests on 01 R40, 01 R41, 14 R400, 14 R404, 14 R405, 14 R406, 14 R417, 14 R418, 14 R419, 14 R420, 14 R421, 14
R422) -/
def Obligations.RhoathEvents : Prop :=
  ∀ (s : State) (d : DieId) (flash : List (DieId × List Byte)) (x y z : Word) (n : Nat) (ch : SpdmPort) (code : Byte), AllDies s →
    let board : Rhoath := { s.rhoath with flash := flash ++ s.rhoath.flash }
    let bad := board.failing
    let dead := (bad.contains .md0 && bad.contains .md1) || !Config.signatureHolds (board.bootImage none)
    let status (i : Instr) (m : Nat) : Prop := ∃ t, exec i s = .next t ∧ cfgReg t 0x20 = (if s.rhoath.mbq = [] then 0 else 2 ^ 63) + m ∧
      t.core = s.core
    (∃ t, exec (.powerGoodBoot flash) s = .next t ∧ t.tasks = [] ∧ t.mem = [] ∧ ∀ e, t.down e = (dead || bad.contains e)) ∧
    (s.down d = true → s.rhoath.faultN = false → s.rhoath.recovering.contains d = false →
      ∃ t, exec (.uncoreLeaveReset d) s = .next t ∧ t.down d = false ∧ (t.die d).coresUp = false ∧
        ∀ a, a < dramSize d → memGet t.mem (dieBase d + a) = 0) ∧
    (s.down d = false → (s.die d).coresUp = false → ∃ t, exec (.coreDomainLeaveReset d) s = .next t ∧ (t.die d).coresUp = true ∧
      ∀ a, a < 0x10000000000 → memGet t.mem (dieBase d + 0x110000000000 + a) = 0) ∧
    (s.down d = false → ∃ t, exec (.uncoreResetRequest d) s = .next t ∧ (t.die d).coresUp = false ∧
      (t.down d = true ∨ Instr.uncoreResetRequest d ∈ t.inputs)) ∧
    (∀ i ∈ [Instr.rhoathUe, .thermalShutdown], ∃ t, exec i s = .next t ∧ t.rhoath.faultN = true ∧ ∀ e, t.down e = true) ∧
    (s.down d = false → (s.die d).removed = false → ∃ t, exec (.dieFailover d) s = .next t ∧ t.down d = true ∧
      (t.die d).removed = true) ∧
    (s.down d = false → (s.die d).removed = false → (s.die d.twin).removed = false → s.flight = [] →
      let f (i : TaskId) : TaskId := if i.die = d && !i.adopted then { i with adopted := true } else i
      (s.tasks.map fun v => f v.id).Nodup →
      ∃ t, exec (.dieFailover d) s = .next t ∧ (∀ q o, q < 64 → o < 0x40 → t.qreg d.twin (q + 64) o = s.qreg d q o) ∧
        ∀ u ∈ s.tasks, u.status = 0 → (homeOf u.id = d ∨ (u.isSuper = true ∧ ∃ g ∈ u.gangs, g.die = d)) →
          ∃ v, t.findTask (f u.id) = some v ∧ v.pkt = u.pkt ∧
            let again := v.status = 0 ∧ v.admitted = false ∧
              ∀ g ∈ v.gangs, g.state = .waiting ∧ g.cores = [] ∧ g.die = homeOf (f u.id)
            let restart := bitAt (u.q 2) 63 = true ∧ bitAt (u.q 4) 10 = true
            (u.admitted = false → again) ∧ (u.admitted = true → restart → again ∧ v.restarted = true) ∧
            (u.admitted = true → ¬ restart → v.status = 6 ∧ v.detail = d.code)) ∧
    (s.channel = true →
      (∀ i ∈ [Instr.ctxKey x, .clearRetired x, .recover x y z, .spdm x y z, .powerCap x], ∃ t, exec i s = .next t ∧ t.core = s.core) ∧
      (16 ≤ x.toNat → status (.ctxKey x) 1) ∧ (x.toNat < 16 → s.busyCtx x.toNat = true → status (.ctxKey x) 0xC) ∧
      (x.toNat < 16 → s.busyCtx x.toNat = false → status (.ctxKey x) 0) ∧
      (4 ≤ x.toNat → status (.clearRetired x) 1 ∧ status (.recover x y z) 1) ∧
      (x.toNat = d.code → status (.clearRetired x) (if (s.die d).coresUp then 0xC else 0)) ∧
      (x.toNat = d.code → s.rhoath.recovering.contains d = false →
        status (.recover x y z) (if (s.rhoathRead y.toNat z.toNat).isSome then 0xC else 1)) ∧
      (x.toNat < 300 ∨ 1173 < x.toNat → status (.powerCap x) 1) ∧
      (300 ≤ x.toNat → x.toNat ≤ 1173 → ∃ t, exec (.powerCap x) s = .next t ∧ t.rhoath.powerCap = x.toNat) ∧
      exec .mbueRead s = .next { s with
        reply := some (if s.rhoath.ue then 1 else 0), rhoath := { s.rhoath with ue := false } }) ∧
    (s.spdmUp ch = true →
      (∀ i ∈ [Instr.getVersion ch, .getCapabilities ch, .negotiateAlgorithms ch, .getDigests ch, .getCertificate ch n,
          .challenge ch n, .getMeasurements ch n, .keyExchange (ch, n), .finish ch, .endSession ch, .unsupportedRequest ch code],
        ∃ t, exec i s = .next t ∧ { t with replyData := s.replyData, free := s.free, rhoath := s.rhoath } = s) ∧
      (1 ≤ n → n ≤ 5 → ∃ t, exec (.getMeasurements ch n) s = .next t ∧
        t.replyData.take 32 = natBytes (s.rhoath.measure ((none :: DieId.all.map some).getD (n - 1) none)) 32) ∧
      (6 ≤ n → n ≤ 9 → ∃ t, exec (.getMeasurements ch n) s = .next t ∧
        t.replyData.take 32 = natBytes (Config.sm3 (s.die (DieId.all.getD (n - 6) .cd0)).directoryBytes) 32)) ∧
    (∀ e reqs change failed,
      let board : Rhoath := { s.rhoath with linkReqs := s.rhoath.linkReqs ++ reqs.map fun x => (n, x) }
      board.nextChange n = some change → reqs.all (requestOk n) = true → (linkEnds n).find? (fun d => !s.down d) = some e →
      n < s.rhoath.retrainFails.length →
      (∀ w, change = .width w → ∀ x ∈ board.linkReqs, x.1 = n → isFreq x.2 = false) ∧
      ∃ t, exec (.linkRetrain n reqs failed) s = .next t ∧ t.core = s.core ∧
        (t.rhoath.retrainFails.getD n 0 = if failed then s.rhoath.retrainFails.getD n 0 + 1 else 0) ∧
        (failed = false → (∀ w, change = .width w → t.rhoath.widths.getD n 0 = w) ∧
          ∀ c f, change = .freq c f → t.rhoath.freqs.getD c.code 0 = f)) ∧
    (s.down d = false → ∀ w : Nat,
      ((s.die d).clockStep < 3 →
        ∀ h, (h = .hot w ∨ h = .hotter w ∨ (h = .overCap w ∧ s.rhoath.powerCap < w)) →
          ∃ t, exec (.thermal d h) s = .next t ∧ (t.die d).clockStep = (s.die d).clockStep + 1 ∧ t.rhoath.power = w) ∧
      (0 < (s.die d).clockStep → (s.die d).clockStep ≤ 4 → w ≤ s.rhoath.powerCap →
        ∃ t, exec (.thermal d (.cool w)) s = .next t ∧ (t.die d).clockStep = (s.die d).clockStep - 1 ∧ t.rhoath.power = w))

/-- The state after reset: every die is up with its cores, no strand runs, no task is accepted, nothing is in flight, every
byte of memory reads zero, the routine directory holds the sixteen shipped routines, and the invariants of the statements
hold: the memory is canonical, the four dies stand in order, access numbers are fresh. That the module stands booted, its
registers before a first strand, and VERSION 1 of the routines are choices of the model (log 1, 86, 12). (rests on 00 R10,
01 R41, 11 R315) -/
def Obligations.ResetState : Prop :=
  let s := State.reset
  (∀ d, s.down d = false ∧ (s.die d).coresUp = true ∧ (s.die d).removed = false ∧ (s.die d).directory = shipped) ∧
  (∀ a, memGet s.mem a = 0) ∧ (∀ c, (s.getCore c).strand = none ∧ ∀ r, (s.getCore c).s r = 0) ∧ s.tasks = [] ∧ s.flight = [] ∧
  s.walks = [] ∧ s.effects = [] ∧ Sys2Proof.Safety.MemoryOk s ∧ AllDies s ∧ Fresh s

/-- Where the issue of a bundle is the one event that can come next, step is exec of BUNDLE_ISSUE, followed by a free
passage of frame ticks (log 5). The bytes of a bundle of one slot at the pc, in a readable page whose memory answers, is no
bank being switched and is not mirrored elsewhere, behind a walk that waits for nothing (12 R349, log 90), are found as that
bundle with the instruction its slot field decodes to. BUNDLE_ISSUE of such a bundle, with nothing pending and no trap, runs
exec of the instruction on the core with its issue context set, and the core goes to the next bundle, or where the
instruction has sent it; one tick passes. BUNDLE_ISSUE completes: on a tick without issue that is left it passes one; for a
bundle of NOP, ADD, SUB, AND, OR or XOR with nothing pending it goes to the next bundle, one tick later, with the result
pending for the next tick and no register, flag or byte of memory changed yet. The choice among several events is the
model's (log 2). (rests on 05 R101, 05 R103, 05 R105, 05 R116, 06 R142, 06 R151) -/
def Obligations.StepRunsDecoded : Prop :=
  ∀ (s : State) (st : Strand) (sl : Slot) (i : Instr), s.core.strand = some st →
    let c := s.core
    let n := 4 + 2 * sl.halfwords
    let b : Bundle := { len := 2 + sl.halfwords, rep := 0, sync := false, stop := true, join := false, ops := [(sl, i)], rnd := .rne
                        sm := .none }
    let ictx : ICtx := { rnd := .rne, sm := .none, addr := none, npc := c.pc + n, moved := false, trap := none, stall := none }
    let inst := if sl = .ct then { c.inst with horizon := max c.inst.horizon (c.tick + 16) } else c.inst
    let s1 : State := { s with core := { c with ictx := ictx, inst := inst } }
    (∀ e : Event, s.nextEvents = [e] → e s = exec (.bundleIssue c.id) s → step s = afterEvent (exec (.bundleIssue c.id) s)) ∧
    (∀ w l, w < 2 ^ (16 * sl.halfwords) → decodeSlot sl.kind w = .ok i → st.priv = true → c.pc + n ≤ st.codeSize →
      (s.lookup c.id st.ctx (st.codeVa + c.pc)).leaf = some l → (s.lookup c.id st.ctx (st.codeVa + c.pc + 4)).leaf = some l → l.r = true →
      (st.codeVa + c.pc) % pageBytes l.size + n ≤ pageBytes l.size →
      (∀ o ∈ [0, 4], (s.directReads c.id.die (s.lookupDies c.id st.ctx (st.codeVa + c.pc + o))).isSome = true) →
      ∀ pa, pa = l.base + (st.codeVa + c.pc) % pageBytes l.size →
        (∀ x, pa ≤ x → x < pa + n → s.route x = x ∧ s.outOfReach x = none ∧ s.switching x = false) →
        memBytes s.mem pa n = natBytes (oneSlotBundle sl w) n → s.find st = .bundle b) ∧
    (s.find st = .bundle b → i.armed = false → isAmo i = false → isDrain i = false → commits i = false → afterOthers i = false →
      c.runs = true → c.wait = none → c.dead = 0 → c.issue = 0 → c.pend = [] → c.arb = [] → c.latch = [] → c.grp = ⟨0, []⟩ →
      c.loops = [] → st.pauses = [] →
      ∀ t, exec i s1 = .next t → t.core.ictx.trap = none → t.core.ictx.stall = none → t.core.strand.isSome = true →
        t.core.loops = [] → t.core.injArmed = false →
        ∃ u, exec (.bundleIssue c.id) s = .next u ∧ { u with core := t.core } = t ∧
          u.core.pc = (if t.core.ictx.moved then t.core.pc else t.core.ictx.npc) ∧ u.core.issue = 0 ∧ u.core.tick = t.core.tick + 1 ∧
          { u.core with
            pc := t.core.pc, issue := t.core.issue, tick := t.core.tick, wall := t.core.wall, issueCnt := t.core.issueCnt
            issueNo := t.core.issueNo, atCommit := t.core.atCommit, grp := t.core.grp, implied := t.core.implied
            efmt := t.core.efmt, efmtPend := t.core.efmtPend, inst := t.core.inst, latch := t.core.latch
            ictx := t.core.ictx, tlb := t.core.tlb } = t.core) ∧
    (c.runs = true → c.wait = none → c.pend = [] → c.arb = [] →
      let goes (l : List Pend) : Prop := ∃ u, exec (.bundleIssue c.id) s = .next u ∧ u.core.pend = l ∧ u.core.pc = c.pc + n ∧
        u.core.issue = 0 ∧ u.core.tick = c.tick + 1 ∧ u.core.sreg = c.sreg ∧ u.core.vreg = c.vreg ∧ u.core.preg = c.preg ∧
        u.core.hreg = c.hreg ∧ u.core.kreg = c.kreg ∧ u.core.flags = c.flags ∧ { u with core := c } = s
      (0 < c.dead → ∃ u, exec (.bundleIssue c.id) s = .next u ∧ u.core.dead = c.dead - 1 ∧ u.core.tick = c.tick + 1 ∧
        u.core.pc = c.pc ∧ { u with core := c } = s) ∧
      (c.dead = 0 → c.issue = 0 → c.latch = [] → c.grp = ⟨0, []⟩ → c.loops = [] → st.pauses = [] → c.injArmed = false →
        s.find st = .bundle b →
        (i = .nop → goes []) ∧
        (∀ (d a r : SReg) (v : Word),
          (i = .add d a r ∧ v = c.s a + c.s r) ∨ (i = .sub d a r ∧ v = c.s a - c.s r) ∨ (i = .and d a r ∧ v = c.s a &&& c.s r) ∨
          (i = .or d a r ∧ v = c.s a ||| c.s r) ∨ (i = .xor d a r ∧ v = c.s a ^^^ c.s r) →
          goes [{ due := c.tick + 1, no := c.issueNo, wr := .s d v, fl := 0, walk := none }])))

/-- One word of each slot kind, with its fields written out bit by bit from the tables of chapter 05, decodes to its
instruction. (rests on 05 R107, 05 R108, 05 R109, 05 R110, 05 R111) -/
def Obligations.DecodeWords : Prop :=
  (∀ x ∈ [((0x2D4980 : Nat), Instr.add 5 42 19), (0x502D5FFE, .addi 5 42 (-2)), (0x7C2D4987, .fcmp .f64 .le 5 42 19)],
    decodeSlot .scalar x.1 = .ok x.2) ∧
  (∀ x ∈ [((0x40FFFFC : Nat), Instr.br (-4)), (0x12A03FFF, .jmp 42 (-1)), (0x30000000, .commit)], decodeSlot .control x.1 = .ok x.2) ∧
  (∀ x ∈ [((0x1D540A0001 : Nat), Instr.vadd .f32 3 21 10 5 true), (0x31D55CA1001, .vfma .f16 3 21 10 28 5 true)],
    decodeSlot .vector x.1 = .ok x.2) ∧
  decodeSlot .special 0xC750508 = .ok (.frsq .f16 3 21 5 true) ∧
  decodeSlot .memory 0x10D57FFFFF8 = .ok (.ld 5 33 42 (-8) true (-1)) ∧
  decodeSlot .matrix 0xD63C37F = .ok (.mcall 0x2B ⟨7, 33, 5⟩ true (-1)) ∧
  decodeSlot .copy 0x23C36B5273FFFFF = .ok (.cpy ⟨7, 33, 5⟩ 21 42 19 9 true (-1)) ∧
  (decodeSlot .scalar 0xAA000000).toOption = none

/-- For every slot kind and every well-formed instruction that the kind can hold, the word that the encoder gives decodes to
the same instruction, and fits the field of its slot. (rests on 05 R106, 05 R107, 05 R108, 05 R109, 05 R110, 05 R111) -/
def Obligations.EncodeThenDecode : Prop :=
  ∀ (k : SlotKind) (i : Instr) (w : Nat), i.wf = true → encodeSlot k i = some w →
    decodeSlot k w = .ok i ∧ w < 2 ^ (16 * k.halfwords)

/-- For every slot kind and every word of its width that decodes to an instruction, the instruction is well formed and its
encoding is that word. (rests on 05 R106, 05 R107, 05 R108, 05 R109, 05 R110, 05 R111) -/
def Obligations.DecodeThenEncode : Prop :=
  ∀ (k : SlotKind) (w : Nat) (i : Instr), w < 2 ^ (16 * k.halfwords) → decodeSlot k w = .ok i →
    i.wf = true ∧ encodeSlot k i = some w

/-- From every state whose memory is canonical (addresses rising, no listed zero), a step that answers a next state leaves a
memory that is canonical. The form is the model's choice (log 7). (rests on 01 R41, 14 R400) -/
def Obligations.StepKeepsMemoryCanonical : Prop :=
  ∀ s t : State, Sys2Proof.Safety.MemoryOk s → step s = .next t → Sys2Proof.Safety.MemoryOk t

/-- From every state in which the four dies stand in the order of their codes, a step that answers a next state leaves them
so; the same of the numbering of accesses: none in flight has a number that is still to be given. The numbering is the
model's own (log 2). (rests on 01 R30, 12 R347) -/
def Obligations.StepKeepsDiesAndNumbers : Prop :=
  ∀ s t : State, step s = .next t → (AllDies s → AllDies t) ∧ (Fresh s → Fresh t)
end

