-- ==== Sys2Proof/Laws/Decode.lean ====
section
/-! SUPPORT. Fields of a number that is joined from parts, as the encoder joins them and the decoder takes them. -/

namespace Sys2Proof

theorem bitsAt_lt (w lo n : Nat) : bitsAt w lo n < 2 ^ n := Nat.mod_lt _ (Nat.two_pow_pos n)

/-- A field above the place where two numbers are joined is a field of the upper one. -/
theorem bitsAt_join_hi (a : Nat) {b k lo n : Nat} (h : b < 2 ^ k) (hl : k ≤ lo) :
    bitsAt (a * 2 ^ k + b) lo n = bitsAt a (lo - k) n := by
  obtain ⟨j, rfl⟩ := Nat.exists_eq_add_of_le hl
  rw [bitsAt, bitsAt, pow_add, ← Nat.div_div_eq_div_mul, Nat.add_comm (a * 2 ^ k), Nat.add_mul_div_right _ _ (Nat.two_pow_pos k),
    Nat.div_eq_of_lt h, Nat.zero_add, Nat.add_sub_cancel_left]

/-- A field below that place is a field of the lower one. -/
theorem bitsAt_join_lo (a b : Nat) {k lo n : Nat} (hl : lo + n ≤ k) : bitsAt (a * 2 ^ k + b) lo n = bitsAt b lo n := by
  obtain ⟨j, rfl⟩ := Nat.exists_eq_add_of_le hl
  have : a * 2 ^ (lo + n + j) = 2 ^ lo * (2 ^ n * (a * 2 ^ j)) := by ring
  rw [bitsAt, bitsAt, this, Nat.add_comm, Nat.add_mul_div_left _ _ (Nat.two_pow_pos lo), Nat.add_mul_mod_self_left]

/-- A whole number that fits is its own lowest field. -/
theorem bitsAt_self {x n : Nat} (h : x < 2 ^ n) : bitsAt x 0 n = x := by simp [bitsAt, Nat.mod_eq_of_lt h]

/-- The field of a bit vector of its own width. -/
theorem bitsAt_toNat {n : Nat} (x : BitVec n) : bitsAt x.toNat 0 n = x.toNat := bitsAt_self x.isLt

/-- The bits of a number that is nothing but a condition. -/
theorem b2n_lt (b : Bool) : b2n b < 2 := by cases b <;> decide

end Sys2Proof
end

