-- ==== Sys2Proof/Laws/Memory.lean ====
section
/-! SUPPORT. Laws of memory: read after write, what a write leaves alone, and that every operation keeps the canonical form
(log 7). -/

namespace Sys2Proof.Machine

/-! ## The canonical form -/

theorem Memory.wfFrom_cons (lo a : Nat) (x : Byte) (m : List Host.Cell) :
    Memory.wfFrom lo ((a, x) :: m) = true ↔ lo ≤ a ∧ x ≠ 0 ∧ Memory.wfFrom (a + 1) m = true := by
  simp [Memory.wfFrom, and_assoc]

theorem Memory.wfFrom_mono {lo lo' : Nat} {m : List Host.Cell} (h : lo' ≤ lo) (w : Memory.wfFrom lo m = true) :
    Memory.wfFrom lo' m = true := by
  cases m with
  | nil => rfl
  | cons c r => obtain ⟨a, x⟩ := c; rw [wfFrom_cons] at *; exact ⟨by omega, w.2⟩

/-- Nothing is listed below the bound of the form. -/
theorem memGet_below {lo a : Nat} {m : List Host.Cell} (w : Memory.wfFrom lo m = true) (h : a < lo) : memGet m a = 0 := by
  induction m generalizing lo with
  | nil => rfl
  | cons c r ih =>
    obtain ⟨b, x⟩ := c
    rw [Memory.wfFrom_cons] at w
    rw [memGet, if_neg (by omega)]
    exact ih w.2.2 (by omega)

/-- Equal readings mean equal memories: the form is canonical. -/
theorem Memory.ext {lo : Nat} {m n : List Host.Cell} (w : Memory.wfFrom lo m = true) (v : Memory.wfFrom lo n = true)
    (h : ∀ a, memGet m a = memGet n a) : m = n := by
  induction m generalizing lo n with
  | nil =>
    cases n with
    | nil => rfl
    | cons c r =>
      obtain ⟨b, y⟩ := c
      rw [wfFrom_cons] at v
      have := h b
      rw [memGet, memGet, if_pos rfl] at this
      exact absurd this.symm v.2.1
  | cons c r ih =>
    obtain ⟨a, x⟩ := c
    have w' := (wfFrom_cons lo a x r).1 w
    cases n with
    | nil =>
      have := h a
      rw [memGet, memGet, if_pos rfl] at this
      exact absurd this w'.2.1
    | cons d q =>
      obtain ⟨b, y⟩ := d
      have v' := (wfFrom_cons lo b y q).1 v
      have ha := h a
      have hb := h b
      simp only [memGet, if_true] at ha hb
      have hab : a = b := by
        rcases Nat.lt_trichotomy a b with l | e | g
        · rw [if_neg (by omega), memGet_below v'.2.2 (by omega)] at ha
          exact absurd ha w'.2.1
        · exact e
        · rw [if_neg (by omega), memGet_below w'.2.2 (by omega)] at hb
          exact absurd hb.symm v'.2.1
      subst hab
      rw [if_pos rfl] at ha
      subst ha
      congr 1
      refine ih w'.2.2 v'.2.2 fun k => ?_
      by_cases hk : k ≤ a
      · rw [memGet_below w'.2.2 (by omega), memGet_below v'.2.2 (by omega)]
      · have := h k
        rwa [memGet, memGet, if_neg (by omega), if_neg (by omega)] at this

/-! ## One byte -/

/-- A write leaves every other byte alone, in any list. -/
theorem memGet_memSet_ne (m : List Host.Cell) (a b : Nat) (x : Byte) (h : b ≠ a) : memGet (memSet m a x) b = memGet m b := by
  induction m with
  | nil => unfold memSet; split <;> simp [memGet, h.symm]
  | cons c r ih =>
    obtain ⟨k, y⟩ := c
    unfold memSet
    split
    · split <;> simp [memGet, h.symm]
    · split
      · rename_i _ e
        subst e
        split <;> simp [memGet, h.symm]
      · simp only [memGet, ih]

/-- The byte written is the byte read. -/
theorem memGet_memSet_self {lo : Nat} {m : List Host.Cell} (w : Memory.wfFrom lo m = true) (a : Nat) (x : Byte) :
    memGet (memSet m a x) a = x := by
  induction m generalizing lo with
  | nil =>
    unfold memSet
    split
    · rename_i h; exact h.symm
    · simp [memGet]
  | cons c r ih =>
    obtain ⟨k, y⟩ := c
    rw [Memory.wfFrom_cons] at w
    unfold memSet
    split
    · split
      · rename_i h e
        rw [memGet, if_neg (by omega), memGet_below w.2.2 (by omega)]; exact e.symm
      · simp [memGet]
    · split
      · rename_i _ e
        subst e
        split
        · rename_i e; rw [memGet_below w.2.2 (by omega)]; exact e.symm
        · simp [memGet]
      · rename_i h1 h2
        rw [memGet, if_neg (Ne.symm h2)]
        exact ih w.2.2

theorem memSet_wf {lo : Nat} {m : List Host.Cell} (w : Memory.wfFrom lo m = true) {a : Nat} (h : lo ≤ a) (x : Byte) :
    Memory.wfFrom lo (memSet m a x) = true := by
  induction m generalizing lo with
  | nil =>
    unfold memSet
    split
    · rfl
    · rename_i e; exact (Memory.wfFrom_cons lo a x []).2 ⟨h, e, rfl⟩
  | cons c r ih =>
    obtain ⟨k, y⟩ := c
    have w' := (Memory.wfFrom_cons lo k y r).1 w
    unfold memSet
    split
    · split
      · exact w
      · rename_i e
        exact (Memory.wfFrom_cons ..).2 ⟨h, e, (Memory.wfFrom_cons ..).2 ⟨by omega, w'.2⟩⟩
    · split
      · rename_i _ e
        subst e
        split
        · exact Memory.wfFrom_mono (by omega) w'.2.2
        · rename_i e; exact (Memory.wfFrom_cons ..).2 ⟨h, e, w'.2.2⟩
      · rename_i h1 h2
        exact (Memory.wfFrom_cons ..).2 ⟨w'.1, w'.2.1, ih w'.2.2 (by omega)⟩

/-! ## Several bytes -/

theorem memPut_wf {m : List Host.Cell} (w : Memory.wf m = true) (a v n : Nat) : Memory.wf (memPut m a v n) = true := by
  induction n generalizing a v with
  | zero => exact w
  | succ n ih => exact memSet_wf (ih (a + 1) (v / 256)) (Nat.zero_le a) _

theorem memPutBytes_wf {m : List Host.Cell} (w : Memory.wf m = true) (a : Nat) (l : List Byte) :
    Memory.wf (memPutBytes m a l) = true := by
  induction l generalizing a with
  | nil => exact w
  | cons x r ih => exact memSet_wf (ih (a + 1)) (Nat.zero_le a) _

theorem memGet_memPut_out (m : List Host.Cell) (a v n b : Nat) (h : b < a ∨ a + n ≤ b) :
    memGet (memPut m a v n) b = memGet m b := by
  induction n generalizing a v with
  | zero => rfl
  | succ n ih => rw [memPut, memGet_memSet_ne _ _ _ _ (by omega), ih _ _ (by omega)]

theorem memGet_memPutBytes_out (m : List Host.Cell) (a : Nat) (l : List Byte) (b : Nat) (h : b < a ∨ a + l.length ≤ b) :
    memGet (memPutBytes m a l) b = memGet m b := by
  induction l generalizing a with
  | nil => rfl
  | cons x r ih =>
    rw [List.length_cons] at h
    rw [memPutBytes, memGet_memSet_ne _ _ _ _ (by omega), ih _ (by omega)]

theorem memGet_memPutBytes_in {m : List Host.Cell} (w : Memory.wf m = true) (a : Nat) (l : List Byte) (i : Nat)
    (h : i < l.length) : memGet (memPutBytes m a l) (a + i) = l[i] := by
  induction l generalizing a i with
  | nil => exact absurd h (Nat.not_lt_zero _)
  | cons x r ih =>
    rw [memPutBytes]
    cases i with
    | zero => exact memGet_memSet_self (memPutBytes_wf w _ _) a x
    | succ i =>
      rw [memGet_memSet_ne _ _ _ _ (by omega), show a + (i + 1) = a + 1 + i by omega]
      exact ih (a + 1) i (by simpa using h)

/-- A number is stored as its little-endian bytes (00 R5). -/
theorem memPut_eq_bytes (m : List Host.Cell) (a v n : Nat) : memPut m a v n = memPutBytes m a (natBytes v n) := by
  induction n generalizing a v with
  | zero => rfl
  | succ n ih => rw [memPut, natBytes, memPutBytes, ih]

@[simp] theorem natBytes_length (v n : Nat) : (natBytes v n).length = n := by
  induction n generalizing v with
  | zero => rfl
  | succ n ih => simp [natBytes, ih]

@[simp] theorem memBytes_length (m : List Host.Cell) (a n : Nat) : (memBytes m a n).length = n := by
  induction n generalizing a with
  | zero => rfl
  | succ n ih => simp [memBytes, ih]

theorem memBytes_congr {m m' : List Host.Cell} (a n : Nat) (h : ∀ i, i < n → memGet m (a + i) = memGet m' (a + i)) :
    memBytes m a n = memBytes m' a n := by
  induction n generalizing a with
  | zero => rfl
  | succ n ih =>
    rw [memBytes, memBytes, show memGet m a = memGet m' a from h 0 (by omega)]
    congr 1
    exact ih (a + 1) fun i hi => by have := h (i + 1) (by omega); rwa [show a + (i + 1) = a + 1 + i by omega] at this

theorem memNat_congr {m m' : List Host.Cell} (a n : Nat) (h : ∀ i, i < n → memGet m (a + i) = memGet m' (a + i)) :
    memNat m a n = memNat m' a n := by
  induction n generalizing a with
  | zero => rfl
  | succ n ih =>
    rw [memNat, memNat, show memGet m a = memGet m' a from h 0 (by omega)]
    rw [ih (a + 1) fun i hi => by have := h (i + 1) (by omega); rwa [show a + (i + 1) = a + 1 + i by omega] at this]

theorem memBytes_memPutBytes {m : List Host.Cell} (w : Memory.wf m = true) (a : Nat) (l : List Byte) :
    memBytes (memPutBytes m a l) a l.length = l := by
  induction l generalizing a with
  | nil => rfl
  | cons x r ih =>
    rw [List.length_cons, memBytes, memPutBytes, memGet_memSet_self (memPutBytes_wf w _ _)]
    congr 1
    rw [memBytes_congr (m' := memPutBytes m (a + 1) r) (a + 1) r.length fun i _ => memGet_memSet_ne _ _ _ _ (by omega)]
    exact ih (a + 1)

theorem bytesNat_memBytes (m : List Host.Cell) (a n : Nat) : bytesNat (memBytes m a n) = memNat m a n := by
  induction n generalizing a with
  | zero => rfl
  | succ n ih => rw [memBytes, bytesNat, memNat, ih]

theorem memNat_lt (m : List Host.Cell) (a n : Nat) : memNat m a n < 2 ^ (8 * n) := by
  induction n generalizing a with
  | zero => simp [memNat]
  | succ n ih =>
    have h1 := ih (a + 1)
    have h2 := (memGet m a).isLt
    rw [memNat, show 8 * (n + 1) = 8 * n + 8 by omega, Nat.pow_add]
    omega

theorem bytesNat_natBytes (v n : Nat) : bytesNat (natBytes v n) = v % 2 ^ (8 * n) := by
  induction n generalizing v with
  | zero => simp [natBytes, bytesNat, Nat.mod_one]
  | succ n ih =>
    rw [natBytes, bytesNat, ih, BitVec.toNat_ofNat, show 8 * (n + 1) = 8 + 8 * n by omega, Nat.pow_add, Nat.mod_mul]

/-! ## Ranges -/

theorem filter_wfFrom {lo : Nat} {m : List Host.Cell} (w : Memory.wfFrom lo m = true) (p : Host.Cell → Bool) :
    Memory.wfFrom lo (m.filter p) = true := by
  induction m generalizing lo with
  | nil => rfl
  | cons c r ih =>
    obtain ⟨a, x⟩ := c
    have w' := (Memory.wfFrom_cons lo a x r).1 w
    rw [List.filter_cons]
    split
    · exact (Memory.wfFrom_cons ..).2 ⟨w'.1, w'.2.1, ih w'.2.2⟩
    · exact Memory.wfFrom_mono (by omega) (ih w'.2.2)

theorem memZero_wf {m : List Host.Cell} (w : Memory.wf m = true) (a n : Nat) : Memory.wf (memZero m a n) = true :=
  filter_wfFrom w _

theorem memGet_filter_addr (m : List Host.Cell) (p : Nat → Bool) (b : Nat) :
    memGet (m.filter fun c => p c.1) b = if p b then memGet m b else 0 := by
  induction m with
  | nil => simp [memGet]
  | cons c r ih =>
    obtain ⟨a, x⟩ := c
    rw [List.filter_cons]
    by_cases hp : p a = true
    · rw [if_pos hp, memGet, memGet, ih]
      by_cases e : a = b
      · subst e; simp [hp]
      · simp [e]
    · rw [if_neg hp, ih, memGet]
      by_cases e : a = b
      · subst e; simp [hp]
      · simp [e]

theorem memGet_memZero (m : List Host.Cell) (a n b : Nat) :
    memGet (memZero m a n) b = if a ≤ b ∧ b < a + n then 0 else memGet m b := by
  unfold memZero
  rw [memGet_filter_addr m (fun k => k < a || a + n ≤ k) b]
  by_cases h : a ≤ b ∧ b < a + n
  · rw [if_pos h, if_neg (by simp; omega)]
  · rw [if_neg h, if_pos (by simp; omega)]

/-- Two canonical lists one above the other make a canonical list. -/
theorem append_wfFrom {lo mid : Nat} {m n : List Host.Cell} (w : Memory.wfFrom lo m = true) (v : Memory.wfFrom mid n = true)
    (h : ∀ c ∈ m, c.1 < mid) (hl : lo ≤ mid) : Memory.wfFrom lo (m ++ n) = true := by
  induction m generalizing lo with
  | nil => exact Memory.wfFrom_mono hl v
  | cons c r ih =>
    obtain ⟨a, x⟩ := c
    have w' := (Memory.wfFrom_cons lo a x r).1 w
    have ha := h (a, x) (List.mem_cons_self ..)
    exact (Memory.wfFrom_cons ..).2 ⟨w'.1, w'.2.1, ih w'.2.2 (fun c hc => h c (List.mem_cons_of_mem _ hc)) ha⟩

theorem shift_wfFrom {lo a b : Nat} {m : List Host.Cell} (w : Memory.wfFrom lo m = true) (ha : ∀ c ∈ m, a ≤ c.1) :
    Memory.wfFrom (lo - a + b) (m.map fun c => (c.1 - a + b, c.2)) = true := by
  induction m generalizing lo with
  | nil => rfl
  | cons c r ih =>
    obtain ⟨k, x⟩ := c
    have w' := (Memory.wfFrom_cons lo k x r).1 w
    have hk := ha (k, x) (List.mem_cons_self ..)
    refine (Memory.wfFrom_cons ..).2 ⟨by omega, w'.2.1, ?_⟩
    exact Memory.wfFrom_mono (by simp only at hk; omega) (ih w'.2.2 fun c hc => ha c (List.mem_cons_of_mem _ hc))

theorem filter_wfFrom_ge {m : List Host.Cell} (w : Memory.wf m = true) (k : Nat) :
    Memory.wfFrom k (m.filter fun c => k ≤ c.1) = true := by
  suffices h : ∀ lo, Memory.wfFrom lo m = true → Memory.wfFrom (max lo k) (m.filter fun c => k ≤ c.1) = true from
    Memory.wfFrom_mono (Nat.le_max_right 0 k) (h 0 w)
  clear w
  induction m with
  | nil => exact fun _ _ => rfl
  | cons c r ih =>
    intro lo w
    obtain ⟨a, x⟩ := c
    have w' := (Memory.wfFrom_cons lo a x r).1 w
    rw [List.filter_cons]
    split
    · rename_i h
      have h : k ≤ a := by simpa using h
      refine (Memory.wfFrom_cons ..).2 ⟨by omega, w'.2.1, Memory.wfFrom_mono (by omega) (ih (a + 1) w'.2.2)⟩
    · exact Memory.wfFrom_mono (by omega) (ih (a + 1) w'.2.2)

theorem memMove_wf {m : List Host.Cell} (w : Memory.wf m = true) (a n b : Nat) : Memory.wf (memMove m a n b) = true := by
  unfold memMove
  rw [List.append_assoc]
  have src : Memory.wfFrom b ((m.filter fun c => a ≤ c.1 && c.1 < a + n).map fun c => (c.1 - a + b, c.2)) = true := by
    have h := shift_wfFrom (a := a) (b := b) (filter_wfFrom (p := fun c => a ≤ c.1 && c.1 < a + n) w)
      (by intro c hc; have := (List.mem_filter.1 hc).2; simp at this; exact this.1)
    rw [Nat.zero_sub, Nat.zero_add] at h
    exact h
  refine append_wfFrom (mid := b) (filter_wfFrom w _) ?_ ?_ (Nat.zero_le b)
  · refine append_wfFrom (mid := b + n) src (filter_wfFrom_ge w (b + n)) ?_ (by omega)
    intro c hc
    obtain ⟨d, hd, rfl⟩ := List.mem_map.1 hc
    have := (List.mem_filter.1 hd).2
    simp at this
    simp only
    omega
  · intro c hc
    simpa using (List.mem_filter.1 hc).2

theorem memGet_append (m n : List Host.Cell) (b : Nat) :
    memGet (m ++ n) b = if m.any (·.1 == b) then memGet m b else memGet n b := by
  induction m with
  | nil => rfl
  | cons c r ih =>
    obtain ⟨a, x⟩ := c
    rw [List.cons_append, memGet, memGet, ih, List.any_cons]
    by_cases h : a = b <;> simp [h]

theorem memGet_none {m : List Host.Cell} {b : Nat} (h : ∀ c ∈ m, c.1 ≠ b) : memGet m b = 0 := by
  induction m with
  | nil => rfl
  | cons c r ih =>
    obtain ⟨a, x⟩ := c
    rw [memGet, if_neg (h (a, x) (List.mem_cons_self ..)), ih fun c hc => h c (List.mem_cons_of_mem _ hc)]

theorem memGet_shift {a b : Nat} {m : List Host.Cell} (ha : ∀ c ∈ m, a ≤ c.1) (k : Nat) :
    memGet (m.map fun c => (c.1 - a + b, c.2)) (b + k) = memGet m (a + k) := by
  induction m with
  | nil => rfl
  | cons c r ih =>
    obtain ⟨j, x⟩ := c
    have hj := ha (j, x) (List.mem_cons_self ..)
    simp only at hj
    rw [List.map_cons, memGet, memGet, ih fun c hc => ha c (List.mem_cons_of_mem _ hc)]
    by_cases h : j = a + k
    · rw [if_pos h, if_pos (by simp only; omega)]
    · rw [if_neg h, if_neg (by simp only; omega)]

/-- The bytes of the moved range are those of its source, and no byte outside it changes. -/
theorem memGet_memMove (m : List Host.Cell) (a n b k : Nat) :
    memGet (memMove m a n b) k = if b ≤ k ∧ k < b + n then memGet m (a + (k - b)) else memGet m k := by
  unfold memMove
  have low : ∀ c ∈ m.filter (fun c => c.1 < b), c.1 < b := fun c hc => by simpa using (List.mem_filter.1 hc).2
  have hi : ∀ c ∈ m.filter (fun c => b + n ≤ c.1), b + n ≤ c.1 := fun c hc => by simpa using (List.mem_filter.1 hc).2
  have ge : ∀ c ∈ m.filter (fun c => a ≤ c.1 && c.1 < a + n), a ≤ c.1 ∧ c.1 < a + n := fun c hc => by
    simpa using (List.mem_filter.1 hc).2
  have mid : ∀ c ∈ (m.filter fun c => a ≤ c.1 && c.1 < a + n).map (fun c => (c.1 - a + b, c.2)), b ≤ c.1 ∧ c.1 < b + n :=
    fun c hc => by
      obtain ⟨d, hd, rfl⟩ := List.mem_map.1 hc
      have := ge d hd
      simp only
      omega
  rw [List.append_assoc, memGet_append, memGet_append]
  by_cases h : b ≤ k ∧ k < b + n
  · rw [if_pos h, if_neg (by
      simp only [Bool.not_eq_true, List.any_eq_false, beq_iff_eq]
      intro c hc; have := low c hc; omega)]
    have hs := memGet_shift (b := b) (fun c hc => (ge c hc).1) (k - b)
    rw [show b + (k - b) = k by omega] at hs
    have hf := memGet_filter_addr m (fun j => a ≤ j && j < a + n) (a + (k - b))
    rw [if_pos (by simp; omega)] at hf
    split
    · rw [hs, hf]
    · rename_i hn
      rw [memGet_none (m := m.filter fun c => b + n ≤ c.1) fun c hc => by have := hi c hc; omega, ← hf, ← hs]
      refine (memGet_none fun c hc e => hn ?_).symm
      exact List.any_eq_true.2 ⟨c, hc, by simpa using e⟩
  · rw [if_neg h]
    have hl := memGet_filter_addr m (fun j => j < b) k
    have hh := memGet_filter_addr m (fun j => b + n ≤ j) k
    split
    · rename_i hy
      obtain ⟨c, hc, e⟩ := List.any_eq_true.1 hy
      have := low c hc
      rw [hl, if_pos (by simp at e ⊢; omega)]
    · rename_i hy
      rw [if_neg (by
        simp only [Bool.not_eq_true, List.any_eq_false, beq_iff_eq]
        intro c hc; have := mid c hc; omega)]
      by_cases hk : b + n ≤ k
      · rw [hh, if_pos (by simpa using hk)]
      · rw [hh, if_neg (by simpa using hk), ← show memGet (m.filter fun c => c.1 < b) k = memGet m k by
          rw [hl, if_pos (by simp; omega)]]
        refine (memGet_none fun c hc e => hy ?_).symm
        exact List.any_eq_true.2 ⟨c, hc, by simpa using e⟩

/-! ## States -/

theorem State.wr_wf {s : State} (w : Memory.wf s.mem = true) (a n v : Nat) : Memory.wf (s.wr a n v).mem = true :=
  memPut_wf w a v n
theorem State.wrBytes_wf {s : State} (w : Memory.wf s.mem = true) (a : Nat) (l : List Byte) :
    Memory.wf (s.wrBytes a l).mem = true := memPutBytes_wf w a l

theorem State.wrRec_wf {s : State} (w : Memory.wf s.mem = true) (a v : Nat) : Memory.wf (s.wrRec a v).mem = true := by
  have h1 (x : Nat) : Memory.wf (s.wr x 8 v).mem = true := wr_wf w x 8 v
  unfold State.wrRec
  simp only
  split
  · exact w
  · split
    · split
      · split
        · exact h1 _
        · exact wr_wf (h1 _) _ _ _
      · exact h1 _
    · exact h1 _

/-- The memory after reset has the form. -/
theorem State.reset_mem_wf : Memory.wf State.reset.mem = true := rfl

theorem State.putAt_wf {s : State} (w : Memory.wf s.mem = true) (b : Nat) (l : List (Nat × Nat × Nat)) :
    Memory.wf (s.putAt b l).mem = true := by
  show Memory.wf (l.foldl (fun m x => memPut m (b + x.1) x.2.2 x.2.1) s.mem) = true
  generalize s.mem = m at w
  induction l generalizing m with
  | nil => exact w
  | cons x r ih => exact ih _ (memPut_wf w _ _ _)

end Sys2Proof.Machine
end

