-- ==== Sys2Proof/Laws/State.lean ====
section
/-! SUPPORT. What each field of State is after each of the small updates, field by field: no later proof
unfolds a record update. -/

namespace Sys2Proof.Machine

variable (s : State)

@[simp] theorem State.onCore_core (f : Core → Core) : (s.onCore f).core = f s.core := rfl
@[simp] theorem State.onCore_parked (f : Core → Core) : (s.onCore f).parked = s.parked := rfl
@[simp] theorem State.onCore_dies (f : Core → Core) : (s.onCore f).dies = s.dies := rfl
@[simp] theorem State.onCore_rhoath (f : Core → Core) : (s.onCore f).rhoath = s.rhoath := rfl
@[simp] theorem State.onCore_mem (f : Core → Core) : (s.onCore f).mem = s.mem := rfl
@[simp] theorem State.onCore_badSeal (f : Core → Core) : (s.onCore f).badSeal = s.badSeal := rfl
@[simp] theorem State.onCore_flight (f : Core → Core) : (s.onCore f).flight = s.flight := rfl
@[simp] theorem State.onCore_walks (f : Core → Core) : (s.onCore f).walks = s.walks := rfl
@[simp] theorem State.onCore_effects (f : Core → Core) : (s.onCore f).effects = s.effects := rfl
@[simp] theorem State.onCore_credits (f : Core → Core) : (s.onCore f).credits = s.credits := rfl
@[simp] theorem State.onCore_permits (f : Core → Core) : (s.onCore f).permits = s.permits := rfl
@[simp] theorem State.onCore_revokes (f : Core → Core) : (s.onCore f).revokes = s.revokes := rfl
@[simp] theorem State.onCore_tasks (f : Core → Core) : (s.onCore f).tasks = s.tasks := rfl
@[simp] theorem State.onCore_frame (f : Core → Core) : (s.onCore f).frame = s.frame := rfl
@[simp] theorem State.onCore_nextId (f : Core → Core) : (s.onCore f).nextId = s.nextId := rfl
@[simp] theorem State.onCore_inputs (f : Core → Core) : (s.onCore f).inputs = s.inputs := rfl
@[simp] theorem State.onCore_free (f : Core → Core) : (s.onCore f).free = s.free := rfl
@[simp] theorem State.onCore_reply (f : Core → Core) : (s.onCore f).reply = s.reply := rfl
@[simp] theorem State.onCore_replyData (f : Core → Core) : (s.onCore f).replyData = s.replyData := rfl
@[simp] theorem State.onCore_poisoned (f : Core → Core) : (s.onCore f).poisoned = s.poisoned := rfl
@[simp] theorem State.onCore_appReqs (f : Core → Core) : (s.onCore f).appReqs = s.appReqs := rfl
@[simp] theorem State.onCore_appDone (f : Core → Core) : (s.onCore f).appDone = s.appDone := rfl
@[simp] theorem State.onCore_dmaReqs (f : Core → Core) : (s.onCore f).dmaReqs = s.dmaReqs := rfl
@[simp] theorem State.onCore_dramUes (f : Core → Core) : (s.onCore f).dramUes = s.dramUes := rfl

@[simp] theorem State.draw_core : (s.draw.2).core = s.core := rfl
@[simp] theorem State.draw_parked : (s.draw.2).parked = s.parked := rfl
@[simp] theorem State.draw_dies : (s.draw.2).dies = s.dies := rfl
@[simp] theorem State.draw_rhoath : (s.draw.2).rhoath = s.rhoath := rfl
@[simp] theorem State.draw_mem : (s.draw.2).mem = s.mem := rfl
@[simp] theorem State.draw_badSeal : (s.draw.2).badSeal = s.badSeal := rfl
@[simp] theorem State.draw_flight : (s.draw.2).flight = s.flight := rfl
@[simp] theorem State.draw_walks : (s.draw.2).walks = s.walks := rfl
@[simp] theorem State.draw_effects : (s.draw.2).effects = s.effects := rfl
@[simp] theorem State.draw_credits : (s.draw.2).credits = s.credits := rfl
@[simp] theorem State.draw_permits : (s.draw.2).permits = s.permits := rfl
@[simp] theorem State.draw_revokes : (s.draw.2).revokes = s.revokes := rfl
@[simp] theorem State.draw_tasks : (s.draw.2).tasks = s.tasks := rfl
@[simp] theorem State.draw_frame : (s.draw.2).frame = s.frame := rfl
@[simp] theorem State.draw_nextId : (s.draw.2).nextId = s.nextId := rfl
@[simp] theorem State.draw_inputs : (s.draw.2).inputs = s.inputs := rfl
@[simp] theorem State.draw_free : (s.draw.2).free = s.free + 1 := rfl
@[simp] theorem State.draw_reply : (s.draw.2).reply = s.reply := rfl
@[simp] theorem State.draw_replyData : (s.draw.2).replyData = s.replyData := rfl
@[simp] theorem State.draw_poisoned : (s.draw.2).poisoned = s.poisoned := rfl
@[simp] theorem State.draw_appReqs : (s.draw.2).appReqs = s.appReqs := rfl
@[simp] theorem State.draw_appDone : (s.draw.2).appDone = s.appDone := rfl
@[simp] theorem State.draw_dmaReqs : (s.draw.2).dmaReqs = s.dmaReqs := rfl
@[simp] theorem State.draw_dramUes : (s.draw.2).dramUes = s.dramUes := rfl

@[simp] theorem State.fresh_core : (s.fresh.2).core = s.core := rfl
@[simp] theorem State.fresh_parked : (s.fresh.2).parked = s.parked := rfl
@[simp] theorem State.fresh_dies : (s.fresh.2).dies = s.dies := rfl
@[simp] theorem State.fresh_rhoath : (s.fresh.2).rhoath = s.rhoath := rfl
@[simp] theorem State.fresh_mem : (s.fresh.2).mem = s.mem := rfl
@[simp] theorem State.fresh_badSeal : (s.fresh.2).badSeal = s.badSeal := rfl
@[simp] theorem State.fresh_flight : (s.fresh.2).flight = s.flight := rfl
@[simp] theorem State.fresh_walks : (s.fresh.2).walks = s.walks := rfl
@[simp] theorem State.fresh_effects : (s.fresh.2).effects = s.effects := rfl
@[simp] theorem State.fresh_credits : (s.fresh.2).credits = s.credits := rfl
@[simp] theorem State.fresh_permits : (s.fresh.2).permits = s.permits := rfl
@[simp] theorem State.fresh_revokes : (s.fresh.2).revokes = s.revokes := rfl
@[simp] theorem State.fresh_tasks : (s.fresh.2).tasks = s.tasks := rfl
@[simp] theorem State.fresh_frame : (s.fresh.2).frame = s.frame := rfl
@[simp] theorem State.fresh_nextId : (s.fresh.2).nextId = s.nextId + 1 := rfl
@[simp] theorem State.fresh_inputs : (s.fresh.2).inputs = s.inputs := rfl
@[simp] theorem State.fresh_free : (s.fresh.2).free = s.free := rfl
@[simp] theorem State.fresh_reply : (s.fresh.2).reply = s.reply := rfl
@[simp] theorem State.fresh_replyData : (s.fresh.2).replyData = s.replyData := rfl
@[simp] theorem State.fresh_poisoned : (s.fresh.2).poisoned = s.poisoned := rfl
@[simp] theorem State.fresh_appReqs : (s.fresh.2).appReqs = s.appReqs := rfl
@[simp] theorem State.fresh_appDone : (s.fresh.2).appDone = s.appDone := rfl
@[simp] theorem State.fresh_dmaReqs : (s.fresh.2).dmaReqs = s.dmaReqs := rfl
@[simp] theorem State.fresh_dramUes : (s.fresh.2).dramUes = s.dramUes := rfl

@[simp] theorem State.now_core : (s.now).core = s.core := rfl
@[simp] theorem State.now_parked : (s.now).parked = s.parked := rfl
@[simp] theorem State.now_dies : (s.now).dies = s.dies := rfl
@[simp] theorem State.now_rhoath : (s.now).rhoath = s.rhoath := rfl
@[simp] theorem State.now_mem : (s.now).mem = s.mem := rfl
@[simp] theorem State.now_badSeal : (s.now).badSeal = s.badSeal := rfl
@[simp] theorem State.now_flight : (s.now).flight = s.flight := rfl
@[simp] theorem State.now_walks : (s.now).walks = s.walks := rfl
@[simp] theorem State.now_effects : (s.now).effects = s.effects := rfl
@[simp] theorem State.now_credits : (s.now).credits = s.credits := rfl
@[simp] theorem State.now_permits : (s.now).permits = s.permits := rfl
@[simp] theorem State.now_revokes : (s.now).revokes = s.revokes := rfl
@[simp] theorem State.now_tasks : (s.now).tasks = s.tasks := rfl
@[simp] theorem State.now_frame : (s.now).frame = .ofNat 48 (min (s.frame.toNat + Config.frameStep s.free) (2 ^ 48 - 1)) := rfl
@[simp] theorem State.now_nextId : (s.now).nextId = s.nextId := rfl
@[simp] theorem State.now_inputs : (s.now).inputs = s.inputs := rfl
@[simp] theorem State.now_free : (s.now).free = s.free + 1 := rfl
@[simp] theorem State.now_reply : (s.now).reply = s.reply := rfl
@[simp] theorem State.now_replyData : (s.now).replyData = s.replyData := rfl
@[simp] theorem State.now_poisoned : (s.now).poisoned = s.poisoned := rfl
@[simp] theorem State.now_appReqs : (s.now).appReqs = s.appReqs := rfl
@[simp] theorem State.now_appDone : (s.now).appDone = s.appDone := rfl
@[simp] theorem State.now_dmaReqs : (s.now).dmaReqs = s.dmaReqs := rfl
@[simp] theorem State.now_dramUes : (s.now).dramUes = s.dramUes := rfl

@[simp] theorem State.thaw_parked : (s.thaw).parked = s.parked := rfl
@[simp] theorem State.thaw_dies : (s.thaw).dies = s.dies := rfl
@[simp] theorem State.thaw_rhoath : (s.thaw).rhoath = s.rhoath := rfl
@[simp] theorem State.thaw_mem : (s.thaw).mem = s.mem := rfl
@[simp] theorem State.thaw_badSeal : (s.thaw).badSeal = s.badSeal := rfl
@[simp] theorem State.thaw_flight : (s.thaw).flight = s.flight := rfl
@[simp] theorem State.thaw_walks : (s.thaw).walks = s.walks := rfl
@[simp] theorem State.thaw_effects : (s.thaw).effects = s.effects := rfl
@[simp] theorem State.thaw_credits : (s.thaw).credits = s.credits := rfl
@[simp] theorem State.thaw_permits : (s.thaw).permits = s.permits := rfl
@[simp] theorem State.thaw_revokes : (s.thaw).revokes = s.revokes := rfl
@[simp] theorem State.thaw_tasks : (s.thaw).tasks = s.tasks := rfl
@[simp] theorem State.thaw_frame : (s.thaw).frame = s.frame := rfl
@[simp] theorem State.thaw_nextId : (s.thaw).nextId = s.nextId := rfl
@[simp] theorem State.thaw_inputs : (s.thaw).inputs = s.inputs := rfl
@[simp] theorem State.thaw_free : (s.thaw).free = s.free + 1 := rfl
@[simp] theorem State.thaw_reply : (s.thaw).reply = s.reply := rfl
@[simp] theorem State.thaw_replyData : (s.thaw).replyData = s.replyData := rfl
@[simp] theorem State.thaw_poisoned : (s.thaw).poisoned = s.poisoned := rfl
@[simp] theorem State.thaw_appReqs : (s.thaw).appReqs = s.appReqs := rfl
@[simp] theorem State.thaw_appDone : (s.thaw).appDone = s.appDone := rfl
@[simp] theorem State.thaw_dmaReqs : (s.thaw).dmaReqs = s.dmaReqs := rfl
@[simp] theorem State.thaw_dramUes : (s.thaw).dramUes = s.dramUes := rfl

@[simp] theorem State.wr_core (a n v : Nat) : (s.wr a n v).core = s.core := rfl
@[simp] theorem State.wr_parked (a n v : Nat) : (s.wr a n v).parked = s.parked := rfl
@[simp] theorem State.wr_dies (a n v : Nat) : (s.wr a n v).dies = s.dies := rfl
@[simp] theorem State.wr_rhoath (a n v : Nat) : (s.wr a n v).rhoath = s.rhoath := rfl
@[simp] theorem State.wr_mem (a n v : Nat) : (s.wr a n v).mem = memPut s.mem a v n := rfl
@[simp] theorem State.wr_badSeal (a n v : Nat) : (s.wr a n v).badSeal = s.badSeal := rfl
@[simp] theorem State.wr_flight (a n v : Nat) : (s.wr a n v).flight = s.flight := rfl
@[simp] theorem State.wr_walks (a n v : Nat) : (s.wr a n v).walks = s.walks := rfl
@[simp] theorem State.wr_effects (a n v : Nat) : (s.wr a n v).effects = s.effects := rfl
@[simp] theorem State.wr_credits (a n v : Nat) : (s.wr a n v).credits = s.credits := rfl
@[simp] theorem State.wr_permits (a n v : Nat) : (s.wr a n v).permits = s.permits := rfl
@[simp] theorem State.wr_revokes (a n v : Nat) : (s.wr a n v).revokes = s.revokes := rfl
@[simp] theorem State.wr_tasks (a n v : Nat) : (s.wr a n v).tasks = s.tasks := rfl
@[simp] theorem State.wr_frame (a n v : Nat) : (s.wr a n v).frame = s.frame := rfl
@[simp] theorem State.wr_nextId (a n v : Nat) : (s.wr a n v).nextId = s.nextId := rfl
@[simp] theorem State.wr_inputs (a n v : Nat) : (s.wr a n v).inputs = s.inputs := rfl
@[simp] theorem State.wr_free (a n v : Nat) : (s.wr a n v).free = s.free := rfl
@[simp] theorem State.wr_reply (a n v : Nat) : (s.wr a n v).reply = s.reply := rfl
@[simp] theorem State.wr_replyData (a n v : Nat) : (s.wr a n v).replyData = s.replyData := rfl
@[simp] theorem State.wr_poisoned (a n v : Nat) : (s.wr a n v).poisoned = s.poisoned := rfl
@[simp] theorem State.wr_appReqs (a n v : Nat) : (s.wr a n v).appReqs = s.appReqs := rfl
@[simp] theorem State.wr_appDone (a n v : Nat) : (s.wr a n v).appDone = s.appDone := rfl
@[simp] theorem State.wr_dmaReqs (a n v : Nat) : (s.wr a n v).dmaReqs = s.dmaReqs := rfl
@[simp] theorem State.wr_dramUes (a n v : Nat) : (s.wr a n v).dramUes = s.dramUes := rfl

@[simp] theorem State.wrBytes_core (a : Nat) (l : List Byte) : (s.wrBytes a l).core = s.core := rfl
@[simp] theorem State.wrBytes_parked (a : Nat) (l : List Byte) : (s.wrBytes a l).parked = s.parked := rfl
@[simp] theorem State.wrBytes_dies (a : Nat) (l : List Byte) : (s.wrBytes a l).dies = s.dies := rfl
@[simp] theorem State.wrBytes_rhoath (a : Nat) (l : List Byte) : (s.wrBytes a l).rhoath = s.rhoath := rfl
@[simp] theorem State.wrBytes_mem (a : Nat) (l : List Byte) : (s.wrBytes a l).mem = memPutBytes s.mem a l := rfl
@[simp] theorem State.wrBytes_badSeal (a : Nat) (l : List Byte) : (s.wrBytes a l).badSeal = s.badSeal := rfl
@[simp] theorem State.wrBytes_flight (a : Nat) (l : List Byte) : (s.wrBytes a l).flight = s.flight := rfl
@[simp] theorem State.wrBytes_walks (a : Nat) (l : List Byte) : (s.wrBytes a l).walks = s.walks := rfl
@[simp] theorem State.wrBytes_effects (a : Nat) (l : List Byte) : (s.wrBytes a l).effects = s.effects := rfl
@[simp] theorem State.wrBytes_credits (a : Nat) (l : List Byte) : (s.wrBytes a l).credits = s.credits := rfl
@[simp] theorem State.wrBytes_permits (a : Nat) (l : List Byte) : (s.wrBytes a l).permits = s.permits := rfl
@[simp] theorem State.wrBytes_revokes (a : Nat) (l : List Byte) : (s.wrBytes a l).revokes = s.revokes := rfl
@[simp] theorem State.wrBytes_tasks (a : Nat) (l : List Byte) : (s.wrBytes a l).tasks = s.tasks := rfl
@[simp] theorem State.wrBytes_frame (a : Nat) (l : List Byte) : (s.wrBytes a l).frame = s.frame := rfl
@[simp] theorem State.wrBytes_nextId (a : Nat) (l : List Byte) : (s.wrBytes a l).nextId = s.nextId := rfl
@[simp] theorem State.wrBytes_inputs (a : Nat) (l : List Byte) : (s.wrBytes a l).inputs = s.inputs := rfl
@[simp] theorem State.wrBytes_free (a : Nat) (l : List Byte) : (s.wrBytes a l).free = s.free := rfl
@[simp] theorem State.wrBytes_reply (a : Nat) (l : List Byte) : (s.wrBytes a l).reply = s.reply := rfl
@[simp] theorem State.wrBytes_replyData (a : Nat) (l : List Byte) : (s.wrBytes a l).replyData = s.replyData := rfl
@[simp] theorem State.wrBytes_poisoned (a : Nat) (l : List Byte) : (s.wrBytes a l).poisoned = s.poisoned := rfl
@[simp] theorem State.wrBytes_appReqs (a : Nat) (l : List Byte) : (s.wrBytes a l).appReqs = s.appReqs := rfl
@[simp] theorem State.wrBytes_appDone (a : Nat) (l : List Byte) : (s.wrBytes a l).appDone = s.appDone := rfl
@[simp] theorem State.wrBytes_dmaReqs (a : Nat) (l : List Byte) : (s.wrBytes a l).dmaReqs = s.dmaReqs := rfl
@[simp] theorem State.wrBytes_dramUes (a : Nat) (l : List Byte) : (s.wrBytes a l).dramUes = s.dramUes := rfl

@[simp] theorem State.setDie_core (d : Die) : (s.setDie d).core = s.core := rfl
@[simp] theorem State.setDie_parked (d : Die) : (s.setDie d).parked = s.parked := rfl
@[simp] theorem State.setDie_dies (d : Die) : (s.setDie d).dies = s.dies.map fun e => if e.id = d.id then d else e := rfl
@[simp] theorem State.setDie_rhoath (d : Die) : (s.setDie d).rhoath = s.rhoath := rfl
@[simp] theorem State.setDie_mem (d : Die) : (s.setDie d).mem = s.mem := rfl
@[simp] theorem State.setDie_badSeal (d : Die) : (s.setDie d).badSeal = s.badSeal := rfl
@[simp] theorem State.setDie_flight (d : Die) : (s.setDie d).flight = s.flight := rfl
@[simp] theorem State.setDie_walks (d : Die) : (s.setDie d).walks = s.walks := rfl
@[simp] theorem State.setDie_effects (d : Die) : (s.setDie d).effects = s.effects := rfl
@[simp] theorem State.setDie_credits (d : Die) : (s.setDie d).credits = s.credits := rfl
@[simp] theorem State.setDie_permits (d : Die) : (s.setDie d).permits = s.permits := rfl
@[simp] theorem State.setDie_revokes (d : Die) : (s.setDie d).revokes = s.revokes := rfl
@[simp] theorem State.setDie_tasks (d : Die) : (s.setDie d).tasks = s.tasks := rfl
@[simp] theorem State.setDie_frame (d : Die) : (s.setDie d).frame = s.frame := rfl
@[simp] theorem State.setDie_nextId (d : Die) : (s.setDie d).nextId = s.nextId := rfl
@[simp] theorem State.setDie_inputs (d : Die) : (s.setDie d).inputs = s.inputs := rfl
@[simp] theorem State.setDie_free (d : Die) : (s.setDie d).free = s.free := rfl
@[simp] theorem State.setDie_reply (d : Die) : (s.setDie d).reply = s.reply := rfl
@[simp] theorem State.setDie_replyData (d : Die) : (s.setDie d).replyData = s.replyData := rfl
@[simp] theorem State.setDie_poisoned (d : Die) : (s.setDie d).poisoned = s.poisoned := rfl
@[simp] theorem State.setDie_appReqs (d : Die) : (s.setDie d).appReqs = s.appReqs := rfl
@[simp] theorem State.setDie_appDone (d : Die) : (s.setDie d).appDone = s.appDone := rfl
@[simp] theorem State.setDie_dmaReqs (d : Die) : (s.setDie d).dmaReqs = s.dmaReqs := rfl
@[simp] theorem State.setDie_dramUes (d : Die) : (s.setDie d).dramUes = s.dramUes := rfl

@[simp] theorem State.updDie_core (d : DieId) (f : Die → Die) : (s.updDie d f).core = s.core := rfl
@[simp] theorem State.updDie_parked (d : DieId) (f : Die → Die) : (s.updDie d f).parked = s.parked := rfl
@[simp] theorem State.updDie_dies (d : DieId) (f : Die → Die) : (s.updDie d f).dies = (s.setDie (f (s.die d))).dies := rfl
@[simp] theorem State.updDie_rhoath (d : DieId) (f : Die → Die) : (s.updDie d f).rhoath = s.rhoath := rfl
@[simp] theorem State.updDie_mem (d : DieId) (f : Die → Die) : (s.updDie d f).mem = s.mem := rfl
@[simp] theorem State.updDie_badSeal (d : DieId) (f : Die → Die) : (s.updDie d f).badSeal = s.badSeal := rfl
@[simp] theorem State.updDie_flight (d : DieId) (f : Die → Die) : (s.updDie d f).flight = s.flight := rfl
@[simp] theorem State.updDie_walks (d : DieId) (f : Die → Die) : (s.updDie d f).walks = s.walks := rfl
@[simp] theorem State.updDie_effects (d : DieId) (f : Die → Die) : (s.updDie d f).effects = s.effects := rfl
@[simp] theorem State.updDie_credits (d : DieId) (f : Die → Die) : (s.updDie d f).credits = s.credits := rfl
@[simp] theorem State.updDie_permits (d : DieId) (f : Die → Die) : (s.updDie d f).permits = s.permits := rfl
@[simp] theorem State.updDie_revokes (d : DieId) (f : Die → Die) : (s.updDie d f).revokes = s.revokes := rfl
@[simp] theorem State.updDie_tasks (d : DieId) (f : Die → Die) : (s.updDie d f).tasks = s.tasks := rfl
@[simp] theorem State.updDie_frame (d : DieId) (f : Die → Die) : (s.updDie d f).frame = s.frame := rfl
@[simp] theorem State.updDie_nextId (d : DieId) (f : Die → Die) : (s.updDie d f).nextId = s.nextId := rfl
@[simp] theorem State.updDie_inputs (d : DieId) (f : Die → Die) : (s.updDie d f).inputs = s.inputs := rfl
@[simp] theorem State.updDie_free (d : DieId) (f : Die → Die) : (s.updDie d f).free = s.free := rfl
@[simp] theorem State.updDie_reply (d : DieId) (f : Die → Die) : (s.updDie d f).reply = s.reply := rfl
@[simp] theorem State.updDie_replyData (d : DieId) (f : Die → Die) : (s.updDie d f).replyData = s.replyData := rfl
@[simp] theorem State.updDie_poisoned (d : DieId) (f : Die → Die) : (s.updDie d f).poisoned = s.poisoned := rfl
@[simp] theorem State.updDie_appReqs (d : DieId) (f : Die → Die) : (s.updDie d f).appReqs = s.appReqs := rfl
@[simp] theorem State.updDie_appDone (d : DieId) (f : Die → Die) : (s.updDie d f).appDone = s.appDone := rfl
@[simp] theorem State.updDie_dmaReqs (d : DieId) (f : Die → Die) : (s.updDie d f).dmaReqs = s.dmaReqs := rfl
@[simp] theorem State.updDie_dramUes (d : DieId) (f : Die → Die) : (s.updDie d f).dramUes = s.dramUes := rfl

@[simp] theorem State.setReg_core (d : DieId) (off v : Nat) : (s.setReg d off v).core = s.core := rfl
@[simp] theorem State.setReg_parked (d : DieId) (off v : Nat) : (s.setReg d off v).parked = s.parked := rfl
@[simp] theorem State.setReg_dies (d : DieId) (off v : Nat) : (s.setReg d off v).dies = (s.setDie ((s.die d).setReg off (.ofNat 64 v))).dies := rfl
@[simp] theorem State.setReg_rhoath (d : DieId) (off v : Nat) : (s.setReg d off v).rhoath = s.rhoath := rfl
@[simp] theorem State.setReg_mem (d : DieId) (off v : Nat) : (s.setReg d off v).mem = s.mem := rfl
@[simp] theorem State.setReg_badSeal (d : DieId) (off v : Nat) : (s.setReg d off v).badSeal = s.badSeal := rfl
@[simp] theorem State.setReg_flight (d : DieId) (off v : Nat) : (s.setReg d off v).flight = s.flight := rfl
@[simp] theorem State.setReg_walks (d : DieId) (off v : Nat) : (s.setReg d off v).walks = s.walks := rfl
@[simp] theorem State.setReg_effects (d : DieId) (off v : Nat) : (s.setReg d off v).effects = s.effects := rfl
@[simp] theorem State.setReg_credits (d : DieId) (off v : Nat) : (s.setReg d off v).credits = s.credits := rfl
@[simp] theorem State.setReg_permits (d : DieId) (off v : Nat) : (s.setReg d off v).permits = s.permits := rfl
@[simp] theorem State.setReg_revokes (d : DieId) (off v : Nat) : (s.setReg d off v).revokes = s.revokes := rfl
@[simp] theorem State.setReg_tasks (d : DieId) (off v : Nat) : (s.setReg d off v).tasks = s.tasks := rfl
@[simp] theorem State.setReg_frame (d : DieId) (off v : Nat) : (s.setReg d off v).frame = s.frame := rfl
@[simp] theorem State.setReg_nextId (d : DieId) (off v : Nat) : (s.setReg d off v).nextId = s.nextId := rfl
@[simp] theorem State.setReg_inputs (d : DieId) (off v : Nat) : (s.setReg d off v).inputs = s.inputs := rfl
@[simp] theorem State.setReg_free (d : DieId) (off v : Nat) : (s.setReg d off v).free = s.free := rfl
@[simp] theorem State.setReg_reply (d : DieId) (off v : Nat) : (s.setReg d off v).reply = s.reply := rfl
@[simp] theorem State.setReg_replyData (d : DieId) (off v : Nat) : (s.setReg d off v).replyData = s.replyData := rfl
@[simp] theorem State.setReg_poisoned (d : DieId) (off v : Nat) : (s.setReg d off v).poisoned = s.poisoned := rfl
@[simp] theorem State.setReg_appReqs (d : DieId) (off v : Nat) : (s.setReg d off v).appReqs = s.appReqs := rfl
@[simp] theorem State.setReg_appDone (d : DieId) (off v : Nat) : (s.setReg d off v).appDone = s.appDone := rfl
@[simp] theorem State.setReg_dmaReqs (d : DieId) (off v : Nat) : (s.setReg d off v).dmaReqs = s.dmaReqs := rfl
@[simp] theorem State.setReg_dramUes (d : DieId) (off v : Nat) : (s.setReg d off v).dramUes = s.dramUes := rfl

@[simp] theorem State.postS_core (lat : Nat) (r : SReg) (x : Word) (fl : Flags) : (s.postS lat r x fl).core = s.core.post lat (.s r x) fl true := rfl
@[simp] theorem State.postS_parked (lat : Nat) (r : SReg) (x : Word) (fl : Flags) : (s.postS lat r x fl).parked = s.parked := rfl
@[simp] theorem State.postS_dies (lat : Nat) (r : SReg) (x : Word) (fl : Flags) : (s.postS lat r x fl).dies = s.dies := rfl
@[simp] theorem State.postS_rhoath (lat : Nat) (r : SReg) (x : Word) (fl : Flags) : (s.postS lat r x fl).rhoath = s.rhoath := rfl
@[simp] theorem State.postS_mem (lat : Nat) (r : SReg) (x : Word) (fl : Flags) : (s.postS lat r x fl).mem = s.mem := rfl
@[simp] theorem State.postS_badSeal (lat : Nat) (r : SReg) (x : Word) (fl : Flags) : (s.postS lat r x fl).badSeal = s.badSeal := rfl
@[simp] theorem State.postS_flight (lat : Nat) (r : SReg) (x : Word) (fl : Flags) : (s.postS lat r x fl).flight = s.flight := rfl
@[simp] theorem State.postS_walks (lat : Nat) (r : SReg) (x : Word) (fl : Flags) : (s.postS lat r x fl).walks = s.walks := rfl
@[simp] theorem State.postS_effects (lat : Nat) (r : SReg) (x : Word) (fl : Flags) : (s.postS lat r x fl).effects = s.effects := rfl
@[simp] theorem State.postS_credits (lat : Nat) (r : SReg) (x : Word) (fl : Flags) : (s.postS lat r x fl).credits = s.credits := rfl
@[simp] theorem State.postS_permits (lat : Nat) (r : SReg) (x : Word) (fl : Flags) : (s.postS lat r x fl).permits = s.permits := rfl
@[simp] theorem State.postS_revokes (lat : Nat) (r : SReg) (x : Word) (fl : Flags) : (s.postS lat r x fl).revokes = s.revokes := rfl
@[simp] theorem State.postS_tasks (lat : Nat) (r : SReg) (x : Word) (fl : Flags) : (s.postS lat r x fl).tasks = s.tasks := rfl
@[simp] theorem State.postS_frame (lat : Nat) (r : SReg) (x : Word) (fl : Flags) : (s.postS lat r x fl).frame = s.frame := rfl
@[simp] theorem State.postS_nextId (lat : Nat) (r : SReg) (x : Word) (fl : Flags) : (s.postS lat r x fl).nextId = s.nextId := rfl
@[simp] theorem State.postS_inputs (lat : Nat) (r : SReg) (x : Word) (fl : Flags) : (s.postS lat r x fl).inputs = s.inputs := rfl
@[simp] theorem State.postS_free (lat : Nat) (r : SReg) (x : Word) (fl : Flags) : (s.postS lat r x fl).free = s.free := rfl
@[simp] theorem State.postS_reply (lat : Nat) (r : SReg) (x : Word) (fl : Flags) : (s.postS lat r x fl).reply = s.reply := rfl
@[simp] theorem State.postS_replyData (lat : Nat) (r : SReg) (x : Word) (fl : Flags) : (s.postS lat r x fl).replyData = s.replyData := rfl
@[simp] theorem State.postS_poisoned (lat : Nat) (r : SReg) (x : Word) (fl : Flags) : (s.postS lat r x fl).poisoned = s.poisoned := rfl
@[simp] theorem State.postS_appReqs (lat : Nat) (r : SReg) (x : Word) (fl : Flags) : (s.postS lat r x fl).appReqs = s.appReqs := rfl
@[simp] theorem State.postS_appDone (lat : Nat) (r : SReg) (x : Word) (fl : Flags) : (s.postS lat r x fl).appDone = s.appDone := rfl
@[simp] theorem State.postS_dmaReqs (lat : Nat) (r : SReg) (x : Word) (fl : Flags) : (s.postS lat r x fl).dmaReqs = s.dmaReqs := rfl
@[simp] theorem State.postS_dramUes (lat : Nat) (r : SReg) (x : Word) (fl : Flags) : (s.postS lat r x fl).dramUes = s.dramUes := rfl

@[simp] theorem State.postMove_core (lat : Nat) (w : Wr) : (s.postMove lat w).core = s.core.post lat w 0 false := rfl
@[simp] theorem State.postMove_parked (lat : Nat) (w : Wr) : (s.postMove lat w).parked = s.parked := rfl
@[simp] theorem State.postMove_dies (lat : Nat) (w : Wr) : (s.postMove lat w).dies = s.dies := rfl
@[simp] theorem State.postMove_rhoath (lat : Nat) (w : Wr) : (s.postMove lat w).rhoath = s.rhoath := rfl
@[simp] theorem State.postMove_mem (lat : Nat) (w : Wr) : (s.postMove lat w).mem = s.mem := rfl
@[simp] theorem State.postMove_badSeal (lat : Nat) (w : Wr) : (s.postMove lat w).badSeal = s.badSeal := rfl
@[simp] theorem State.postMove_flight (lat : Nat) (w : Wr) : (s.postMove lat w).flight = s.flight := rfl
@[simp] theorem State.postMove_walks (lat : Nat) (w : Wr) : (s.postMove lat w).walks = s.walks := rfl
@[simp] theorem State.postMove_effects (lat : Nat) (w : Wr) : (s.postMove lat w).effects = s.effects := rfl
@[simp] theorem State.postMove_credits (lat : Nat) (w : Wr) : (s.postMove lat w).credits = s.credits := rfl
@[simp] theorem State.postMove_permits (lat : Nat) (w : Wr) : (s.postMove lat w).permits = s.permits := rfl
@[simp] theorem State.postMove_revokes (lat : Nat) (w : Wr) : (s.postMove lat w).revokes = s.revokes := rfl
@[simp] theorem State.postMove_tasks (lat : Nat) (w : Wr) : (s.postMove lat w).tasks = s.tasks := rfl
@[simp] theorem State.postMove_frame (lat : Nat) (w : Wr) : (s.postMove lat w).frame = s.frame := rfl
@[simp] theorem State.postMove_nextId (lat : Nat) (w : Wr) : (s.postMove lat w).nextId = s.nextId := rfl
@[simp] theorem State.postMove_inputs (lat : Nat) (w : Wr) : (s.postMove lat w).inputs = s.inputs := rfl
@[simp] theorem State.postMove_free (lat : Nat) (w : Wr) : (s.postMove lat w).free = s.free := rfl
@[simp] theorem State.postMove_reply (lat : Nat) (w : Wr) : (s.postMove lat w).reply = s.reply := rfl
@[simp] theorem State.postMove_replyData (lat : Nat) (w : Wr) : (s.postMove lat w).replyData = s.replyData := rfl
@[simp] theorem State.postMove_poisoned (lat : Nat) (w : Wr) : (s.postMove lat w).poisoned = s.poisoned := rfl
@[simp] theorem State.postMove_appReqs (lat : Nat) (w : Wr) : (s.postMove lat w).appReqs = s.appReqs := rfl
@[simp] theorem State.postMove_appDone (lat : Nat) (w : Wr) : (s.postMove lat w).appDone = s.appDone := rfl
@[simp] theorem State.postMove_dmaReqs (lat : Nat) (w : Wr) : (s.postMove lat w).dmaReqs = s.dmaReqs := rfl
@[simp] theorem State.postMove_dramUes (lat : Nat) (w : Wr) : (s.postMove lat w).dramUes = s.dramUes := rfl

@[simp] theorem State.postV_core (lat : Nat) (w : Wr) (fl : Flags) (arith : Bool) : (s.postV lat w fl arith).core = s.core.post lat w fl arith := rfl
@[simp] theorem State.postV_parked (lat : Nat) (w : Wr) (fl : Flags) (arith : Bool) : (s.postV lat w fl arith).parked = s.parked := rfl
@[simp] theorem State.postV_dies (lat : Nat) (w : Wr) (fl : Flags) (arith : Bool) : (s.postV lat w fl arith).dies = s.dies := rfl
@[simp] theorem State.postV_rhoath (lat : Nat) (w : Wr) (fl : Flags) (arith : Bool) : (s.postV lat w fl arith).rhoath = s.rhoath := rfl
@[simp] theorem State.postV_mem (lat : Nat) (w : Wr) (fl : Flags) (arith : Bool) : (s.postV lat w fl arith).mem = s.mem := rfl
@[simp] theorem State.postV_badSeal (lat : Nat) (w : Wr) (fl : Flags) (arith : Bool) : (s.postV lat w fl arith).badSeal = s.badSeal := rfl
@[simp] theorem State.postV_flight (lat : Nat) (w : Wr) (fl : Flags) (arith : Bool) : (s.postV lat w fl arith).flight = s.flight := rfl
@[simp] theorem State.postV_walks (lat : Nat) (w : Wr) (fl : Flags) (arith : Bool) : (s.postV lat w fl arith).walks = s.walks := rfl
@[simp] theorem State.postV_effects (lat : Nat) (w : Wr) (fl : Flags) (arith : Bool) : (s.postV lat w fl arith).effects = s.effects := rfl
@[simp] theorem State.postV_credits (lat : Nat) (w : Wr) (fl : Flags) (arith : Bool) : (s.postV lat w fl arith).credits = s.credits := rfl
@[simp] theorem State.postV_permits (lat : Nat) (w : Wr) (fl : Flags) (arith : Bool) : (s.postV lat w fl arith).permits = s.permits := rfl
@[simp] theorem State.postV_revokes (lat : Nat) (w : Wr) (fl : Flags) (arith : Bool) : (s.postV lat w fl arith).revokes = s.revokes := rfl
@[simp] theorem State.postV_tasks (lat : Nat) (w : Wr) (fl : Flags) (arith : Bool) : (s.postV lat w fl arith).tasks = s.tasks := rfl
@[simp] theorem State.postV_frame (lat : Nat) (w : Wr) (fl : Flags) (arith : Bool) : (s.postV lat w fl arith).frame = s.frame := rfl
@[simp] theorem State.postV_nextId (lat : Nat) (w : Wr) (fl : Flags) (arith : Bool) : (s.postV lat w fl arith).nextId = s.nextId := rfl
@[simp] theorem State.postV_inputs (lat : Nat) (w : Wr) (fl : Flags) (arith : Bool) : (s.postV lat w fl arith).inputs = s.inputs := rfl
@[simp] theorem State.postV_free (lat : Nat) (w : Wr) (fl : Flags) (arith : Bool) : (s.postV lat w fl arith).free = s.free := rfl
@[simp] theorem State.postV_reply (lat : Nat) (w : Wr) (fl : Flags) (arith : Bool) : (s.postV lat w fl arith).reply = s.reply := rfl
@[simp] theorem State.postV_replyData (lat : Nat) (w : Wr) (fl : Flags) (arith : Bool) : (s.postV lat w fl arith).replyData = s.replyData := rfl
@[simp] theorem State.postV_poisoned (lat : Nat) (w : Wr) (fl : Flags) (arith : Bool) : (s.postV lat w fl arith).poisoned = s.poisoned := rfl
@[simp] theorem State.postV_appReqs (lat : Nat) (w : Wr) (fl : Flags) (arith : Bool) : (s.postV lat w fl arith).appReqs = s.appReqs := rfl
@[simp] theorem State.postV_appDone (lat : Nat) (w : Wr) (fl : Flags) (arith : Bool) : (s.postV lat w fl arith).appDone = s.appDone := rfl
@[simp] theorem State.postV_dmaReqs (lat : Nat) (w : Wr) (fl : Flags) (arith : Bool) : (s.postV lat w fl arith).dmaReqs = s.dmaReqs := rfl
@[simp] theorem State.postV_dramUes (lat : Nat) (w : Wr) (fl : Flags) (arith : Bool) : (s.postV lat w fl arith).dramUes = s.dramUes := rfl

end Sys2Proof.Machine
end

