-- ==== Sys2Proof/Laws/Ops.lean ====
section
/-! SUPPORT. What the shared operations can do, said once each: die registers, dies and cores by name, registers of a
core, pending writes, tasks, traps. -/

namespace Sys2Proof.Machine

/-! ## Registers of the window -/

@[simp] theorem regGet_regPut_self (d : DieId) (l : List (Nat × Word)) (o : Nat) (v : Word) :
    regGet d (regPut l o v) o = v := by
  induction l with
  | nil => simp [regPut, regGet]
  | cons c r ih =>
    obtain ⟨p, w⟩ := c
    by_cases h : p = o
    · simp [regPut, regGet, h]
    · simpa [regPut, regGet, h] using ih

theorem regGet_regPut_ne (d : DieId) (l : List (Nat × Word)) {o q : Nat} (v : Word) (h : q ≠ o) :
    regGet d (regPut l o v) q = regGet d l q := by
  induction l with
  | nil => simp [regPut, regGet, Ne.symm h]
  | cons c r ih =>
    obtain ⟨p, w⟩ := c
    by_cases hp : p = o
    · subst hp; simp [regPut, regGet, Ne.symm h]
    · by_cases hq : p = q
      · subst hq; simp [regPut, regGet, hp]
      · simpa [regPut, regGet, hp, hq] using ih

@[simp] theorem Die.setReg_id (d : Die) (o : Nat) (v : Word) : (d.setReg o v).id = d.id := rfl
@[simp] theorem Die.reg_setReg_self (d : Die) (o : Nat) (v : Word) : (d.setReg o v).reg o = v :=
  regGet_regPut_self _ _ _ _
theorem Die.reg_setReg_ne (d : Die) {o q : Nat} (v : Word) (h : q ≠ o) : (d.setReg o v).reg q = d.reg q :=
  regGet_regPut_ne _ _ _ h
@[simp] theorem Die.reset_id (d : DieId) : (Die.reset d).id = d := rfl
@[simp] theorem Die.setQreg_id (d : Die) (q o v : Nat) : (d.setQreg q o v).id = d.id := rfl

/-! ## Dies by name -/

/-- The die that is found bears the name asked for. -/
@[simp] theorem State.die_id (s : State) (d : DieId) : (s.die d).id = d := by
  unfold State.die
  cases h : s.dies.find? (·.id == d) with
  | none => rfl
  | some e => simpa using List.find?_some h

/-- A die is replaced by one of its own name: the list of names stays. -/
@[simp] theorem State.setDie_ids (s : State) (d : Die) : (s.setDie d).dies.map (·.id) = s.dies.map (·.id) := by
  rw [State.setDie_dies, List.map_map]
  refine List.map_congr_left fun e _ => ?_
  by_cases h : e.id = d.id <;> simp [h]

theorem find_map_ne {l : List Die} (d : Die) {n : DieId} (h : n ≠ d.id) :
    (l.map fun e => if e.id = d.id then d else e).find? (·.id == n) = l.find? (·.id == n) := by
  induction l with
  | nil => rfl
  | cons e r ih =>
    by_cases he : e.id = d.id
    · have h1 : (d.id == n) = false := by simpa using Ne.symm h
      have h2 : (e.id == n) = false := by rw [he]; exact h1
      simp [he, h1, ih]
    · simp [he, List.find?_cons, ih]

theorem find_map_self {l : List Die} (d : Die) (h : d.id ∈ l.map (·.id)) :
    (l.map fun e => if e.id = d.id then d else e).find? (·.id == d.id) = some d := by
  induction l with
  | nil => simp at h
  | cons e r ih =>
    by_cases he : e.id = d.id
    · simp [he]
    · have h' : d.id ∈ r.map (·.id) := by simpa [Ne.symm he] using h
      simpa [he, List.find?_cons] using ih h'

theorem State.die_setDie_self (s : State) (d : Die) (h : d.id ∈ s.dies.map (·.id)) : (s.setDie d).die d.id = d := by
  simp only [State.die, State.setDie_dies, find_map_self d h, Option.getD_some]

theorem State.die_setDie_ne (s : State) (d : Die) {n : DieId} (h : n ≠ d.id) : (s.setDie d).die n = s.die n := by
  simp only [State.die, State.setDie_dies, find_map_ne d h]

theorem State.die_setReg_self (s : State) (d : DieId) (o v : Nat) (h : d ∈ s.dies.map (·.id)) :
    (s.setReg d o v).die d = (s.die d).setReg o (.ofNat 64 v) := by
  have k : ((s.die d).setReg o (.ofNat 64 v)).id = d := by simp
  have := State.die_setDie_self s ((s.die d).setReg o (.ofNat 64 v)) (by rw [k]; exact h)
  rwa [k] at this
theorem State.die_setReg_ne (s : State) {d e : DieId} (o v : Nat) (h : e ≠ d) : (s.setReg d o v).die e = s.die e :=
  State.die_setDie_ne s _ (by simpa using h)

/-- A register that is written reads as written. -/
theorem State.reg_setReg_self (s : State) (d : DieId) (o v : Nat) (h : d ∈ s.dies.map (·.id)) :
    (s.setReg d o v).reg d o = v % 2 ^ 64 := by
  rw [State.reg, State.die_setReg_self s d o v h, Die.nat, Die.reg_setReg_self, BitVec.toNat_ofNat]

/-- Every other register of that die and all other dies stay. -/
theorem State.reg_setReg_ne (s : State) {d e : DieId} {o q : Nat} (v : Nat) (h : e ≠ d ∨ q ≠ o) :
    (s.setReg d o v).reg e q = s.reg e q := by
  by_cases he : e = d
  · subst he
    by_cases hm : e ∈ s.dies.map (·.id)
    · rw [State.reg, State.die_setReg_self s e o v hm, Die.nat, Die.reg_setReg_ne _ _ (h.resolve_left (by simp))]
      rfl
    · have k : (s.setReg e o v).dies = s.dies := by
        rw [State.setReg_dies, State.setDie_dies]
        refine (List.map_congr_left fun x hx => ?_).trans (List.map_id _)
        have : x.id ≠ e := fun k => hm (k ▸ List.mem_map_of_mem (f := Die.id) hx)
        simp [this]
      unfold State.reg State.die
      rw [k]
  · rw [State.reg, State.die_setReg_ne s o v he]
    rfl

/-! ## Registers of a core (02 R47 to R52) -/

/-- The register that reads as zero discards what is written to it. -/
@[simp] theorem Core.s_zero (c : Core) : c.s 0 = 0 := rfl
@[simp] theorem Core.setS_zero (c : Core) (x : Word) : c.setS 0 x = c := rfl
theorem Core.s_setS_self (c : Core) {r : SReg} (x : Word) (h : r ≠ 0) : (c.setS r x).s r = x := by
  simp only [Core.s, Core.setS, h, if_false]
  exact Vector.getElem_set_self _
theorem Core.s_setS_ne (c : Core) {r q : SReg} (x : Word) (h : q ≠ r) : (c.setS r x).s q = c.s q := by
  unfold Core.s Core.setS
  by_cases hq : q = 0
  · simp [hq]
  by_cases hr : r = 0
  · simp [hr]
  simp only [hq, hr, if_false]
  exact Vector.getElem_set_ne _ _ fun k => h (BitVec.eq_of_toNat_eq k.symm)
/-- P0 is all ones. -/
@[simp] theorem Core.p_zero (c : Core) : c.p 0 = BitVec.allOnes 256 := rfl
@[simp] theorem Core.setP_zero (c : Core) (x m : PWord) : c.setP 0 x m = c := rfl
theorem Core.h_setH_self (c : Core) (r : Reg16) (x : HWord) : (c.setH r x).h r = x := Vector.getElem_set_self _
theorem Core.h_setH_ne (c : Core) {r q : Reg16} (x : HWord) (h : q ≠ r) : (c.setH r x).h q = c.h q :=
  Vector.getElem_set_ne r.isLt q.isLt fun k => h (BitVec.eq_of_toNat_eq k.symm)
theorem Core.mp_setMp_self (c : Core) (r : MpReg) (x : Word) : (c.setMp r x).mp r = x := Vector.getElem_set_self _
theorem Core.mp_setMp_ne (c : Core) {r q : MpReg} (x : Word) (h : q ≠ r) : (c.setMp r x).mp q = c.mp q :=
  Vector.getElem_set_ne r.isLt q.isLt fun k => h (BitVec.eq_of_toNat_eq k.symm)
theorem Core.k_setK_self (c : Core) (r : Reg16) (x : BitVec 32) : (c.setK r x).k r = x := Vector.getElem_set_self _
theorem Core.k_setK_ne (c : Core) {r q : Reg16} (x : BitVec 32) (h : q ≠ r) : (c.setK r x).k q = c.k q :=
  Vector.getElem_set_ne r.isLt q.isLt fun k => h (BitVec.eq_of_toNat_eq k.symm)

/-! ## Pending writes (06 R150) -/

/-- A posted write stands last, and changes nothing but the list and the region's horizon. -/
theorem Core.post_eq (c : Core) (lat : Nat) (w : Wr) (fl : Flags) (a : Bool) :
    c.post lat w fl a =
      { c with
        pend := c.pend ++ [⟨c.tick + lat, c.issueNo, w, fl, none⟩]
        inst := { c.inst with horizon := max c.inst.horizon (c.tick + lat + if a then 24 else 16) } } := rfl
@[simp] theorem Core.post_tick (c : Core) (lat : Nat) (w : Wr) (fl : Flags) (a : Bool) :
    (c.post lat w fl a).tick = c.tick := rfl
@[simp] theorem Core.post_sreg (c : Core) (lat : Nat) (w : Wr) (fl : Flags) (a : Bool) :
    (c.post lat w fl a).sreg = c.sreg := rfl
@[simp] theorem Core.post_vreg (c : Core) (lat : Nat) (w : Wr) (fl : Flags) (a : Bool) :
    (c.post lat w fl a).vreg = c.vreg := rfl
@[simp] theorem Core.post_pc (c : Core) (lat : Nat) (w : Wr) (fl : Flags) (a : Bool) :
    (c.post lat w fl a).pc = c.pc := rfl
@[simp] theorem Core.post_id (c : Core) (lat : Nat) (w : Wr) (fl : Flags) (a : Bool) :
    (c.post lat w fl a).id = c.id := rfl

/-- What every vector operation over lanes can do: it completes with one pending write of the active elements (08 R214). -/
theorem vecOp_eq (t : ElemType) (lat : Nat) (ar : Bool) (vd : VRegN) (p : PReg) (f : Nat → Nat × Flags) (s : State) :
    vecOp t lat ar vd p f s = .next (s.postV lat
      (.v vd (ofLanes t.width ((List.range t.lanes).map fun i => if activeLane (s.core.p p) t.width i then (f i).1 else 0))
        (activeMask (s.core.p p) t.width))
      (orFlags ((List.range t.lanes).map fun i => if activeLane (s.core.p p) t.width i then (f i).2 else 0)) ar) := by
  simp [vecOp, Function.comp_def, apply_ite Prod.fst, apply_ite Prod.snd]

/-! ## Tasks -/

/-- A task update changes the task named, and the list's names only where the update changes a name. -/
theorem State.updTask_ids (s : State) (t : TaskId) (f : Task → Task) (h : ∀ x, (f x).id = x.id) :
    (s.updTask t f).tasks.map (·.id) = s.tasks.map (·.id) := by
  simp only [State.updTask, List.map_map]
  refine List.map_congr_left fun e _ => ?_
  by_cases k : e.id = t <;> simp [k, h]

/-! ## Traps (13 R371 to R376) -/

/-- Taking a trap does one of three things: a trap inside a handler, or one that does not resume or has no handler, ends
the task; any other enters the handler. -/
theorem State.takeTrap_cases (s : State) (r : TrapReq) (async : Bool) (pc issue t : Nat) :
    (s.core.snap.isSome ∧ async = false ∧ s.takeTrap r async pc issue t =
      (s.fatal .handlerFault).onCore fun c => { c with ictx := { c.ictx with trap := some r } }) ∨
    ((s.core.snap.isNone ∨ async = true) ∧ trapResumes r.name = true ∧ s.core.tvec ≠ 0 ∧
      s.takeTrap r async pc issue t = s.onCore fun c => c.applyCt.enter r async pc issue t) ∨
    ((s.core.snap.isNone ∨ async = true) ∧ (trapResumes r.name = false ∨ s.core.tvec = 0) ∧
      s.takeTrap r async pc issue t =
        (s.fatal r.name).onCore fun c => { c with ictx := { c.ictx with trap := some r } }) := by
  unfold State.takeTrap
  by_cases h : (s.core.snap.isSome && !async) = true
  · have h' : s.core.snap.isSome = true ∧ async = false := by simpa using h
    exact .inl ⟨h'.1, h'.2, by rw [if_pos h]⟩
  · have h' : s.core.snap.isNone = true ∨ async = true := by
      cases hs : s.core.snap <;> cases async <;> simp [hs] at h ⊢
    by_cases g : (trapResumes r.name && decide (s.core.tvec ≠ 0)) = true
    · have g' : trapResumes r.name = true ∧ s.core.tvec ≠ 0 := by simpa using g
      exact .inr (.inl ⟨h', g'.1, g'.2, by rw [if_neg h, if_pos g]⟩)
    · have g' : trapResumes r.name = false ∨ s.core.tvec = 0 := by
        cases hr : trapResumes r.name <;> simp [hr] at g ⊢
        exact g
      exact .inr (.inr ⟨h', g', by rw [if_neg h, if_neg g]⟩)

/-- The saved registers of a handler's entry (13 R375). -/
@[simp] theorem Core.enter_tdetail (c : Core) (r : TrapReq) (a : Bool) (p i t : Nat) :
    (c.enter r a p i t).tdetail = r.detail := rfl
@[simp] theorem Core.enter_tval (c : Core) (r : TrapReq) (a : Bool) (p i t : Nat) : (c.enter r a p i t).tval = r.val := rfl
@[simp] theorem Core.enter_tepc (c : Core) (r : TrapReq) (a : Bool) (p i t : Nat) :
    (c.enter r a p i t).tepc = .ofNat 64 (p % 2 ^ 32) := rfl
@[simp] theorem Core.enter_pc (c : Core) (r : TrapReq) (a : Bool) (p i t : Nat) :
    (c.enter r a p i t).pc = c.tvec.toNat := rfl
@[simp] theorem Core.enter_tick (c : Core) (r : TrapReq) (a : Bool) (p i t : Nat) : (c.enter r a p i t).tick = t + 4 := rfl
@[simp] theorem Core.enter_sreg (c : Core) (r : TrapReq) (a : Bool) (p i t : Nat) : (c.enter r a p i t).sreg = c.sreg := rfl
@[simp] theorem Core.enter_kreg (c : Core) (r : TrapReq) (a : Bool) (p i t : Nat) : (c.enter r a p i t).kreg = c.kreg := rfl

end Sys2Proof.Machine
end

