-- ==== Sys2Proof/Laws/Send.lean ====
section
/-! SUPPORT. What the sending of accesses can do, said once: it moves accesses on their way, counts on the dies and the next
number, and nothing else. -/

namespace Sys2Proof.Machine

/-- Nothing but accesses in flight, dies and the next number differ. -/
def SentFrom (t s : State) : Prop := { t with flight := s.flight, dies := s.dies, nextId := s.nextId } = s

theorem SentFrom.refl (s : State) : SentFrom s s := rfl
theorem SentFrom.trans {a b c : State} (h : SentFrom a b) (k : SentFrom b c) : SentFrom a c := by
  unfold SentFrom at *; rw [← k, ← h]

/-- What sending changes, written as one update. -/
theorem SentFrom.eq {t s : State} (h : SentFrom t s) : t = { s with flight := t.flight, dies := t.dies, nextId := t.nextId } := by
  unfold SentFrom at h; rw [← h]
theorem SentFrom.core {t s : State} (h : SentFrom t s) : t.core = s.core := by rw [h.eq]
theorem SentFrom.mem {t s : State} (h : SentFrom t s) : t.mem = s.mem := by rw [h.eq]

theorem State.sendOne_frame (s : State) (a : Access) : SentFrom (s.sendOne a) s := by
  unfold State.sendOne SentFrom State.setDie
  dsimp only
  split <;> rfl

theorem State.sendAccess_frame (s : State) (a : Access) : SentFrom (s.sendAccess a) s := by
  unfold State.sendAccess
  split
  · exact s.sendOne_frame a
  · rename_i g r _
    suffices h : ∀ (r : List (List Part)) (t : State), SentFrom t s → SentFrom (r.foldl (fun s g =>
        let b := { a with id := s.nextId, parts := g }
        State.sendOne { s with nextId := s.nextId + 1, flight := s.flight ++ [b] } b) t) s from h r _ (s.sendOne_frame _)
    intro r
    induction r with
    | nil => exact fun t h => h
    | cons g r ih => exact fun t h => ih _ ((State.sendOne_frame _ _).trans h)

theorem State.pumpList_frame (l : List Nat) (s : State) : SentFrom (s.pumpList l) s := by
  induction l generalizing s with
  | nil => rfl
  | cons i r ih =>
    simp only [State.pumpList]
    split
    · exact ih s
    · split
      · exact ih s
      · exact (ih _).trans (s.sendAccess_frame _)

/-- The sending of all that nothing holds back. -/
theorem State.pump_frame (s : State) : SentFrom s.pump s := s.pumpList_frame _

/-- A property of accesses that their sending keeps. -/
def SendingKeeps (f : Access → Prop) : Prop :=
  ∀ (a : Access) (parts : List Part) (home : DieId) (clock : List Nat) (epoch : Nat) (stage : Stage) (sent : Nat) (know : Bool), f a →
    f { a with parts := parts, home := home, clock := clock, epoch := epoch, stage := stage, sent := sent, know := know }

/-- Some access of number `n`, which has been given, is in flight, and every one of that number has the property `f`. -/
def FlyingAs (f : Access → Prop) (n : Nat) (s : State) : Prop :=
  n < s.nextId ∧ (∃ x ∈ s.flight, x.id = n) ∧ ∀ x ∈ s.flight, x.id = n → f x

theorem FlyingAs.found {f : Access → Prop} {n : Nat} {s : State} (h : FlyingAs f n s) : ∃ x ∈ s.flight, x.id = n ∧ f x :=
  h.2.1.elim fun x hx => ⟨x, hx.1, hx.2, h.2.2 x hx.1 hx.2⟩

theorem State.sendOne_flying {f : Access → Prop} (hf : SendingKeeps f) {n : Nat} {s : State} {a : Access} (h : FlyingAs f n s)
    (ha : a.id = n → f a) : FlyingAs f n (s.sendOne a) := by
  obtain ⟨hn, ⟨x, hx, rfl⟩, all⟩ := h
  unfold State.sendOne
  dsimp only
  refine ⟨?_, ⟨_, List.mem_map_of_mem (by split <;> exact hx), ?_⟩, ?_⟩
  · split <;> exact Nat.lt_succ_of_lt hn
  · split
    · rename_i e
      split
      · exact e.symm
      · split <;> exact e.symm
    · rfl
  · intro y hy
    obtain ⟨z, hz, rfl⟩ := List.mem_map.1 hy
    have hz' : z ∈ s.flight := by revert hz; split <;> exact id
    by_cases hc : z.id = a.homed.id
    · rw [if_pos hc]
      intro e
      have fa : f a := ha (by revert e; split; exact id; split <;> exact id)
      split
      · exact hf a _ _ a.clock a.epoch _ a.sent a.know fa
      · split
        · exact hf a _ _ _ _ _ a.sent a.know fa
        · exact hf a _ _ _ _ _ _ _ fa
    · rw [if_neg hc]
      exact all z hz'

theorem State.sendAccess_flying {f : Access → Prop} (hf : SendingKeeps f) {n : Nat} {s : State} {a : Access} (h : FlyingAs f n s)
    (ha : a.id = n → f a) : FlyingAs f n (s.sendAccess a) := by
  unfold State.sendAccess
  split
  · exact sendOne_flying hf h ha
  · rename_i g r _
    suffices k : ∀ (r : List (List Part)) (t : State), FlyingAs f n t → FlyingAs f n (r.foldl (fun s g =>
        let b := { a with id := s.nextId, parts := g }
        State.sendOne { s with nextId := s.nextId + 1, flight := s.flight ++ [b] } b) t) from
      k r _ (sendOne_flying hf h fun e => hf a g a.home a.clock a.epoch a.stage a.sent a.know (ha e))
    intro r
    induction r with
    | nil => exact fun t h => h
    | cons g r ih =>
      intro t ⟨hn, ⟨x, hx, e⟩, all⟩
      refine ih _ (sendOne_flying hf ⟨Nat.lt_succ_of_lt hn, ⟨x, List.mem_append_left _ hx, e⟩, ?_⟩ fun e => absurd e (Nat.ne_of_gt hn))
      intro y hy
      rcases List.mem_append.1 hy with hy | hy
      · exact all y hy
      · rw [List.mem_singleton.1 hy]; exact fun e => absurd e (Nat.ne_of_gt hn)

theorem State.pumpList_flying {f : Access → Prop} (hf : SendingKeeps f) {n : Nat} (l : List Nat) {s : State} (h : FlyingAs f n s) :
    FlyingAs f n (s.pumpList l) := by
  induction l generalizing s with
  | nil => exact h
  | cons i r ih =>
    simp only [State.pumpList]
    split
    · exact ih h
    · rename_i a e
      split
      · exact ih h
      · exact ih (sendAccess_flying hf h (h.2.2 a (List.mem_of_find?_eq_some e)))

/-- Sending loses no access, and keeps of each what is not its way. -/
theorem State.pump_flying {f : Access → Prop} (hf : SendingKeeps f) {n : Nat} {s : State} (h : FlyingAs f n s) :
    FlyingAs f n s.pump := pumpList_flying hf _ h

/-! ## Reads that units of a die answer in one step, and what epochs tell -/

/-- Nothing but the dies differs. -/
def DiesFrom (t s : State) : Prop := { t with dies := s.dies } = s

theorem DiesFrom.eq {t s : State} (h : DiesFrom t s) : t = { s with dies := t.dies } := by unfold DiesFrom at h; rw [← h]
theorem DiesFrom.trans {a b c : State} (h : DiesFrom a b) (k : DiesFrom b c) : DiesFrom a c := by
  unfold DiesFrom at *; rw [← k, ← h]

theorem State.directRead_frame {s t : State} {i j : DieId} (h : s.directRead i j = some t) : DiesFrom t s := by
  unfold State.directRead at h
  dsimp only at h
  repeat' split at h
  all_goals first | contradiction | (cases h; rfl)

/-- If the reads are answered, they have moved the counts of the fabric and nothing else. -/
theorem State.directReads_frame {s t : State} {i : DieId} {l : List DieId} (h : s.directReads i l = some t) : DiesFrom t s := by
  suffices k : ∀ (l : List DieId) (o : Option State) (s t : State), (∀ u, o = some u → DiesFrom u s) →
      l.foldl (fun o j => o.bind fun s => s.directRead i j) o = some t → DiesFrom t s from
    k _ _ _ _ (fun u e => by cases e; rfl) h
  intro l
  induction l with
  | nil => exact fun o s t ho e => ho t e
  | cons j r ih =>
    intro o s t ho e
    refine ih _ s t (fun u hu => ?_) e
    obtain ⟨v, hv, hu⟩ := Option.bind_eq_some_iff.1 hu
    exact (directRead_frame hu).trans (ho v hv)

theorem State.tellAll_frame (s : State) (i j : DieId) : DiesFrom (s.tellAll i j) s := by
  unfold State.tellAll
  split <;> rfl

/-! ## The re-walk of a handle (09 R247) -/

theorem State.rewalk_of_valid {s : State} {h : Reg16} (v : hValid (s.core.h h) = true) : s.rewalk h = s := by
  simp [State.rewalk, v]
@[simp] theorem State.rewalk_core (s : State) (h : Reg16) : (s.rewalk h).core = s.core := by unfold State.rewalk; split <;> rfl
@[simp] theorem State.rewalk_mem (s : State) (h : Reg16) : (s.rewalk h).mem = s.mem := by unfold State.rewalk; split <;> rfl
@[simp] theorem State.rewalk_flight (s : State) (h : Reg16) : (s.rewalk h).flight = s.flight := by
  unfold State.rewalk; split <;> rfl
@[simp] theorem State.rewalk_dies (s : State) (h : Reg16) : (s.rewalk h).dies = s.dies := by unfold State.rewalk; split <;> rfl

end Sys2Proof.Machine
end

