-- ==== Sys2Proof/Tests/Slice0.lean ====
section
/-! SUPPORT. The model's own tests: ill-formed terms that the check refuses, words assembled by hand from the tables of
05 to 11 and their instructions, single steps, and the states that meet the hypotheses of the statements. -/

namespace Sys2Proof.Tests

open Sys2Proof Sys2Proof.Machine Sys2Proof.Terms

-- One theorem at a time: many evaluations side by side need more stacks than the check's memory holds.
set_option Elab.async false

/-! ## Ill-formed terms, one for each check of WellFormed -/

theorem test_wf_refuses_lix : (.lix 5 6 : Instr).wf = false := by decide
theorem test_wf_refuses_loop : (.loop 5 0 : Instr).wf = false := by decide
theorem test_wf_refuses_loopi : (.loopi 3 0 : Instr).wf = false := by decide
theorem test_wf_refuses_disarm : (.disarm 0 : Instr).wf = false := by decide
theorem test_wf_refuses_signal : (.signal 3 5 0 : Instr).wf = false := by decide
theorem test_wf_refuses_flagwt : (.flagwt 0 : Instr).wf = false := by decide
theorem test_wf_refuses_arith : (.vadd .e4m3 3 21 10 5 true : Instr).wf = false := by decide
theorem test_wf_refuses_arith_fma : (.vfma .i4 3 21 10 4 5 true : Instr).wf = false := by decide
theorem test_wf_refuses_abs : (.vabs .n8 3 21 5 true : Instr).wf = false := by decide
theorem test_wf_refuses_intonly : (.vshl .f32 3 21 10 5 true : Instr).wf = false := by decide
theorem test_wf_refuses_vcmp_un : (.vcmp .i32 .un 3 21 10 5 true : Instr).wf = false := by decide
theorem test_wf_refuses_vcmp_type : (.vcmp .e5m2 .eq 3 21 10 5 true : Instr).wf = false := by decide
theorem test_wf_refuses_vext : (.vext .f32 42 21 64 true : Instr).wf = false := by decide
theorem test_wf_refuses_vins_w4 : (.vins .i4 3 42 0 true : Instr).wf = false := by decide
theorem test_wf_refuses_perm : (.vperm .n4 3 21 10 5 true : Instr).wf = false := by decide
theorem test_wf_refuses_dot4 : (.vdot4 .i16 3 21 10 4 5 true : Instr).wf = false := by decide
theorem test_wf_refuses_vcvt : (.vcvt .f32 .f16 3 21 2 5 true : Instr).wf = false := by decide
theorem test_wf_refuses_vpack : (.vpack .i8 .i32 3 21 10 5 true : Instr).wf = false := by decide
theorem test_wf_refuses_vunpack : (.vunpack .i32 .f16 3 21 true 5 true : Instr).wf = false := by decide
theorem test_wf_refuses_vscale_int : (.vscale .i8 .f32 3 21 10 0 .b128 5 true : Instr).wf = false := by decide
theorem test_wf_refuses_vscale_part : (.vscale .f16 .f32 3 21 10 2 .all 5 true : Instr).wf = false := by decide
theorem test_wf_refuses_vabsmax : (.vabsmax .i8 3 21 4 5 true : Instr).wf = false := by decide
theorem test_wf_refuses_pset : (.pset .f32 3 65 true : Instr).wf = false := by decide
theorem test_wf_refuses_sf : (.frcp .i32 3 21 5 true : Instr).wf = false := by decide
theorem test_wf_refuses_ld : (.ld 7 33 42 0 true 0 : Instr).wf = false := by decide
theorem test_wf_refuses_st : (.st 2 33 42 0 true 0 : Instr).wf = false := by decide
theorem test_wf_refuses_ldl_land : (.ldl 3 33 9 42 0 0 true 0 : Instr).wf = false := by decide
theorem test_wf_refuses_sth : (.sth 4 33 9 42 0 true 0 : Instr).wf = false := by decide
theorem test_wf_refuses_vldl_land : (.vldl 21 9 42 5 0 0 true 0 : Instr).wf = false := by decide
theorem test_wf_refuses_vldlx_odd : (.vldlx 1 21 9 43 5 7 true 0 : Instr).wf = false := by decide
theorem test_wf_refuses_vsthx_odd : (.vsthx 1 21 9 43 5 true 0 : Instr).wf = false := by decide
theorem test_wf_refuses_fence : (.fence .gang false false true true : Instr).wf = false := by decide
theorem test_wf_refuses_amo_land : (.amoadd true false .rlx .die 3 9 4 5 0 : Instr).wf = false := by decide
theorem test_wf_refuses_amo_wide_vec : (.amoadd true true .rlx .die 3 9 4 5 7 : Instr).wf = false := by decide
theorem test_wf_refuses_amo_vreg : (.amoadd false true .rlx .die 32 9 4 5 7 : Instr).wf = false := by decide
theorem test_wf_refuses_red_order : (.redadd true false .acq .die 9 4 5 : Instr).wf = false := by decide
theorem test_wf_refuses_red_vreg : (.redadd false true .rel .die 9 32 5 : Instr).wf = false := by decide

/-! ## Words of every slot operation, written out from the encoding tables -/

/-- Every word decodes to its instruction, is the word that encode gives, and the instruction is well formed. -/
def reads (k : SlotKind) (l : List (Nat × Instr)) : Bool :=
  l.all fun x => (decodeSlot k x.1).toOption == some x.2 && encodeSlot k x.2 == some x.1 && x.2.wf

theorem test_words_scalar_1 : reads .scalar [
    (0x2D4980, .add 5 42 19),
    (0x22D4980, .sub 5 42 19),
    (0x42D4980, .and 5 42 19),
    (0x62D4980, .or 5 42 19),
    (0x82D4980, .xor 5 42 19),
    (0xA2D4980, .andn 5 42 19),
    (0xC2D4980, .shl 5 42 19),
    (0xE2D4980, .shr 5 42 19),
    (0x102D4980, .sar 5 42 19),
    (0x122D4980, .rol 5 42 19),
    (0x142D4980, .min 5 42 19),
    (0x162D4980, .max 5 42 19)] = true := by decide
theorem test_words_scalar_2 : reads .scalar [
    (0x182D4980, .minn 5 42 19),
    (0x1A2D4980, .maxn 5 42 19),
    (0x1C2D4980, .mul 5 42 19),
    (0x1E2D4980, .mulh 5 42 19),
    (0x202D4980, .mulhn 5 42 19),
    (0x222D4980, .div 5 42 19),
    (0x242D4980, .divn 5 42 19),
    (0x262D4980, .rem 5 42 19),
    (0x282D4980, .remn 5 42 19),
    (0x2A2D4980, .cmpeq 5 42 19),
    (0x2C2D4980, .cmpne 5 42 19),
    (0x2E2D4980, .cmplt 5 42 19)] = true := by decide
theorem test_words_scalar_3 : reads .scalar [
    (0x302D4980, .cmple 5 42 19),
    (0x322D4980, .cmpltn 5 42 19),
    (0x342D4980, .cmplen 5 42 19),
    (0x362D49A1, .sel 5 42 19 33),
    (0x382D4000, .clz 5 42),
    (0x3A2D4000, .ctz 5 42),
    (0x3C2D4000, .popc 5 42),
    (0x3E2D4000, .brev 5 42),
    (0x402D4000, .bswap 5 42),
    (0x422D4981, .extb 5 42 19 true),
    (0x442D4980, .insb 5 42 19),
    (0x462D49BF, .addsh 5 42 19 63)] = true := by decide
theorem test_words_scalar_4 : reads .scalar [
    (0x502D5FFE, .addi 5 42 (-2)),
    (0x522D5FFE, .andi 5 42 (-2)),
    (0x542D5FFE, .ori 5 42 (-2)),
    (0x562D5FFE, .xori 5 42 (-2)),
    (0x582D402D, .shli 5 42 45),
    (0x5A2D402D, .shri 5 42 45),
    (0x5C2D402D, .sari 5 42 45),
    (0x5E2D4FFF, .cmpeqi 5 42 4095),
    (0x602D4FFF, .cmplti 5 42 4095),
    (0x622FFFFF, .movw 5 (-1)),
    (0x662CBEEF, .movk 5 2 0xBEEF),
    (0x702D4980, .fadd .f32 5 42 19)] = true := by decide
theorem test_words_scalar_5 : reads .scalar [
    (0x722D4981, .fsub .f64 5 42 19),
    (0x742D4980, .fmul .f32 5 42 19),
    (0x762D4981, .ffma .f64 5 42 19),
    (0x782D4980, .fmin .f32 5 42 19),
    (0x7A2D4981, .fmax .f64 5 42 19),
    (0x7C2D4987, .fcmp .f64 .le 5 42 19),
    (0x7E2D401C, .fcvt .bf16 .i32 5 42),
    (0x802D4001, .fclass .f64 5 42),
    (0x8828C003, .ptos 5 6 3),
    (0x90354000, .mpset 6 42),
    (0x9228E000, .mpget 5 7),
    (0x985D4000, .cntset 11 42)] = true := by decide
theorem test_words_scalar_6 : reads .scalar [
    (0x9A654000, .cntadd 12 42),
    (0x9C29A000, .cntrd 5 13),
    (0xA0280056, .csrrd 5 0x56),
    (0xA2054050, .csrwr 0x50 42),
    (0xA42D4980, .vdqry 5 42 19),
    (0xA6280005, .lix 5 5),
    (0xA8280000, .frameq 5)] = true := by decide
theorem test_words_control_1 : reads .control [
    (0x0, .nop),
    (0x1C000000, .ret),
    (0x30000000, .commit),
    (0x3C000000, .bar),
    (0x40000000, .sstep),
    (0x44000000, .yield),
    (0x48000000, .exit),
    (0x58000000, .ebreak),
    (0x5C000000, .eret),
    (0x64000000, .wfe),
    (0x68000000, .hinvall),
    (0x40FFFFC, .br (-4))] = true := by decide
theorem test_words_control_2 : reads .control [
    (0xAA00009, .brz 42 9),
    (0xEA80000, .brnz 42 0x80000),
    (0x12A03FFF, .jmp 42 (-1)),
    (0x1400004D, .call 77),
    (0x1AA00003, .callr 42 3),
    (0x22AFFFFF, .loop 42 0xFFFFF),
    (0x26AF0123, .loopi 0xABC 0x123),
    (0x2AA00001, .lbreak 42 true),
    (0x2E040000, .disarm 0x81),
    (0x3494E001, .waitlt 9 19 0x2001),
    (0x38170000, .waittk 0x30 5),
    (0x4CF4FFFF, .signal 15 19 0x3FFF)] = true := by decide
theorem test_words_control_3 : reads .control [
    (0x5034C0AD, .launch 3 19 0x2D 2),
    (0x56A01234, .trap 42 0x1234),
    (0x6000005A, .flagwt 0x5A)] = true := by decide
theorem test_words_vector_1 : reads .vector [
    (0x1D540A0001, .vadd .f32 3 21 10 5 true),
    (0x11D540AC001, .vsub .n64 3 21 10 5 true),
    (0x21D540A2001, .vmul .bf16 3 21 10 5 true),
    (0x31D55CA1001, .vfma .f16 3 21 10 28 5 true),
    (0x41D55CA5001, .vfms .i8 3 21 10 28 5 true),
    (0x51D55CA6001, .vfnma .n8 3 21 10 28 5 true),
    (0x61D540A7001, .vmin .i16 3 21 10 5 true),
    (0x71D540A8001, .vmax .n16 3 21 10 5 true),
    (0x81D400A9000, .vabs .i32 3 21 5 false),
    (0x91D400AB000, .vneg .i64 3 21 5 false),
    (0xA1D540AD001, .vand .i4 3 21 10 5 true),
    (0xB1D540AE001, .vor .n4 3 21 10 5 true)] = true := by decide
theorem test_words_vector_2 : reads .vector [
    (0xC1D540A3001, .vxor .e4m3 3 21 10 5 true),
    (0xD1D540A4001, .vandn .e5m2 3 21 10 5 true),
    (0xE1D540AA001, .vshl .n32 3 21 10 5 true),
    (0xF1D540A9001, .vshr .i32 3 21 10 5 true),
    (0x101D540A9001, .vsar .i32 3 21 10 5 true),
    (0x111D540A9001, .vmulh .i32 3 21 10 5 true),
    (0x121D540A9001, .vavg .i32 3 21 10 5 true),
    (0x131D400A9000, .vclz .i32 3 21 5 false),
    (0x141D400A9000, .vpopc .i32 3 21 5 false),
    (0x1815540A000D, .vcmp .f32 .un 2 21 10 5 true),
    (0x191D540A9001, .vsel .i32 3 21 10 5 true),
    (0x1A1D400A9000, .vmov .i32 3 21 5 false)] = true := by decide
theorem test_words_vector_3 : reads .vector [
    (0x1B18000A5A80, .vbcast .i8 3 42 5 false),
    (0x1C057E105A81, .vext .i8 42 21 63 true),
    (0x1D1804305A80, .vins .i8 3 42 98 false),
    (0x1E18000A9001, .viota .i32 3 5 true),
    (0x201D540A9001, .vperm .i32 3 21 10 5 true),
    (0x211D400A9A80, .vrot .i32 3 21 42 5 false),
    (0x221D540A9A82, .vslide .i32 3 21 10 42 true 5 false),
    (0x231D540A9003, .vzip .i32 3 21 10 true 5 true),
    (0x241D540A9002, .vunzip .i32 3 21 10 true 5 false),
    (0x251D400A0000, .vredadd .f32 3 21 5 false),
    (0x261D400A0000, .vredmax .f32 3 21 5 false),
    (0x271D400A0000, .vredmin .f32 3 21 5 false)] = true := by decide
theorem test_words_vector_4 : reads .vector [
    (0x281D400A0000, .vscan .f32 3 21 5 false),
    (0x291D55CA5001, .vdot4 .i8 3 21 10 28 5 true),
    (0x2C1D400A40C1, .vcvt .e5m2 .f32 3 21 3 5 true),
    (0x2D1D540A500E, .vpack .i8 .i16 3 21 10 5 false),
    (0x2E1D400A0043, .vunpack .f32 .f16 3 21 true 5 true),
    (0x2F1D540A3880, .vscale .e4m3 .f32 3 21 10 2 .all 5 false),
    (0x301D41CA4001, .vabsmax .e5m2 3 21 28 5 true),
    (0x3410C8000000, .pand 2 3 4 false),
    (0x3510C8000000, .por 2 3 4 false),
    (0x3610C8000000, .pxor 2 3 4 false),
    (0x3710C0000001, .pnot 2 3 true),
    (0x38103E106000, .pset .n8 2 63 false)] = true := by decide
theorem test_words_vector_5 : reads .vector [
    (0x3900C0009A80, .pcount .i32 42 3 false),
    (0x3A00C0009A81, .pfirst .i32 42 3 true)] = true := by decide
theorem test_words_special_1 : reads .special [
    (0x750500, .frcp .f32 3 21 5 false),
    (0xC750508, .frsq .f16 3 21 5 true),
    (0x10755510, .frcps .bf16 3 21 10 5 false),
    (0x1C755500, .frsqs .f32 3 21 10 5 true),
    (0x20750508, .fsqrt .f16 3 21 5 false),
    (0x2C755510, .fdiv .bf16 3 21 10 5 true),
    (0x30750500, .fexp2 .f32 3 21 5 false),
    (0x3C750508, .flog2 .f16 3 21 5 true),
    (0x40750510, .fsin .bf16 3 21 5 false),
    (0x4C750500, .fcos .f32 3 21 5 true),
    (0x50750508, .ftanh .f16 3 21 5 false),
    (0x5C750510, .fsigm .bf16 3 21 5 true)] = true := by decide
theorem test_words_special_2 : reads .special [
    (0x60750500, .fgelu .f32 3 21 5 false),
    (0x6C750508, .fclassv .f16 3 21 5 true)] = true := by decide
theorem test_words_memory_1 : reads .memory [
    (0x10D57FFFFF8, .ld 5 33 42 (-8) true (-1)),
    (0x30D57FFFFF8, .st 5 33 42 (-8) true (-1)),
    (0x41D5701FF00, .vld 3 42 5 0x1FF00 true 0x40),
    (0x61D5701FF00, .vst 3 42 5 0x1FF00 true 0x40),
    (0x81D5701FF00, .vldw 3 42 5 0x1FF00 true 0x40),
    (0xA1D5701FF00, .vstw 3 42 5 0x1FF00 true 0x40),
    (0x1004D4000000, .xlt 9 42),
    (0x120480000000, .hinv 9),
    (0x150C80000000, .hqry 33 9),
    (0x3A0000000000, .drain),
    (0x3C0000000039, .fence .package true false false true),
    (0x210CD5BFABCF, .ldl 6 33 9 42 (-1) 0xABC true (-1))] = true := by decide
theorem test_words_memory_2 : reads .memory [
    (0x221CD5400017, .vldl 3 9 42 5 7 1 false 0),
    (0x241CD5400018, .vldlx 2 3 9 42 5 1 false 0),
    (0x261CAB400018, .vgath 3 9 21 5 (-8) 1 false 0),
    (0x290CD4E20001, .sth 3 33 9 42 1 true 2),
    (0x2A1CD5620001, .vsth 3 9 42 5 1 true 2),
    (0x2C1CD562000C, .vsthx 3 3 9 42 5 true 2),
    (0x2E1CAB620001, .vscat 3 9 21 5 1 true 2),
    (0x3018D562FFF1, .vlda true 3 42 5 1 0xFFF true 2),
    (0x321855400011, .vsta false 3 42 5 1 1 false 0),
    (0x3804D4000005, .pld 9 42 5),
    (0x410CD49C507F, .amoadd true false .ar .die 33 9 42 19 0x7F),
    (0x430CD49C507F, .amomin true false .ar .die 33 9 42 19 0x7F)] = true := by decide
theorem test_words_memory_3 : reads .memory [
    (0x450CD49C507F, .amomax true false .ar .die 33 9 42 19 0x7F),
    (0x470CD49C507F, .amoand true false .ar .die 33 9 42 19 0x7F),
    (0x490CD49C507F, .amoor true false .ar .die 33 9 42 19 0x7F),
    (0x4B0CD49C507F, .amoxor true false .ar .die 33 9 42 19 0x7F),
    (0x4D0CD49C507F, .amoswp true false .ar .die 33 9 42 19 0x7F),
    (0x4F0CD49C507F, .amocas true false .ar .die 33 9 42 19 0x7F),
    (0x510CD49C507F, .amofadd true false .ar .die 33 9 42 19 0x7F),
    (0x58048653A000, .redadd false true .rel .system 9 3 10),
    (0x5A048653A000, .redmin false true .rel .system 9 3 10),
    (0x5C048653A000, .redmax false true .rel .system 9 3 10),
    (0x5E048653A000, .redfadd false true .rel .system 9 3 10)] = true := by decide
theorem test_words_matrix_1 : reads .matrix [
    (0xD63C37F, .mcall 0x2B ⟨7, 33, 5⟩ true (-1)),
    (0x1543C340, .mfmt 42 ⟨7, 33, 5⟩),
    (0x2543C340, .mchk 42 ⟨7, 33, 5⟩),
    (0x3543C340, .mclr 42 ⟨7, 33, 5⟩),
    (0x4543C340, .mldstore 42 ⟨7, 33, 5⟩)] = true := by decide
theorem test_words_copy_1 : reads .copy [
    (0x23C36B5273FFFFF, .cpy ⟨7, 33, 5⟩ 21 42 19 9 true (-1)),
    (0x63C36B5273FFFFF, .cpysig ⟨7, 33, 5⟩ 21 42 19 9 true (-1)),
    (0xA3C36B5273FFFFF, .cpeer ⟨7, 33, 5⟩ 21 42 19 9 true (-1)),
    (0xC3C341526000000, .bankcfg ⟨7, 33, 5⟩ 42 19),
    (0x103C341501200000, .strmbind ⟨7, 33, 5⟩ 42 9),
    (0x143C341526000000, .strmrel ⟨7, 33, 5⟩ 42 19),
    (0x183C341526000000, .pgload ⟨7, 33, 5⟩ 42 19),
    (0x1C3C340026000000, .pgrun ⟨7, 33, 5⟩ 19),
    (0x203C340026000000, .pgstop ⟨7, 33, 5⟩ 19),
    (0x243C36B501200000, .psend ⟨7, 33, 5⟩ 21 42 9),
    (0x283C341500000000, .pgrant ⟨7, 33, 5⟩ 42),
    (0x2C3C341526000000, .cflush ⟨7, 33, 5⟩ 42 19)] = true := by decide
theorem test_words_copy_2 : reads .copy [
    (0x303C341526000000, .cinv ⟨7, 33, 5⟩ 42 19)] = true := by decide

/-! ## States that meet the hypotheses of the statements -/

/-- The state after reset with another core 0 of CD0. -/
def atCore (f : Core → Core) : State := { State.reset with core := f State.reset.core }
/-- Scalar register `r` holds `x`. -/
def withS (l : List (SReg × Word)) : State := atCore fun c => l.foldl (fun c x => c.setS x.1 x.2) c
def snap0 : Snap :=
  { tick := 0, pend := [], arb := [], latch := [], grp := ⟨0, []⟩, loops := [], wait := none, dead := 0, horizon := 0 }
def loop0 : LoopEnt := ⟨0, 4, 8, 8⟩
/-- The strand of the placed program on core 0, its task accepted. -/
def running : State := { atCore (fun c => { c with strand := some placedStrand }) with tasks := [placedTask] }

theorem witness_ScalarDivision :
    (State.reset.core.s 2 = 0) ∧
    ((withS [(1, BitVec.ofInt 64 (-2 ^ 63)), (2, BitVec.allOnes 64)]).core.s 1).toInt = -2 ^ 63 ∧
    ((withS [(1, BitVec.ofInt 64 (-2 ^ 63)), (2, BitVec.allOnes 64)]).core.s 2).toInt = -1 ∧
    (withS [(1, 7), (2, 2)]).core.s 2 ≠ 0 ∧
    ¬(((withS [(1, 7), (2, 2)]).core.s 1).toInt = -2 ^ 63 ∧ ((withS [(1, 7), (2, 2)]).core.s 2).toInt = -1) := by decide
theorem witness_ScalarFloatComparison :
    fpIsNan .f32 (fpOperand .f32 ((withS [(1, 0x7FC00000)]).core.s 1)) = true ∧
    fpIsNan .f64 (fpOperand .f64 ((withS [(1, 0x7FF0000000000000)]).core.s 1)) = false := by decide
theorem witness_ScalarMoves :
    (atCore fun c => { c with loops := [loop0] }).core.loops[(0 : BitVec 13).toNat]? = some loop0 ∧
    (atCore fun c => { c with loops := [loop0] }).core.loops.length ≤ (1 : BitVec 13).toNat := by decide
theorem witness_VirtualDieDistance :
    running.core.strand = some placedStrand ∧ vdieOf running placedStrand.ctx 4 = none ∧
    4 ≤ ((withS [(1, 4)]).core.s 1).toNat ∧ vdieOf running placedStrand.ctx 0 = some .cd0 ∧
    vdieOf running placedStrand.ctx 3 = some .md1 := by decide
theorem witness_CsrAccess :
    (0x05B : BitVec 13).toNat ∈ [0x000, 0x001, 0x030, 0x040, 0x050, 0x058, 0x059, 0x05A, 0x05B] ∧
    (0x055 : BitVec 13).toNat ∉ [0x000, 0x001, 0x002, 0x003, 0x010, 0x011, 0x012, 0x020, 0x021, 0x030, 0x040, 0x050, 0x051, 0x052,
      0x053, 0x054, 0x056, 0x058, 0x059, 0x05A, 0x05B] := by decide
theorem witness_CsrWriteEffects :
    (0x8700000000000000 : Word).getLsbD 63 = true ∧ 6 < (0x8700000000000000 : Word).toNat / 2 ^ 56 % 16 := by decide
/-- A pending write of s1. -/
def pend0 (due no : Nat) : Pend := { due := due, no := no, wr := .s 1 7, fl := 0, walk := none }
theorem witness_PendingWritesFallDue :
    State.reset.core.arb = [] ∧ (atCore fun c => { c with pend := [pend0 0 0] }).core.pend = [pend0 0 0] ∧
    0 ≤ State.reset.core.tick ∧ State.reset.core.tick < 1 ∧
    (atCore fun c => { c with pend := [pend0 0 0, pend0 0 1] }).core.pend = [pend0 0 0, pend0 0 1] ∧
    (atCore fun c => { c with pend := [pend0 0 0, pend0 1 1] }).core.pend = [pend0 0 0, pend0 1 1] := by decide
theorem witness_ControlTransfers :
    ((State.reset.core.pc + 2 * (4 : BitVec 20).toInt) % 2 ^ 64).toNat % 2 = 0 ∧
    (((atCore fun c => { c with pc := 7 }).core.pc + 2 * (4 : BitVec 20).toInt) % 2 ^ 64).toNat % 2 = 1 ∧
    State.reset.core.s 1 = 0 ∧ (withS [(1, 9)]).core.s 1 ≠ 0 ∧
    ((withS [(1, 8)]).core.s 1 + 2 * (3 : BitVec 14).signExtend 64).toNat % 2 = 0 ∧
    ((withS [(1, 9)]).core.s 1 + 2 * (3 : BitVec 14).signExtend 64).toNat % 2 = 1 ∧
    (State.reset.core.s 63).toNat % 2 = 0 ∧ ((withS [(63, 9)]).core.s 63).toNat % 2 = 1 := by decide
theorem witness_Loops :
    0 < ((withS [(1, 3)]).core.s 1).toNat ∧ ((withS [(1, 3)]).core.s 1).toNat < 2 ^ 32 ∧
    (withS [(1, 3)]).core.loops.length < 6 ∧ 0 < (3 : BitVec 12).toNat ∧ (State.reset.core.s 1).toNat = 0 ∧
    2 ^ 32 ≤ ((withS [(1, 0x100000000)]).core.s 1).toNat ∧
    6 ≤ (atCore fun c => { c.setS 1 3 with loops := List.replicate 6 loop0 }).core.loops.length ∧ State.reset.core.loops = [] ∧
    (atCore fun c => { c with loops := [loop0] }).core.loops = loop0 :: [] ∧ (State.reset.core.s 1 == 0) = true ∧
    ((withS [(1, 3)]).core.s 1 == 0) = !true := by decide
/-- A strand asked to stop at a commit; the save pool of CD0 has two slots. -/
def asked : State :=
  { running with core := { running.core with stop := true }, dies := running.dies.map (·.setReg 0xA500 0x1000000002) }
theorem witness_WaitsAndCommits :
    running.core.snap = none ∧ running.core.strand = some placedStrand ∧ running.core.stop = false ∧ asked.core.stop = true ∧
    asked.core.atCommit = true ∧ asked.core.snap = none ∧ asked.reserveSlots.isSome = true ∧
    (atCore fun c => { c with snap := some snap0 }).core.snap.isSome = true := by decide
theorem witness_TrapOperations :
    (atCore fun c => { c with tvec := 0x40 }).core.tvec ≠ 0 ∧ (atCore fun c => { c with tvec := 0x40 }).core.snap = none ∧
    (atCore fun c => { c with snap := some snap0 }).core.snap.isSome = true ∧ State.reset.core.snap = none := by decide
theorem witness_TakingATrap :
    (3 : Nat) < 16 ∧ running.core.pend.all (fun p => !p.isCt) = true ∧ running.core.snap = none ∧ trapResumes .soft = true ∧
    (atCore fun c => { c with tvec := 0x40 }).core.tvec ≠ 0 ∧ running.core.strand = some placedStrand ∧
    running.findTask placedStrand.task = some placedTask ∧ placedTask.status = 0 ∧ trapResumes .misaligned = false ∧
    running.core.tvec = 0 ∧ ({ running.core with snap := some snap0 } : Core).snap.isSome = true := by decide
/-- A handler that has issued ERET. -/
def returning : State := { running with core := { running.core with snap := some snap0, wait := some .eret } }
theorem witness_ReturnFromTrap :
    returning.core.strand = some placedStrand ∧ returning.core.snap = some snap0 ∧ returning.core.wait = some .eret ∧
    returning.core.dead = 0 ∧ returning.core.ended = false ∧ returning.core.stopping = none ∧
    returning.core.frozen = false := by decide

/-- A strand whose h0 is `x`, with room in its budget. -/
def holding (x : HWord) : State :=
  { running with core := { running.core.setH 0 x with inst := { running.core.inst with budget := 256 } } }
/-- A handle of the page at VA 0x8000 that lies at PA 0x28000, with every right; one whose page is absent; one not valid. -/
def present : HWord := mkHandle 1 1 ⟨some ⟨0, true, true, true, 0x28000⟩, none⟩ true
def absent : HWord := mkHandle 1 1 ⟨none, none⟩ true
def unwalked : HWord := mkHandle 1 1 ⟨none, none⟩ false
/-- The hypotheses of PostsAt for elements `es` and a right: through `present`, and through `absent`. -/
def mayPost (es : List Elem) (al each : Bool) (right : Right) (units : Nat) : Bool :=
  let s := holding present
  let u := holding absent
  es.all (fun e => e.off < 2 ^ 27 && e.off + e.len ≤ pageBytes (hSize present)) && al && !es.isEmpty && hInit (s.core.h 0) &&
    hValid (s.core.h 0) && hPresent (s.core.h 0) && hRight (s.core.h 0) right && s.core.trellis.isEmpty && s.flight.isEmpty &&
    decide (s.core.inst.used + units ≤ s.core.inst.budget) && hInit (u.core.h 0) && hValid (u.core.h 0) && !hPresent (u.core.h 0) &&
    hInit ((holding unwalked).core.h 0) && !hValid ((holding unwalked).core.h 0) &&
    decide (u.core.inst.used + max units (linesOf es) ≤ u.core.inst.budget) &&
    decide (u.core.trellis.length + (if each then es.length else 1) ≤ 256)
theorem witness_SignalsAndLaunches :
    mayPost [{ off := 8, len := 8, pos := 0, data := 3, cmp := 0 }] (8 % 8 == 0) false .a 1 = true ∧
    mayPost [{ off := 64, len := 64, pos := 0, data := 0, cmp := 0 }] (64 % 64 == 0) false .r 1 = true ∧
    (vdieOf (holding present) placedStrand.ctx 0).isSome = true ∧
    vdieOf { holding present with rhoath := { Rhoath.reset with regs := [(0x2010, 0)] } } placedStrand.ctx 3 = none ∧
    hInit ((holding present).core.h 0) = true ∧ 0 % 64 = 0 ∧ 0 + 64 ≤ 2 ^ 15 := by decide

/-- VectorIntegerArithmetic, VectorFloatArithmetic, VectorMoves, VectorWritesByElement, VectorReductionsAndConversions,
VectorComparesAndPredicates and SpecialFunctions: types of every kind, a lane at its bound, registers that are not hard-wired. -/
theorem witness_VectorTypes :
    ElemType.isInt .i8 = true ∧ ElemType.signed .i8 = true ∧ ElemType.isFlt .f32 = true ∧ ElemType.isF8 .e4m3 = true ∧
    (3 : BitVec 10).toNat < ElemType.lanes .f32 ∧ (63 : Nat) < ElemType.lanes .f32 ∧ (2 : PReg) ≠ 0 ∧ (3 : VRegN) ≠ 2 := by decide
theorem witness_ConversionPlaces :
    ElemType.isW4 .f16 = false ∧ ElemType.isW4 .f32 = false ∧ (1 : BitVec 4).toNat < widthFactor .f16 .f32 := by decide
theorem witness_FormatsHoldTheirValues :
    fp16 ∈ [fp32, fp64, fp16, bf16, e4m3, e5m2] ∧ 0x3C00 < 2 ^ fp16.bits ∧ (decodeVal fp16 0x3C00).isNan = false ∧
    200 < 2 ^ ElemType.width .i8 := by decide
/-- NearScratchpadLoads and NearScratchpadStores, each clause at the last place of the scratchpad and beyond it. -/
theorem witness_NearScratchpadAccesses :
    let off (n : Word) : Nat := (withS [(1, n)]).addrM1 1 0
    off 0x1FFFF8 % Machine.sizeOf 3 = 0 ∧ off 0x1FFFF8 + Machine.sizeOf 3 ≤ nspSize ⟨.cd0, 0⟩ ∧ (withS []).core.stale = [] ∧
    (withS []).core.injArmed = false ∧ off 0x1FFF00 % 256 = 0 ∧ off 0x1FFF00 + 256 ≤ nspSize ⟨.cd0, 0⟩ ∧ off 3 % Machine.sizeOf 3 ≠ 0 ∧
    off 0x200000 % Machine.sizeOf 3 = 0 ∧ off 0x200000 % 256 = 0 ∧ off 0x1FFF08 % 8 = 0 ∧ nspSize ⟨.cd0, 0⟩ < off 0x1FFF08 + 256 ∧ nspSize ⟨.cd0, 0⟩ < off 0x200000 + Machine.sizeOf 3 ∧ off 3 % 8 ≠ 0 ∧
    off 3 % 256 ≠ 0 ∧ Machine.sizeOf 3 ≤ 256 ∧ Memory.wf (withS []).mem = true := by decide +kernel
/-- A committed effect of the running strand. -/
def fenced0 : Effect :=
  { id := 5, core := ⟨.cd0, 0⟩, task := some placedTask.id, gang := 0, lcore := 0, ctx := 1, inst := 0, committed := true
    acked := false, kind := .signal 0x8000 0x28000 1 9 3 }
theorem witness_HandleOperations :
    running.core.strand = some placedStrand ∧ ((withS [(1, 0x8000)]).core.s 1).toNat / 2 ^ 55 = 0 ∧
    ((withS [(1, 0x80000000000000)]).core.s 1).toNat / 2 ^ 55 ≠ 0 ∧ ((withS [(1, 0x80000000000000)]).core.s 1).toNat / 2 ^ 55 ≠ 511 ∧
    hInit (running.core.h 0) = false ∧ hInit ((holding present).core.h 0) = true ∧ hValid ((holding present).core.h 0) = true ∧
    hInit ((holding unwalked).core.h 0) = true ∧ hValid ((holding unwalked).core.h 0) = false ∧ running.core.trellis = [] ∧
    running.flight = [] ∧ running.effects = [] ∧ ({ running with effects := [fenced0] } : State).effects ≠ [] ∧
    fenced0.task = some placedStrand.task ∧ fenced0.gang = placedStrand.gang ∧ fenced0.lcore = placedStrand.lcore := by decide +kernel
/-- The hypotheses of LandsAt for elements `es`: through `present`, `unwalked` and `absent`. -/
def mayLand (es : List Elem) (al : Bool) : Bool :=
  es.all (fun e => e.off < 2 ^ 27 && e.off + e.len ≤ pageBytes (hSize present)) && al &&
    [present, unwalked, absent].all (fun x => hInit ((holding x).core.h 0) && decide ((holding x).core.arbUsed < 64) &&
      (holding x).flight.isEmpty) && hR present && hValid present && hPresent present && !hValid unwalked && hValid absent &&
    !hPresent absent
/-- p1 names the first 8 bytes. -/
def few : PWord := 0xFF
theorem witness_LandingLoads :
    mayLand (one 8 8 0) (8 % 8 == 0) = true ∧ mayLand [] true = true ∧ mayLand (byteRuns few.getLsbD 8 0) true = true ∧
    mayLand (strideElems few 4 8 16 0) (allAligned 4 (strideElems few 4 8 16 0)) = true ∧
    mayLand (gatherElems (holding present) 0 few 0 0) (allAligned 4 (gatherElems (holding present) 0 few 0 0)) = true ∧
    byteRuns few.getLsbD 8 0 ≠ [] ∧ strideElems few 4 8 16 0 ≠ [] ∧ gatherElems (holding present) 0 few 0 0 ≠ [] := by decide +kernel
/-- A full Arbour. -/
def full : State :=
  let s := holding present
  let l : Landing := { id := 0, due := 9, no := 0, size := 1, reg := none, wr := none, fl := 0, trap := none, inst := 0 }
  { s with core := { s.core with arb := List.replicate 64 l } }
/-- LandingTraps, in the four loads alike: each condition of LandTraps, on an element of 8 bytes. -/
theorem witness_LandingTraps :
    (2 ^ 27 - 8 < 2 ^ 27 ∧ ¬ 2 ^ 27 < 2 ^ 27) ∧ byteRuns few.getLsbD 0x8000 0 ≠ [] ∧
    allAligned 4 (strideElems few 4 6 16 0) = false ∧ allAligned 4 (gatherElems (holding present) 0 few 1 0) = true ∧
    hInit (running.core.h 0) = false ∧ hInit (full.core.h 0) = true ∧ 64 < full.core.arbUsed + 1 ∧
    hInit ((holding present).core.h 0) = true ∧ (holding present).core.arbUsed < 64 ∧
    (hValid present && hPresent present) = true ∧ pageBytes (hSize present) < 0x8000 + 8 ∧ 8 + 8 ≤ pageBytes (hSize present) ∧
    hInit ((holding unwalked).core.h 0) = true ∧ hValid ((holding unwalked).core.h 0) = false ∧ (holding unwalked).core.arbUsed < 64 ∧
    hR (mkHandle 1 1 ⟨some ⟨0, true, true, false, 0x28000⟩, none⟩ true) = false ∧ hR present = true ∧ 3 % 8 ≠ 0 := by decide +kernel
theorem witness_PostedStores :
    mayPost (one 8 8 5) (8 % 8 == 0) false .w (linesOf (one 8 8 5)) = true ∧
    mayPost (byteRuns few.getLsbD 8 5) true false .w (linesOf (byteRuns few.getLsbD 8 5)) = true ∧
    mayPost (strideElems few 4 8 16 5) (allAligned 4 (strideElems few 4 8 16 5)) false .w 2 = true ∧
    mayPost (gatherElems (holding present) 0 few 0 5) (allAligned 4 (gatherElems (holding present) 0 few 0 5)) true .w 2 =
      true := by decide +kernel
theorem witness_AccumulatorAccesses :
    let e (n : Word) : Nat := (withS [(1, n)]).addrM2 1 0 64
    e 131008 % 64 = 0 ∧ e 131008 + 64 ≤ accEntries ⟨.cd0, 0⟩ ∧ (withS []).core.arbUsed < 64 ∧ e 3 % 64 ≠ 0 ∧
    accEntries ⟨.cd0, 0⟩ < e 131072 + 64 ∧ e 0 % 64 = 0 ∧ e 0 + 64 ≤ accEntries full.core.id ∧ 64 ≤ full.core.arbUsed ∧
    (let s : State := { full with core := full.core.setS 1 3 }; s.addrM2 1 0 64 % 64 ≠ 0 ∧ 64 ≤ s.core.arbUsed) := by decide +kernel
/-- ReturningAtomics and PostedReductions. -/
theorem witness_Atomics :
    let s := holding present
    let t : State := { s with core := { s.core with inst := { s.core.inst with amoSent := 1 } } }
    let es := atomElems s .add false false 1 2 3
    s.core.snap = none ∧ t.core.inst.amoSeen < t.core.inst.amoSent ∧ s.core.inst.amoSent ≤ s.core.inst.amoSeen ∧
    hInit (s.core.h 0) = true ∧ s.core.arbUsed + 2 ≤ 64 ∧ (∀ e ∈ es, e.off < 2 ^ 27 ∧ e.off % atomSize .add false = 0) ∧ es ≠ [] ∧
    hValid (s.core.h 0) = true ∧ hPresent (s.core.h 0) = true ∧ hA (s.core.h 0) = true ∧
    (∀ e ∈ es, e.off + e.len ≤ pageBytes (hSize (s.core.h 0))) ∧
    (∀ e ∈ atomElems s .add false true 1 2 3, e.off < 2 ^ 27 ∧ e.off % atomSize .add false = 0 ∧
      e.off + e.len ≤ pageBytes (hSize (s.core.h 0))) ∧
    mayPost (atomElems s .add false false 0 2 3) (allAligned 4 (atomElems s .add false false 0 2 3)) false .a 1 = true ∧
    mayPost (atomElems s .add false true 0 2 3) (allAligned 4 (atomElems s .add false true 0 2 3)) true .a 1 = true ∧
    ({ s.core with snap := some snap0 } : Core).snap.isSome = true := by decide +kernel

theorem witness_MatrixQueue :
    let s : State := { running with core := placedCore }
    s.core.store.find? (·.1 == (4 : BitVec 6).toNat) = some (4, 1, 8) ∧ acceptOk 8 s.core.efmtNow = true ∧
    s.core.ictx.addr = none ∧ s.core.xmq.length < 16 ∧
    16 ≤ ({ s.core with xmq := List.replicate 16 (entryOf (.mchk 1 ⟨0, 0, 0⟩) ⟨0, 0, 0⟩ 0 0 0 0 s) } : Core).xmq.length ∧
    ({ s.core.ictx with addr := some (64, 0, 0) } : ICtx).addr = some (64, 0, 0) ∧
    (∀ e ∈ [(4, 1, 8)], acceptOk e.2.2 0x4444 = true ∨ acceptOk 0 0 = false) ∧ s.core.store.find? (·.1 == (63 : BitVec 6).toNat) = none ∧
    efmtOk 0 = true ∧ efmtOk (BitVec.allOnes 64) = false := by decide +kernel
theorem witness_CopyQueue :
    let s := holding present
    let n := s.copyUnits (.cpy ⟨0, 0, 0⟩ 0 1 2 0 false 0) (s.core.v 0) 0
    let q := List.replicate 16 (entryOf (.pgrun ⟨0, 0, 0⟩ 1) ⟨0, 0, 0⟩ 0 0 0 0 s)
    s.core.ictx.addr = none ∧ s.core.inst.used + n ≤ s.core.inst.budget ∧ s.core.ceq.length < 16 ∧ 16 ≤ q.length ∧
    ({ s.core.inst with budget := 0 } : Inst).budget < s.core.inst.used + s.copyUnits (.cpysig ⟨0, 0, 0⟩ 0 1 2 0 false 0) (s.core.v 0) 0 := by
  decide +kernel
/-- Core 0 of CD0 with a started MCALL of routine `n`, one row and column of its region. -/
def calling (n : BitVec 6) : State :=
  let e := { entryOf (.mcall n ⟨0, 0, 0⟩ false 0) ⟨0, 0, 0⟩ 0 0 0 0 running with
    mp := #v[0, 0, 0, 0x0001000000010000, 0, 0, 0, 0] }
  { running with core := { running.core with
      store := shipped
      xmRun := some { ent := e, ran := false, status := 0, detail := 0, fl := 0, seen := 0, tile := none, hold := none } } }
/-- The same with the region and place of the parameters `mp`, and a plain tile of zeros, of bytes or of nibbles, at unit 0 of the
weight buffer. -/
def callingWith (n : BitVec 6) (mp : Vector Word 8) : State :=
  let s := calling n
  let hdr := if n = 2 then [(4, 0x10), (5, 0x20), (6, 2)] else [(4, 0x10), (5, 0x40)]
  { s with core := { s.core with wb := hdr, xmRun := s.core.xmRun.map fun x => { x with ent := { x.ent with mp := mp } } } }
/-- One row of A, one tile of one block; region of one row. -/
def mpMm : Vector Word 8 := #v[0, 0, 0x100000000, 0x10000, 1, 0, 0, 0]
/-- One row of 128 entries, its codes at 0 and its scale at 128. -/
def mpFp8 : Vector Word 8 := #v[0, 0x80, 0, 0x80000000010000, 0, 0, 0, 0]
/-- RoutineResults: ACC_ZERO and the plain drains on a region of one entry, each MM routine on one tile, the drain to FP8. -/
theorem witness_RoutineResults :
    Memory.wf (calling 4).mem = true ∧ (calling 4).core.injArmed = false ∧
    (∃ x, (calling 4).core.xmRun = some x ∧ x.ent.op = .mcall 4 ⟨0, 0, 0⟩ false 0 ∧ x.ran = false ∧ x.status = 0 ∧
      (rtParams x.ent).m ≤ 1 ∧ (rtParams x.ent).abase + 0 + (rtParams x.ent).nc * 4 ≤ nspSize ⟨.cd0, 0⟩) ∧
    (∃ t, exec (.accZero ⟨.cd0, 0⟩) (calling 4) = .next t) ∧
    (∀ n ∈ [(0 : BitVec 6), 1, 2, 3, 14], ((callingWith n mpMm).core.xmRun.map fun x =>
      (rtCheck (callingWith n mpMm).core n.toNat x.ent, x.ran, x.status)) = some ((0, 0), false, 0) ∧
      (callingWith n mpMm).core.old = [] ∧ (callingWith n mpMm).core.during = [] ∧ (callingWith n mpMm).core.stale = []) ∧
    ((callingWith 7 mpFp8).core.xmRun.map fun x =>
      let p := rtParams x.ent
      (p.nc % 128, p.m, p.abase + (p.m - 1) * p.abstr + p.nc, p.sbase)) = some (0, 1, 128, 128) ∧
    128 + 4 * (1 * (128 / 128)) ≤ nspSize ⟨.cd0, 0⟩ :=
  ⟨by decide, by decide, ⟨_, rfl, rfl, rfl, rfl, by decide, by decide⟩, ⟨_, rfl⟩, by decide +kernel, by decide +kernel, by decide⟩
/-- A queued MCLR, and an effect of an installation. -/
def mclr0 : QEntry := entryOf (.mclr 1 ⟨0, 0, 0⟩) ⟨0, 0, 0⟩ 0 0 0 0 running
def effect0 (k : EffKind) : Effect :=
  { id := 5, core := ⟨.cd0, 0⟩, task := some placedTask.id, gang := 0, lcore := 0, ctx := 1, inst := 0, committed := true
    acked := false, kind := k }
theorem witness_MatrixEngineEvents :
    let q : State := { running with core := { running.core with xmq := [mclr0], tiles := [true, false] } }
    let f : State := { running with effects := [effect0 (.install 20 1 8 0)] }
    (∀ n : BitVec 6, n.toNat < 16 → ∃ x, (calling n).core.xmRun = some x ∧ x.ent.op = .mcall n ⟨0, 0, 0⟩ false 0 ∧ x.ran = false ∧
      x.status = 0) ∧
    q.core.xmq = [mclr0] ∧ q.core.xmRoom.isSome = true ∧ (calling 4).core.xmDrain.head?.or (calling 4).core.xmRun = (calling 4).core.xmRun ∧
    q.core.strand = some placedStrand ∧ q.core.depsDone mclr0 = true ∧
    q.core.stopping = none ∧ q.core.tiles = true :: [false] ∧ q.core.tiles.tail = false :: [] ∧
    (calling 4).core.store.any (fun x => x.1 == (4 : BitVec 6).toNat && shipped.contains x) = true ∧ f.dies.map (·.id) = DieId.all ∧
    (f.effects.find? fun e => e.id == 5 && e.committed) = some (effect0 (.install 20 1 8 0)) :=
  ⟨fun _ _ => ⟨_, rfl, rfl, rfl, rfl⟩, by decide +kernel⟩

/-- A copy of 8 bytes from the start of the near scratchpad to offset 64 of it. -/
def copying : QEntry :=
  let e := entryOf (.cpy ⟨0, 0, 0⟩ 0 1 2 0 false 0) ⟨0, 0, 0⟩ 0 64 (0x411 * 2 ^ 128 + 8 * 2 ^ 192) 0 running
  { e with id := 7 }
/-- That command started, with packets still to be sent, and on their way. -/
def started (l : List Pkt) (air : List (Pkt × List Byte)) : CeRun :=
  { ent := copying, src := 0, dst := 64, pkts := l, air := air, data := [], landed := 0, status := 0, detail := 0, isLocal := true
    hold := none }
def packet0 : Pkt := ⟨0, 64, 8, 0, []⟩
def sent0 : Pkt × List Byte := (packet0, [1, 2, 3, 4, 5, 6, 7, 8])
/-- A put of chip 3 into the near scratchpad of core 0, which grants it. -/
def put0 : PeerPut :=
  { die := .cd0, ctx := 1, chip := 3, sgang := 0, score := 0, tgang := 0, tcore := 0, off := 64, data := [1, 2], bad := []
    flag := none, sender := none }
theorem witness_CopyEngineEvents :
    let q : State := { running with core := { running.core with ceq := [copying] } }
    let s : State := { running with core := { running.core with ceRun := [started [] [sent0]] } }
    let f := effect0 (.signal 0x8000 0x28000 1 9 3)
    let g : State := { running with effects := [f], nextId := 6 }
    let p : State := { running with
      effects := [effect0 (.psend .cd0 2 [1])], permits := [(.cd1, 3)]
      dies := running.dies.map fun d =>
        let d := (((d.setReg 0xB040 1).setReg 0xB048 2).setReg 0x4000 0x8200000000021020)
        (d.setReg 0x4008 (.ofNat 64 (bankBase .cd0 0 0))).setReg 0x4010 (.ofNat 64 (bankBase .cd0 1 0)) }
    let base := bankBase .cd0 0 0
    let st := { placedStrand with hasGrant := true, grants := [(0xC0, 0x3FFFFF00000000)] }
    let k : State := { running with core := { running.core with strand := some st } }
    q.core.ceq = copying :: [] ∧ q.core.strand = some placedStrand ∧ q.core.ceRun.length < 4 ∧ q.core.depsDone copying = true ∧
    q.core.stopping = none ∧ isCpysig copying.op = false ∧ (q.startEntry q.core placedStrand copying).2 = started [packet0] [] ∧
    s.core.ceRun.find? (·.ent.id == 7) = some (started [] [sent0]) ∧ (started [] [sent0]).air[0]? = some sent0 ∧
    (match s.writeDst s.core placedStrand (started [] [sent0]) sent0.1 sent0.2 true with | .done _ => true | _ => false) = true ∧
    descDstSpace copying.desc = 1 ∧ packet0.dst + sent0.2.length ≤ nspSize s.core.id ∧ Memory.wf s.mem = true ∧
    runDone (started [] []) = true ∧ f.id < g.nextId ∧ g.effects.find? (fun e => e.id == 5 && e.committed) = some f ∧ g.flight = [] ∧
    g.copyPerformed 9 = true ∧ p.effects.find? (·.id == 5) = some (effect0 (.psend .cd0 2 [1])) ∧
    (p.directWrite (effect0 (.psend .cd0 2 [1])).core.die .cd0).isSome = true ∧ (p.nextBatch .cd0 2).map (·.id) = some 5 ∧ p.reg .cd0 (0xB008 + 2 * 0x20) % 4 ≠ 0 ∧
    bitAt (p.reg .cd0 (0xB000 + 2 * 0x20)) 0 = true ∧ p.dies.map (·.id) = DieId.all ∧ p.switching base = false ∧ Memory.wf p.mem = true ∧ p.badSeal = [] ∧
    (p.die .cd0).permits 0 (p.engineWho ⟨.cd0, 0⟩ (bitsAt (p.reg .cd0 0xB040) 4 4)) needW base = true ∧
    base = bankBase .cd0 (bitsAt (p.reg .cd0 0xB040) 8 3) (bitsAt (p.reg .cd0 0xB040) 16 6 + bitsAt (p.reg .cd0 0xB048) 2 1) ∧ (DieId.cd1, 3) ∈ p.permits ∧
    put0.bad = [] ∧ (k.putTarget put0).map (·.strand) = some (some st) ∧ putAccepted k.core put0 = true ∧
    put0.off + put0.data.length ≤ nspSize k.core.id ∧ Memory.wf k.mem = true := by decide +kernel

/-- `running` with the page tables of its context: the page at VA 0x8000 lies at PA 0x28000 with every right, and the
access tables of every die let the cores of context 1, and the PCIe unit, reach the DRAM. -/
def mapped : State :=
  let core := { running.core with inst := { running.core.inst with budget := 256 } }
  { running with
    core := core, mem := memPut (placedTables []) 0x20008 0x28073 8
    dies := running.dies.map fun d =>
      let base := dieBase d.id
      let d := (d.setReg 0xA010 0x8001).setReg 0x6000 0x8710000000020020
      let d := (d.setReg 0x6008 (.ofNat 64 base)).setReg 0x6010 (.ofNat 64 (base + 0x1FFFFFFF8000))
      let d := (d.setReg 0x6020 0x8700000000022020).setReg 0x6028 (.ofNat 64 base)
      d.setReg 0x6030 (.ofNat 64 (base + 0x1FFFFFFF8000)) }
/-- The Pergola of port 0 has one pending start. -/
def port0 : Port := { expect := [], frames := [], bind := none, plate := none, running := false, pending := [(true, ⟨.cd0, 0⟩, 3)], waiting := [] }
theorem witness_StreamAndPcieEvents :
    let y : State := { running with dies := running.dies.map fun d => { d with ports := [port0] } }
    let pa := dieBase .md0 + 0x40
    DieId.cd0.isMem = false ∧ running.down .cd0 = false ∧ bitAt (running.reg .cd0 (portOff 1)) 0 = false ∧
    y.dies.map (·.id) = DieId.all ∧ (y.die .cd0).ports[0]? = some port0 ∧ port0.pending = (true, ⟨.cd0, 0⟩, 3) :: [] ∧
    DieId.md0.isMem = true ∧ mapped.down .md0 = false ∧ mapped.redirect pa = pa ∧ mapped.failedSectors pa 2 = [] ∧
    mapped.switchingAny pa 2 = false ∧ mapped.mirrorNamed pa = false ∧ homesOf pa 2 = [.md0] ∧
    (mapped.directReads .md0 (homesOf pa 2)).isSome = true ∧
    mapped.judge (mapped.pcieWho .md0) needR pa = .ok ∧ mapped.judge (mapped.pcieWho .md0) needR (pa + 1) = .ok := by decide +kernel

/-- An access of core 0 to the 4 bytes at PA 0x28000. -/
def part0 : Part := { va := 0x8000, pa := 0x28000, len := 4, pos := 0, data := 3, cmp := 0 }
def access0 (act : Act) (stage : Stage) (order : Nat) : Access :=
  { mapped.core.access 5 act 0 1 [part0] with
    stage := stage, order := order, checked := true
    land := match act with | .load | .amo .. => some 3 | _ => none }
/-- `mapped` with that access. -/
def sent (a : Access) : State := { mapped with nextId := 6, flight := [a] }
/-- `mapped` with a replay list of one record for the address: gang 0, core 0, lane 0, atomic number `n`. -/
def replaying (n : Nat) (a : Access) : State :=
  let m := memPut (memPut mapped.mem 0x40000 (2 ^ 56 + 0x28000) 8) 0x40010 (n * 2 ^ 32) 8
  { sent a with mem := m, dies := mapped.dies.map fun d => (d.setReg 0xA230 0x40000).setReg 0xA238 1 }
theorem witness_HomeSliceEvents :
    let l := access0 .load .home 0
    let w := access0 .store .home 0
    let x := access0 (.amo .add false) .turn 0
    let y := access0 (.amo .add false) .turn 2
    let z := { access0 (.dec 2) .home 0 with parts := [{ part0 with len := 8 }] }
    let m : State := { sent z with mem := memPut mapped.mem 0x28000 5 8 }
    let v := { access0 .load .causal 0 with clock := List.replicate 16 0 }
    Memory.wf (sent l).mem = true ∧ (sent l).dies.map (·.id) = DieId.all ∧ (sent l).flight.find? (·.id == 5) = some l ∧
    (∀ y ∈ (sent l).flight, y.id < 6 ∧ ∀ n, y.land = some n → n < 6) ∧ (sent l).sibling l = none ∧ l.bad = none ∧ l.land.isSome ∧
    (sent l).homeReady l = true ∧ (sent l).down l.home = false ∧ l.held = false ∧ l.parts = [part0] ∧
    (sent l).judge ((sent l).whoIs l) needR part0.pa = .ok ∧ (sent l).failedSector part0.pa part0.len false = none ∧
    (sent w).homeReady w = true ∧ (sent w).judge ((sent w).whoIs w) needW part0.pa = .ok ∧
    (sent w).failedSector part0.pa part0.len true = none ∧
    ((sent x).flight.find? fun a => a.id == 5 && a.stage == .turn) = some x ∧ x.order = 0 ∧ (sent x).laneFirst x = true ∧ (sent x).isReserved part0.pa = false ∧
    (sent x).sibling x = none ∧ x.land.isSome ∧ (replaying 0 y).laneFirst y = true ∧ part0.len = 4 ∧ part0.data < 2 ^ (8 * 4) ∧
    y.order = 2 ∧ y.task = some placedTask.id ∧ Memory.wf (replaying 0 y).mem = true ∧
    ((replaying 0 y).die y.home).diverged = [] ∧
    (replaying 0 y).replayRecs y.home y.ctx part0.pa (((replaying 0 y).die y.home).arrived part0.pa placedTask.id) =
      [[2 ^ 56 + 0x28000, 0, 0]] ∧ recNames y part0 [2 ^ 56 + 0x28000, 0, 0] = true ∧
    (replaying 9 y).replayRecs y.home y.ctx part0.pa (((replaying 9 y).die y.home).arrived part0.pa placedTask.id) =
      [[2 ^ 56 + 0x28000, 0, 9 * 2 ^ 32]] ∧ recNames y part0 [2 ^ 56 + 0x28000, 0, 9 * 2 ^ 32] = false ∧
    (m.flight.find? fun a => a.id == 5 && a.stage == .home && a.checked && !a.held && a.home == a.core.die &&
      !a.parts.any fun p => m.switching p.pa) = some z ∧
    m.retired part0.pa 1 = false ∧ m.failedSector part0.pa 8 false = none ∧ 2 ≤ memNat m.mem part0.pa 8 ∧ memNat m.mem part0.pa 8 < 9 ∧
    bitsAt (m.reg z.home 0xA110) 0 5 = 0 ∧ Memory.wf m.mem = true ∧
    ((sent v).flight.find? fun a => a.id == 5 && a.stage == .causal) = some v ∧
    (∀ k, k < 4 → k = v.core.die.code ∨ winLe (v.clock.getD (4 * k + v.core.die.code) 0) (dlvAt ((sent v).die v.core.die) k) = true) := by
  decide +kernel

/-- A committed store in the log whose page a PFDONE has found. -/
def logged0 (va : Nat) : Trel :=
  { va := va, act := .store, ord := .rlx, sc := .gang, part := { part0 with va := va }, rest := [], copy := none, committed := true
    inst := 0, seq := 0, det := false, key := (0, 0, 0), ready := true }
/-- `mapped` with entry `t` in the log of core 0. -/
def logging (t : Trel) : State := { mapped with core := { mapped.core with trellis := [t] } }
/-- A task of `n` gangs of two cores of CD0, which wait in barrier 1, of the task where `sm`; strand 1 of gang 0 has ended. -/
def barred (n : Nat) (sm : Bool) : State :=
  let gang (g : Nat) : Gang :=
    { idx := g, die := .cd0, state := .running, cores := [⟨.cd0, 2 * g⟩, ⟨.cd0, 2 * g + 1⟩], loaded := [0, 1], saved := []
      ended := if g = 0 then [1] else [], counts := [], since := none, layout := some 0 }
  let core (g l : Nat) : Core :=
    { Core.reset ⟨.cd0, 2 * g + l⟩ with
      strand := if g = 0 && l = 1 then none else some { placedStrand with gang := g, lcore := l, gangSize := 2, gangCount := n }
      wait := some (.barrier sm 1), bars := 1, ssteps := 1 }
  { running with
    core := core 0 0, parked := (List.range (2 * n)).tail.map fun i => core (i / 2) (i % 2)
    tasks := [{ placedTask with pkt := placedTask.pkt.set 1 (.ofNat 64 (2 ^ 48 + 2 ^ 44)), gangs := (List.range n).map gang }] }
/-- What EpochsAndTheLog asks of the cores and strands of a task: every core that holds a strand of the gang or task waits, with all
its effects performed, and each strand has ended or holds a core. -/
def allWait (s : State) (g : Nat) (sm : Bool) : Bool :=
  s.tasks.all fun t =>
    s.cores.any (fun c => c.strand.isSome && !c.ended) &&
    (s.cores.all fun c => match c.strand with
      | none => true
      | some st => !(sm || st.gang == g) || (s.performed c && !c.ended && c.snap.isNone && c.wait == some (.barrier sm 1) &&
          decide (1 ≤ if sm then c.ssteps else c.bars))) &&
    (t.gangs.filter fun x => sm || x.idx == g).all fun x => (List.range t.gangSize).all fun l =>
      (x.ended.contains l && s.strandPerformed t.id x.idx l) || (!x.ended.contains l && s.cores.any fun c => match c.strand with
        | some st => st.task == t.id && st.gang == x.idx && st.lcore == l
        | none => false)
theorem witness_EpochsAndTheLog :
    let out (t : Trel) : Nat := match (logging t).directReads .cd0 ((logging t).walkDies 1 t.va) with
      | none => 3
      | some v => match v.replayCheck 1 t with | .ok [] => 0 | .ok (_ :: _) => 1 | .error _ => 2
    (barred 1 false).dies.map (·.id) = DieId.all ∧ (barred 2 true).dies.map (·.id) = DieId.all ∧
    ((barred 2 true).findTask placedTask.id).map (fun t => (t.gangSize, t.gangs.length)) = some (2, 2) ∧
    ((barred 1 false).findTask placedTask.id).map (fun t => (t.gangSize, t.gangs.length)) = some (2, 1) ∧
    allWait (barred 1 false) 0 false = true ∧ allWait (barred 2 true) 0 true = true ∧
    (logging (logged0 0x8000)).core.strand = some placedStrand ∧
    (logging (logged0 0x8000)).replayNext (logging (logged0 0x8000)).core = some (logged0 0x8000) ∧
    (logging (logged0 0x8000)).core.trapq.length < 16 ∧ (logging (logged0 0x8000)).flight = [] ∧ out (logged0 0x8000) = 1 ∧ out (logged0 0x10000) = 0 ∧
    out { logged0 0x8000 with part := { part0 with va := 0xFFFE } } = 2 := by decide +kernel

theorem witness_FabricEvents :
    let a := access0 .load .link 0
    let r := { access0 .load .rob 0 with clock := List.replicate 16 0 }
    let s : State := { running with credits := [(.cd1, .cd0, [0, 0, 0, 0])] }
    let k : State := running.updDie .cd0 fun d => { d with dlv := [0, 0, 0, 1] }
    let y : State := running.updDie .cd0 fun d => { d with dirty := [(1, 0)] }
    let b : State := running.updDie .cd0 fun d => { d with switches := [(0, 3, 1, ⟨.cd0, 0⟩, 7)] }
    let e : State := { running with effects := [effect0 (.put put0 true 0)] }
    (sent a).dies.map (·.id) = DieId.all ∧ ((sent a).flight.find? fun x => x.id == 5 && x.stage == .link) = some a ∧
    (sent a).down a.home = false ∧ a.epoch = ((sent a).die a.home).epoch ∧ (sent a).robFrom a.home a.core.die < 128 ∧
    { a with epoch := 1 }.epoch ≠ ((sent a).die a.home).epoch ∧
    ((sent r).flight.find? fun x => x.id == 5 && x.stage == .rob) = some r ∧ (sent r).deliverable r = true ∧
    r.parts.any (fun p => (sent r).switching p.pa) = false ∧ k.creditDue .cd0 = true ∧
    s.credits.find? (fun c => c.1 == DieId.cd1 && c.2.1 == DieId.cd0) = some (.cd1, .cd0, [0, 0, 0, 0]) ∧
    (1, 0) ∈ (y.die .cd0).dirty ∧ (y.die .cd0).mirror (64 * (64 / 64) % 2 ^ 49) = none ∧ y.down .cd0 = false ∧
    paDie 64 = some .cd0 ∧ placeOf 64 = .dram ∧ (∀ n, n < 32 → (y.die .cd0).quarantined n 0 = false) ∧
    (∀ x ∈ (sent a).flight, a.sent ≤ x.sent) ∧
    ((b.die .cd0).switches.find? fun x => x.1 == 0 && x.2.1 == 3) = some (0, 3, 1, ⟨.cd0, 0⟩, 7) ∧ (b.die .cd0).bankMode 0 3 ≠ 1 ∧
    e.effects.find? (·.id == 5) = some (effect0 (.put put0 true 0)) ∧ (effect0 (.put put0 true 0)).committed = true := by decide +kernel

/-- A core whose strand has recovery on, stops for reason 0 with a slot of the save pool, or sees a detector event. -/
def slotted : State :=
  let d := State.updDie running .cd0 fun d => { d.setReg 0xA500 0x1000000002 with slots := [(0, placedTask.id, 0, 0)] }
  { d with core := { d.core with stopping := some 0 } }
/-- An image with nothing but a section of code at VA 0x8000, signed. -/
def image0 : Image :=
  { ctx := 1, va := 0x8000, size := 0x8000, sign := some (0, 64), verified := false, restartable := false, priv := false
    codeVa := 0x8000, codeSize := 0x8000, layouts := [], pauses := [], regions := [⟨0, 0x7FFF, 256⟩], grants := none, routines := [] }
def counts0 : Counts :=
  { bars := 0, ssteps := 0, seq := 0, amos := 0, reds := 0, fences := [], logged := [], carried := [], efmtPend := [], cmds := []
    wait := none, kver := .replicate 16 0, core := ⟨.cd0, 0⟩, traps := [] }
/-- A gang of one core of CD0, in state `st`. -/
def gang0 (st : GangState) : Gang :=
  { idx := 0, die := .cd0, state := st, cores := [⟨.cd0, 0⟩], loaded := [], saved := [], ended := [], counts := [(0, counts0)]
    since := some 0, layout := some 0 }
theorem witness_DetectionAndStrands :
    let s := running
    let r : State := { running with core := { running.core with mode := 0x180 } }
    let t := { placedTask with image := some image0, gangs := [gang0 .running] }
    let l : State := { State.updDie State.reset .cd0 fun d => { d with slots := [(0, placedTask.id, 0, 0)] } with tasks := [t] }
    s.dies.map (·.id) = DieId.all ∧ s.core.strand = some placedStrand ∧ s.core.ended = false ∧ s.core.stopping = none ∧
    s.core.recovEn = false ∧ s.findTask placedStrand.task = some placedTask ∧ placedTask.status = 0 ∧
    r.core.recovEn = true ∧ bitsAt r.core.rcvstat.toNat 0 2 ≠ r.core.retryLimit ∧ r.core.events.length < 15 ∧
    slotted.core.strand = some placedStrand ∧ slotted.core.stopping = some 0 ∧
    slotted.slotBase .cd0 placedTask.id 0 0 = some 0x1000000000 ∧ slotted.core.quiet = true ∧ slotted.core.ended = false ∧
    slotted.core.trellis.length ≤ 256 ∧ slotted.core.arb.length ≤ 64 ∧ slotted.core.ceRun.length + slotted.core.ceq.length ≤ 20 ∧
    0x1000000000 + 2 ^ 23 ≤ nspBase slotted.core.id ∧
    slotted.slotSwitching 0x1000000000 = false ∧ slotted.slotBad 0x1000000000 = [] ∧ Memory.wf slotted.mem = true ∧
    paDie 0x1000000000 = some .cd0 ∧ (slotted.die .cd0).mirror (0x1000000000 % 2 ^ 49) = none ∧
    l.toLoad ⟨.cd0, 0⟩ placedTask.id 0 0 = some (t, image0, gang0 .running) ∧ (gang0 .running).saved.contains 0 = false ∧
    l.slotBase .cd0 placedTask.id 0 0 = some 0 ∧ l.slotSwitching 0 = false ∧ l.slotBad 0 = [] ∧ (gang0 .running).counts.find? (·.1 == 0) = some (0, counts0) := by
  decide +kernel

/-- `State.reset` with the tasks `l`; queue 0 of CD0 an enabled EDF queue that preempts after one frame tick. -/
def queued (l : List Task) (f : BitVec 48) : State :=
  { (State.reset.setQreg .cd0 0 0 0x104000201) with tasks := l, frame := f }
/-- A task whose packet names `n` wait conditions. -/
def waitingFor (n seq : Nat) : Task :=
  { placedTask with
    id := { placedTask.id with seq := seq }, ready := none, gangs := [gang0 .waiting], admitted := false
    pkt := placedTask.pkt.take 5 ++ [0] ++ List.replicate n (.ofNat 64 (2 ^ 53 + 0x1000)) }
theorem witness_TaskEvents :
    let t0 := { waitingFor 0 0 with released := false }
    let t1 := waitingFor 1 0
    let l := (List.range 129).map fun i => waitingFor 2 i
    let t2 := waitingFor 2 128
    let t3 := { waitingFor 0 0 with image := some image0 }
    let t4 := { waitingFor 0 0 with pkt := [0, 0, 0, 50, .ofNat 64 (2 ^ 11)] }
    let t5 := { waitingFor 0 0 with status := 4 }
    (queued [t0] 0).dies.map (·.id) = DieId.all ∧ (queued [t0] 0).findTask t0.id = some t0 ∧ t0.status = 0 ∧
    (queued [t0] 0).launchUp (homeOf t0.id) = true ∧ t0.release ≤ (queued [t0] 0).frame.toNat ∧ t0.cond 0 = none ∧
    t0.cond 1 = none ∧ (queued [t1] 0).findTask t1.id = some t1 ∧ (queued [t1] 0).launchUp .cd0 = true ∧
    t1 ∈ (queued [t1] 0).newsOf (((queued [t1] 0).conds .cd0).take 256) ∧ (queued l 0).findTask t2.id = some t2 ∧
    t2 ∈ (queued l 0).newsOf (((queued l 0).conds .cd0).drop 256) ∧ (queued [t3] 0).findTask t3.id = some t3 ∧
    image0.sign = some (0, 64) ∧ t3.status = 0 ∧ (queued [t4] 50).findTask t4.id = some t4 ∧ (queued [t4] 50).missed t4 = true ∧
    (queued [t5] 0).findTask t5.id = some t5 ∧ (queued [t5] 0).canRetire t5 = true ∧ (queued [t5] 0).completionHeld .cd0 t5 = false ∧ t5.id.queue < 64 := by decide +kernel

theorem witness_AdmissionEvents :
    let t := { waitingFor 0 0 with ready := some 0 }
    let u := { t with asks := some [] }
    let off : State := (queued [u] 0).updDie .cd0 fun d => { d with coresUp := false }
    let v := { t with id := { t.id with seq := 1 }, pkt := [0, 0, 0, 0, 0] }
    let p : State := (queued [placedTask, v] 1).updDie .cd0 fun d => { d with reserve := [(false, v.id, 0, 0)] }
    let w := { t with gangs := [{ gang0 .running with loaded := [0] }, { gang0 .waiting with idx := 1 }], layout := some 0, yielding := some 1 }
    let x := { w with gangs := [{ gang0 .waiting with idx := 1 }] }
    (queued [t] 0).dies.map (·.id) = DieId.all ∧ (queued [t] 0).admits .cd0 = true ∧
    ((queued [t] 0).pass .cd0 fun _ => true).tasks ≠ (queued [t] 0).tasks ∧
    (queued [u] 0).findTask u.id = some u ∧ u.nextAsk = some .cd0 ∧ u.status = 0 ∧ (queued [u] 0).launchUp (homeOf u.id) = true ∧
    ((queued [u] 0).pass .cd0 fun x => x.1.id != u.id && rankLt (x.1.rank x.2) (u.rank u.head)).askedAbove .cd0 u u.head = false ∧
    off.findTask u.id = some u ∧ off.launchUp (homeOf u.id) = true ∧ off.admits .cd0 = false ∧
    t.gangs.find? (·.idx == 0) = some (gang0 .waiting) ∧ t.rankClass = 1 ∧ (queued [t] 65536).admissible t = true ∧
    (queued [t] 65536).launchUp .cd0 = true ∧ (gang0 .waiting).since = some 0 ∧ 0 + 65536 ≤ (queued [t] 65536).frame.toNat ∧
    ((queued [t] 65536).die .cd0).reserve = [] ∧ p.launchUp .cd0 = true ∧ p.preemptFor .cd0 = some (v, 0) ∧
    lowest ((p.gangsOn .cd0 .running).filter fun x => x.1.rankClass != 0) = some (placedTask, 0) ∧
    p.fitsWith v 0 ((p.gangsOn .cd0 .stopping).flatMap fun x => x.1.coresOf x.2) = false ∧
    (queued [w] 0).findTask w.id = some w ∧ w.isSuper = false ∧ (queued [w] 0).admissible w = true ∧ w.layout.isSome = true ∧
    (∀ y ∈ w.gangs, y.state ≠ .stopping) ∧ (queued [w] 0).admits (homeOf w.id) = true ∧ (queued [w] 0).fitsWith w 1 [] = false ∧
    w.yielding = some 1 ∧ w.resident.getLast? = some { gang0 .running with loaded := [0] } ∧ (queued [x] 0).findTask x.id = some x ∧
    x.resident = [] ∧ (queued [x] 0).fitsWith x 1 [] = false := by decide +kernel

/-- A timetable of queue 3 of CD0. -/
def table0 (degraded : Bool) (next : Option Nat) : TTable :=
  { queue := 3, adopted := false, va := 0x8000, frameLen := 100, count := 0, alt := 0, entries := 1, frame := 0, s := 0
    began := false, next := next, degraded := degraded }
def timed (degraded : Bool) (next : Option Nat) : State :=
  (State.reset.setQreg .cd0 3 0 0x4000001).updDie .cd0 fun d => { d with tts := [table0 degraded next] }
theorem witness_QueueRegisters :
    let s := queued [] 0
    let w := Nat.land (0x4000201 : Word).toNat 0xFFFFF0F000E01
    let bad := Nat.land (0x4000C01 : Word).toNat 0xFFFFF0F000E01
    s.appUp ⟨.md0, 3⟩ = true ∧ s.appUp ⟨.md0, 8⟩ = false ∧ s.appUp ⟨.cd0, 0⟩ = false ∧ cfgEn (s.qreg .cd0 0 0) = true ∧
    s.dies.map (·.id) = DieId.all ∧ s.down .cd0 = false ∧ s.queueThere .cd0 0 = true ∧ s.queueThere .cd0 200 = false ∧
    cfgEdf (s.qreg .cd0 0 0) = true ∧
    ((1 : Word).toNat % 2 ^ 32 + 2 ^ 32 - s.qreg .cd0 0 0x18 % 2 ^ 32) % 2 ^ 32 ≤ 2 ^ cfgLog (s.qreg .cd0 0 0) ∧
    ((timed false none).die .cd0).tt 3 = some (table0 false none) ∧ cfgTrace w ≠ 3 ∧ 4 ≤ cfgLog w ∧ cfgLog w ≤ 12 ∧ cfgTrace bad = 3 ∧
    cfgEn (State.reset.qreg .cd0 0 0) = false ∧ 4 ≤ (4 : Word).toNat % 32 ∧ (4 : Word).toNat % 32 ≤ 11 := by decide +kernel
theorem witness_QueueEvents :
    let s := (queued [] 0).setQreg .cd0 0 0x10 1
    let a := { access0 (.launch 0 0) .home 0 with checked := false, parts := [{ part0 with len := 64 }] }
    let w := (queued [] 0).updDie .cd0 fun d => { d with launchWait := [(0, [])] }
    s.dies.map (·.id) = DieId.all ∧ s.ringReady .cd0 0 = true ∧ (s.packetHold .cd0 (s.ringSlot .cd0 0)).isSome = true ∧
    ((sent a).packetHold a.home part0.pa).isSome = true ∧ (sent a).flight.find? (·.id == 5) = some a ∧
    (sent a).launchTurn a = true ∧ (sent a).firstBad a = none ∧ (sent a).failedSector part0.pa 64 false = none ∧
    (w.die .cd0).launchWait.find? (·.1 == 0) = some (0, []) ∧ w.launchUp .cd0 = true ∧ w.queueLoad .cd0 0 < 64 ∧
    ((timed false (some 0)).die .cd0).tt 3 = some (table0 false (some 0)) ∧ (timed false (some 0)).launchUp .cd0 = true ∧
    (timed false (some 0)).unbindDue (table0 false (some 0)) = true ∧
    (timed false none).frameDue .cd0 3 = some (table0 false none) ∧ (timed true none).frameDue .cd0 3 = some (table0 true none) := by
  decide +kernel

/-- Core 0 frozen in a wait. -/
def frozenIn (w : Wait) : State := { running with core := { running.core with wait := some w, frozen := true, rx := 3 } }
theorem witness_WaitsEnd :
    let a := { access0 .load .reply 0 with land := some 4 }
    let k : Walk := { id := 9, core := ⟨.cd0, 0⟩, ctx := 1, va := 0x8000, h := 0, why := .handle, stale := false }
    let u : State := { running with walks := [k] }
    let full : State := { frozenIn (.room false) with
      core := { (frozenIn (.room false)).core with xmq := List.replicate 16 (entryOf (.mchk 1 ⟨0, 0, 0⟩) ⟨0, 0, 0⟩ 0 0 0 0 running) } }
    (sent a).flight.find? (·.id == 5) = some a ∧ a.stage = .reply ∧ a.land = some 4 ∧ u.walks.find? (·.id == 9) = some k ∧
    (u.directReads k.core.die (u.lookupDies k.core k.ctx k.va)).isSome = true ∧
    (frozenIn (.flags 3)).core.waiting = some (.flags 3) ∧ beforeIssue (.flags 3) = false ∧
    (frozenIn (.flags 3)).waitHolds (frozenIn (.flags 3)).core (.flags 3) = true ∧
    (frozenIn (.lt 0 1)).core.waiting = some (.lt 0 1) ∧ (frozenIn (.lt 0 1)).waitHolds (frozenIn (.lt 0 1)).core (.lt 0 1) = true ∧
    (frozenIn (.wfe false)).core.waiting = some (.wfe false) ∧ (frozenIn (.room true)).core.waiting = some (.room true) ∧
    (frozenIn (.room true)).core.xmq.length < 16 ∧ full.core.waiting = some (.room false) ∧ full.core.ceq.length < 16 ∧
    (sent a).flight.map (·.id) = [5] ∧ (sent a).nextId = 6 ∧ (sent a).nextId ≠ 0 ∧ running.flight = [] ∧ (frozenIn .sync).core.waiting = some .sync ∧ (frozenIn .sync).core.xmq = [] ∧
    (frozenIn .sync).core.ceq = [] := by decide +kernel

theorem witness_CommitsTrapsAndStops :
    let c : State := { running with core := { running.core with wait := some (.commit .next) } }
    let e : State := { running with core := { running.core with ended := true } }
    let q : State := { running with core := { running.core with trapq := [⟨.soft, 0, 0⟩], tvec := 0x40 } }
    let f : State := { running with core := { running.core with trapq := [⟨.soft, 0, 0⟩] } }
    let g := gang0 .stopping
    let x := { placedTask with gangs := [g] }
    let r : State := { running with tasks := [x] }
    c.core.strand = some placedStrand ∧ c.core.wait = some (.commit .next) ∧ c.core.dead = 0 ∧ c.core.frozen = false ∧
    c.core.stopping = none ∧ c.core.snap = none ∧ c.horizonsPassed c.core = true ∧ e.core.strand = some placedStrand ∧
    e.core.ended = true ∧ e.core.idle = true ∧ running.core.ended = false ∧ running.core.trapq.length < 16 ∧
    q.core.strand = some placedStrand ∧ q.trapTurn q.core = some ⟨.soft, 0, 0⟩ ∧ enters q.core ⟨.soft, 0, 0⟩ = true ∧
    f.core.strand = some placedStrand ∧ f.trapTurn f.core = some ⟨.soft, 0, 0⟩ ∧ enters f.core ⟨.soft, 0, 0⟩ = false ∧
    f.core.snap = none ∧ f.findTask placedStrand.task = some placedTask ∧ placedTask.status = 0 ∧
    r.findTask placedStrand.task = some x ∧ x.gangs.find? (·.idx == placedStrand.gang) = some g ∧ g.state = .stopping ∧
    r.core.stop = false ∧ asked.core.stop = true ∧ asked.core.ended = false ∧ asked.core.stopping = none ∧
    q.core.syncq = [] ∧ c.core.syncq ++ c.core.trapq = [] ∧ asked.core.xmRun = none ∧ asked.reserveSlots.isSome = true ∧ asked.core.strand = some placedStrand := by decide +kernel

theorem witness_RegisterWindow :
    let s := State.reset
    let on : State := s.updDie .cd0 fun d => (d.setReg 0xB060 1).setReg 0xC080 1
    let off : State := s.updDie .cd0 fun d => { d with uncoreUp := false }
    let w : State := { s with revokes := [(1, 4)] }
    s.appUp ⟨.md1, 7⟩ = true ∧ s.appUp ⟨.md1, 8⟩ = false ∧
    s.dies.map (·.id) = DieId.all ∧ s.down .cd0 = false ∧ off.down .cd0 = true ∧ s.rhoath.faultN = false ∧
    s.busyCtx (1 : BitVec 4).toNat = false ∧
    (∀ j, j < 4 → bitAt (0x83828180 : Word).toNat (8 * j + 7) = true → bitAt (0x83828180 : Word).toNat (8 * j + 2) = false) ∧
    running.core.strand = some placedStrand ∧ placedStrand.ctx = (1 : BitVec 4).toNat ∧
    (w.revokes.find? fun x => x.1 == (1 : BitVec 4).toNat && w.revokeOver (1 : BitVec 4).toNat x.2) = some (1, 4) ∧
    bitAt (7 : Word).toNat 63 = false ∧ bitAt (on.reg .cd0 (0xB000 + 3 * 0x20)) 0 = true ∧ DieId.cd0.isMem = false ∧
    bitAt (on.reg .cd0 (0xC000 + 1 * 0x80)) 0 = true ∧ s.busyOn .cd0 (1 : BitVec 4).toNat = false ∧
    (4096 : Word).toNat % 2 ^ 17 + (((List.range 16).filter (· != (1 : BitVec 4).toNat)).map fun c => s.reg .cd0 (0xA408 + c * 8)).sum ≤
      65536 ∧ (s.die .cd0).slots = [] := by decide +kernel

theorem witness_RhoathEvents :
    let s := State.reset
    let off : State := s.updDie .cd0 fun d => { d with uncoreUp := false, coresUp := false }
    let idle : State := s.updDie .cd0 fun d => { d with coresUp := false }
    let hot : State := s.updDie .cd0 fun d => { d with clockStep := 2 }
    s.dies.map (·.id) = DieId.all ∧ off.dies.map (·.id) = DieId.all ∧ off.down .cd0 = true ∧ off.rhoath.faultN = false ∧
    off.rhoath.recovering.contains .cd0 = false ∧ idle.down .cd0 = false ∧ (idle.die .cd0).coresUp = false ∧
    s.down .cd0 = false ∧ (s.die .cd0).removed = false ∧ s.channel = true ∧ 16 ≤ (16 : Word).toNat ∧ s.busyCtx 1 = false ∧
    running.channel = true ∧ running.busyCtx (1 : Word).toNat = true ∧ 4 ≤ (4 : Word).toNat ∧ (0 : Word).toNat = DieId.cd0.code ∧
    s.rhoath.recovering.contains .cd0 = false ∧ (299 : Word).toNat < 300 ∧ 1173 < (1174 : Word).toNat ∧
    300 ≤ (1173 : Word).toNat ∧ s.spdmUp .mailbox = true ∧ s.spdmUp (.doe .md0) = true ∧
    ({ s.rhoath with linkReqs := [(0, .width 32), (0, .freq .cd0 2)] } : Rhoath).nextChange 0 = some (.freq .cd0 2) ∧
    [LinkChange.width 32, .freq .cd0 2].all (requestOk 0) = true ∧
    ({ s.rhoath with linkReqs := [(0, .width 32)] } : Rhoath).nextChange 0 = some (.width 32) ∧ s.rhoath.mbq = [] ∧
    (s.rhoath.mbq ≠ [] ∨ s.rhoath.powerCap < 1200) ∧ 100 ≤ s.rhoath.powerCap ∧
    ((linkEnds 0).find? fun d => !s.down d).isSome = true ∧ 0 < s.rhoath.retrainFails.length ∧ (s.die .cd0).clockStep < 3 ∧
    0 < (hot.die .cd0).clockStep ∧ (hot.die .cd0).clockStep ≤ 4 ∧ (s.rhoathRead 0 64).isSome = true ∧
    (s.rhoathRead (2 ^ 48) 64).isSome = false := by decide +kernel
/-- DIE_FAILOVER of RhoathEvents: a task that waits, one that may restart, one that may not, and a superstep task of another die. -/
theorem witness_RhoathEvents_failover :
    let w := waitingFor 0 0
    let r := { placedTask with id := { placedTask.id with seq := 1 }, pkt := [0, 0, .ofNat 64 (2 ^ 63), 0, .ofNat 64 (2 ^ 11 + 2 ^ 10)] }
    let e := { placedTask with id := { placedTask.id with seq := 2 } }
    let u := { placedTask with id := { placedTask.id with die := .md1 }, pkt := [0, 0, .ofNat 64 (2 ^ 62), 0, 0] }
    let s : State := { State.reset with tasks := [w, r, e, u] }
    let f (i : TaskId) : TaskId := if i.die = .cd0 && !i.adopted then { i with adopted := true } else i
    s.dies.map (·.id) = DieId.all ∧ s.down .cd0 = false ∧ (s.die .cd0).removed = false ∧ (s.die DieId.cd0.twin).removed = false ∧
    s.flight = [] ∧ (s.tasks.map fun y => f y.id).Nodup ∧ s.tasks.all (·.status == 0) = true ∧ homeOf w.id = .cd0 ∧ u.isSuper = true ∧
    u.gangs.any (·.die == .cd0) = true ∧ w.admitted = false ∧ (r.admitted && bitAt (r.q 2) 63 && bitAt (r.q 4) 10) = true ∧
    (e.admitted && !(bitAt (e.q 2) 63 && bitAt (e.q 4) 10)) = true := by decide +kernel

/-- The bundle of one NOP placed, as the next that issues. -/
def placedNop : State := State.reset.withFetchWord 32 0
theorem witness_StepRunsDecoded_one_event :
    placedNop.core.strand = some placedStrand ∧
    ∃ e : Event, placedNop.nextEvents = [e] ∧ e placedNop = exec (.bundleIssue placedNop.core.id) placedNop :=
  ⟨by decide +kernel, _, rfl, rfl⟩

/-- The bundle of that NOP. -/
def nopBundle : Bundle :=
  { len := 4, rep := 0, sync := false, stop := true, join := false, ops := [(.ct, .nop)], rnd := .rne, sm := .none }
theorem witness_StepRunsDecoded_found :
    let s := placedNop
    let st := placedStrand
    let l : Leaf := ⟨0, false, false, true, 0x28000⟩
    0 < 2 ^ (16 * Slot.ct.halfwords) ∧ (decodeSlot Slot.ct.kind 0).toOption = some .nop ∧ st.priv = true ∧ s.core.pc + 8 ≤ st.codeSize ∧
    (s.lookup s.core.id st.ctx (st.codeVa + s.core.pc)).leaf = some l ∧
    (s.lookup s.core.id st.ctx (st.codeVa + s.core.pc + 4)).leaf = some l ∧ l.r = true ∧
    (st.codeVa + s.core.pc) % pageBytes l.size + 8 ≤ pageBytes l.size ∧ (∀ i, i < 8 → s.route (0x28000 + i) = 0x28000 + i ∧
      s.outOfReach (0x28000 + i) = none ∧ s.switching (0x28000 + i) = false) ∧
    (∀ o ∈ [0, 4], (s.directReads s.core.id.die (s.lookupDies s.core.id st.ctx (st.codeVa + s.core.pc + o))).isSome = true) ∧ memBytes s.mem 0x28000 8 = natBytes (oneSlotBundle .ct 0) 8 := by decide +kernel
theorem witness_StepRunsDecoded_issue :
    let s := placedNop
    s.find placedStrand = .bundle nopBundle ∧ Instr.armed .nop = false ∧ isAmo .nop = false ∧ isDrain .nop = false ∧
    commits .nop = false ∧ afterOthers .nop = false ∧ s.core.runs = true ∧ s.core.wait = none ∧ s.core.dead = 0 ∧ s.core.issue = 0 ∧
    s.core.pend = [] ∧ s.core.arb = [] ∧ s.core.latch = [] ∧ s.core.grp = ⟨0, []⟩ ∧ s.core.loops = [] ∧ placedStrand.pauses = [] ∧
    s.core.injArmed = false ∧ s.core.strand.isSome = true :=
  by decide +kernel
theorem witness_StepRunsDecoded_next (s : State) : exec .nop s = .next s := rfl
/-- A bundle of ADD placed, and a core with a tick without issue left. -/
theorem witness_StepRunsDecoded_complete :
    let s := State.reset.withFetchWord 32 0x2D4980
    let b : Bundle := { len := 4, rep := 0, sync := false, stop := true, join := false, ops := [(.sa, .add 5 42 19)], rnd := .rne
                        sm := .none }
    let w : State := { placedNop with core := { placedNop.core with dead := 1 } }
    s.core.strand = some placedStrand ∧ s.core.runs = true ∧ s.core.wait = none ∧ s.core.pend = [] ∧ s.core.arb = [] ∧
    s.core.dead = 0 ∧ s.core.issue = 0 ∧ s.core.latch = [] ∧ s.core.grp = ⟨0, []⟩ ∧ s.core.loops = [] ∧ s.core.injArmed = false ∧
    s.find placedStrand = .bundle b ∧ w.core.runs = true ∧ 0 < w.core.dead ∧ w.core.wait = none := by decide +kernel
theorem witness_EncodeThenDecode :
    Instr.wf (.addi 5 42 (-2)) = true ∧ encodeSlot .scalar (.addi 5 42 (-2)) = some 0x502D5FFE := by decide
theorem witness_DecodeThenEncode : 0x502D5FFE < 2 ^ (16 * SlotKind.scalar.halfwords) ∧
    (decodeSlot .scalar 0x502D5FFE).toOption = some (.addi 5 42 (-2)) := by decide
/-- Time alone passes from the state after reset. -/
theorem witness_step_from_reset : ∃ t, step State.reset = .next t := by
  have h : State.reset.nextEvents = [] := List.isEmpty_iff.1 (by decide +kernel)
  exact ⟨State.reset.now, by rw [step, h]⟩
theorem witness_StepKeepsMemoryCanonical : Memory.wf State.reset.mem = true ∧ ∃ t, step State.reset = .next t :=
  ⟨by decide, witness_step_from_reset⟩
theorem witness_StepKeepsDiesAndNumbers :
    State.reset.dies.map (·.id) = DieId.all ∧ State.reset.flight = [] ∧ ∃ t, step State.reset = .next t :=
  ⟨by decide, rfl, witness_step_from_reset⟩

/-! ## Single steps: what the last pending write of an instruction on a small state holds, and the flags it raises -/

/-- The last pending write that instruction `i` posts in state `s`, and its flags. -/
def posts (i : Instr) (s : State) : Option (Wr × Flags) :=
  match exec i s with
  | .next t => t.core.pend.getLast?.map fun p => (p.wr, p.fl)
  | _ => none
/-- What it posts to scalar register `r`. -/
def gives (i : Instr) (s : State) (r : SReg) (x : Word) (fl : Flags) : Bool := posts i s == some (.s r x, fl)
/-- Vector register 1 holds `a`, vector register 2 holds `b`. -/
def withV (a b : VWord) : State := { State.reset with core := (State.reset.core.setV 1 a (.allOnes 2048)).setV 2 b (.allOnes 2048) }
/-- The first `n` lanes of width `w` of the vector that is posted, and its flags. -/
def lanesOf (i : Instr) (s : State) (w n : Nat) : List Nat × Flags :=
  match posts i s with
  | some (.v _ x _, fl) => ((List.range n).map (laneOf x w), fl)
  | _ => ([], 0)

theorem test_add_wraps : gives (.add 3 1 2) (withS [(1, .allOnes 64), (2, 2)]) 3 1 0 = true := by decide
theorem test_s0_discards_its_write : (withS [(0, 5), (1, 6)]).core.s 0 = 0 ∧ (withS [(0, 5), (1, 6)]).core.s 1 = 6 := by decide
theorem test_addi_extends_its_immediate : gives (.addi 3 1 (-2)) (withS [(1, 1)]) 3 (.allOnes 64) 0 = true := by decide
theorem test_sub_order : gives (.sub 3 1 2) (withS [(1, 5), (2, 7)]) 3 (.ofInt 64 (-2)) 0 = true := by decide
theorem test_div_truncates_to_zero : gives (.div 3 1 2) (withS [(1, .ofInt 64 (-7)), (2, 2)]) 3 (.ofInt 64 (-3)) 0 = true := by decide
theorem test_rem_sign_of_dividend : gives (.rem 3 1 2) (withS [(1, .ofInt 64 (-7)), (2, 2)]) 3 (.ofInt 64 (-1)) 0 = true := by decide
theorem test_div_overflow_raises_iov :
    (posts (.div 3 1 2) (withS [(1, .ofInt 64 (-2 ^ 63)), (2, .allOnes 64)])).map (·.2) = some fIOV := by decide
theorem test_div_by_zero_raises_idz : (posts (.div 3 1 2) (withS [(1, 9)])).map (·.2) = some fIDZ := by decide
/-- FCVT.I32.F64 of 1.5 under RNE is 2, inexact (06 R158, 07 R192). -/
theorem test_fcvt_rounds_to_even : gives (.fcvt .i32 .f64 3 1) (withS [(1, 0x3FF8000000000000)]) 3 2 fNX = true := by decide
/-- 1.0 + 2^-53 in binary64 ties to 1.0. -/
theorem test_fadd_ties_to_even :
    gives (.fadd .f64 3 1 2) (withS [(1, 0x3FF0000000000000), (2, 0x3CA0000000000000)]) 3 0x3FF0000000000000 fNX = true := by
  decide +kernel

/-- 07 Table 07-7: the conversions to E4M3, without a prefix, under RTZ, under SAT and under RNA. -/
theorem test_numbers_e4m3_codes :
    let cv (m : Rnd) (sm : Sat) (x : Nat) : Nat × Flags := cvtNum (elemNum .e4m3) (elemNum .f32) m sm x
    let row (x : Nat) : List (Nat × Flags) := [cv .rne .none x, cv .rtz .none x, cv .rne .sat x, cv .rna .none x]
    row 0x43960000 = [(0x79, fNX), (0x79, fNX), (0x79, fNX), (0x79, fNX)] ∧
    row 0x43EB0000 = [(0x7F, fOF ||| fNX), (0x7E, fNX), (0x7E, fOF ||| fNX), (0x7F, fOF ||| fNX)] ∧
    row 0xC47A0000 = [(0xFF, fOF ||| fNX), (0xFE, fOF ||| fNX), (0xFE, fOF ||| fNX), (0xFF, fOF ||| fNX)] ∧
    row 0x3A800000 = [(0, fUF ||| fNX), (0, fUF ||| fNX), (0, fUF ||| fNX), (1, fUF ||| fNX)] ∧
    row 0x7F800000 = [(0x7F, fNV), (0x7F, fNV), (0x7E, 0), (0x7F, fNV)] ∧
    row 0x7FC00001 = [(0x7F, 0), (0x7F, 0), (0x7F, 0), (0x7F, 0)] ∧ cv .rne .satnz 0x7FC00001 = (0, 0) := by decide +kernel
/-- 07 Table 07-13: the tree of VREDADD. -/
theorem test_vredadd_is_a_tree :
    lanesOf (.vredadd .f32 3 1 0 true) (withV (ofLanes 32 (0x4B800000 :: List.replicate 63 0x3F800000)) 0) 32 1 =
      ([0x4B80001F], fNX) := by decide +kernel
/-- 08, the worked example of FRCP: 3.0, +0, +Inf and a subnormal. -/
theorem test_frcp_of_the_example :
    (lanesOf (.frcp .f32 2 1 0 true) (withV (ofLanes 32 [0x40400000, 0, 0x7F800000, 0x80080000]) 0) 32 4).1 =
      [0x3EAAB000, 0x7F800000, 0, 0xFF800000] := by decide +kernel
/-- The same example: FRCPS refines the first and passes the others through. -/
theorem test_frcps_of_the_example :
    (lanesOf (.frcps .f32 3 1 2 0 true) (withV (ofLanes 32 [0x40400000, 0, 0x7F800000, 0x80080000])
      (ofLanes 32 [0x3EAAB000, 0x7F800000, 0, 0xFF800000])) 32 4).1 = [0x3EAAAAAA, 0x7F800000, 0, 0xFF800000] := by decide +kernel
theorem test_vadd_wraps_by_lane :
    lanesOf (.vadd .n8 3 1 2 0 true) (withV (ofLanes 8 [0xFF, 1]) (ofLanes 8 [2, 3])) 8 3 = ([1, 4, 0], 0) := by decide +kernel

/-! ## Bundles, places and bindings, from the spec's worked examples -/

/-- 05 Table 05-7: the three bundles. -/
theorem test_bundle_addi : (decodeBundle false 0x80200204 0x50080040).toOption.map (·.ops) = some [(.sa, .addi 1 0 64)] := by decide
theorem test_bundle_vadd : ((decodeBundle false 0x80300806 (0x000886000000 + 0x21 * 2 ^ 48)).toOption.map fun b => (b.ops, b.rnd)) =
    some ([(.va, .vadd .f32 1 2 3 0 false)], .rtz) := by decide
theorem test_bundle_st : (decodeBundle false 0x00208005 0x023882040000).toOption.map (·.ops) = some [(.ma, .st 0 7 4 0 true 1)] := by
  decide
/-- The word of MCALL tk2, MM.INT8 and the header of its bundle (11). -/
theorem test_bundle_mcall : (decodeBundle false 0x80220004 0x00210000).toOption.map (·.ops) = some [(.xm, .mcall 1 ⟨2, 0, 0⟩ false 0)] := by
  decide
/-- 01 Table 01-6. -/
theorem test_places : paDie 0x2100004400000 = some .cd1 ∧ placeOf 0x2100004400000 = .bank 2 8 0 ∧ paDie 0x6003000000000 = some .md1 ∧
    placeOf 0x6003000000000 = .dram ∧ placeOf 0x0003000000000 = .reserved := by decide
/-- 04 Table 04-7. -/
theorem test_place_of_the_example : [place 1 0 6, place 1 1 6, place 0x40 0 6, place 0x40 1 6] = [1, 2, 1, 1] := by decide
/-- 04 Table 04-2: the layout of 02's example on CD0 without its core 2. -/
theorem test_binding_around_a_fused_core :
    bindLayout .cd0 [0x800, 0, 0x1541545555000] (fun c => c.num != 2) =
      some ((List.range 8).map fun i => (⟨.cd0, 4 + i⟩ : CoreId)) := by decide +kernel

/-- 12, the worked example of R349: the first words of the two header flits. The store to x is stamped first, then the signal
at f, whose header carries the knowledge of x. -/
def flitOf (act : Act) (home : DieId) (clock : List Nat) : Access := { access0 act .link 0 with home := home, clock := clock, sc := .package }
theorem test_flit_header_of_the_example :
    (mapped.flitHeader (flitOf .store .md1 [0, 0, 0, 1, 0, 0, 0, 0, 0, 0, 0, 0, 0, 0, 0, 0])).words[0]? = some 0x000C000000000001 ∧
    (mapped.flitHeader { flitOf (.amo .swp false) .md0 [0, 0, 1, 1, 0, 0, 0, 0, 0, 0, 0, 0, 0, 0, 0, 0] with know := true }).words[0]? =
      some 0x030A000000000001 ∧
    knowledge (flitOf (.amo .swp false) .md0 [0, 0, 1, 1, 0, 0, 0, 0, 0, 0, 0, 0, 0, 0, 0, 0]) .md0 = 2 ^ 96 := by decide +kernel

end Sys2Proof.Tests
end

/-! # The state after reset -/

namespace Sys2Proof.Machine

open Sys2Proof.Terms

/-- Looking a die up by name in the state after reset finds that die as its domains leave reset. -/
@[simp] theorem State.reset_die (d : DieId) : State.reset.die d = Die.reset d := by
  cases d <;> rfl

/-- Every core, in focus or not, stands as its domain leaves reset: none is parked. -/
@[simp] theorem State.reset_getCore (c : CoreId) : State.reset.getCore c = Core.reset c := by
  unfold State.getCore
  split
  case isTrue focus => exact congrArg Core.reset focus
  case isFalse => rfl

/-- Every scalar register of a core is zero as its domain leaves reset (00 R10, 01 R41). -/
@[simp] theorem Core.reset_s (id : CoreId) (r : SReg) : (Core.reset id).s r = 0 := by
  have zeros : (Core.reset id).sreg.get r.toFin = 0 := Vector.getElem_replicate r.toFin.isLt
  rw [Core.s, zeros, ite_self]

theorem State.reset_fresh : Fresh State.reset :=
  fun _ inFlight => absurd inFlight List.not_mem_nil

/-- Settles O54, field by field through what a die and a core are at reset. -/
theorem resetState : Obligations.ResetState := by
  unfold Obligations.ResetState
  have dies (d : DieId) : State.reset.down d = false ∧ (State.reset.die d).coresUp = true ∧
      (State.reset.die d).removed = false ∧ (State.reset.die d).directory = shipped := by
    rw [State.down, State.reset_die]
    exact ⟨rfl, rfl, rfl, rfl⟩
  have cores (c : CoreId) : (State.reset.getCore c).strand = none ∧ ∀ r, (State.reset.getCore c).s r = 0 := by
    rw [State.reset_getCore]
    exact ⟨rfl, Core.reset_s c⟩
  exact ⟨dies, fun _ => rfl, cores, rfl, rfl, rfl, rfl, State.reset_mem_wf, rfl, State.reset_fresh⟩

end Sys2Proof.Machine

/-! # What every step keeps -/

namespace Sys2Proof.Machine

open Sys2Proof.Terms

section
set_option autoImplicit true
set_option relaxedAutoImplicit true
variable {up : Bool} {s₀ s : State}

/-- What is kept of a die: its name and, where `up`, whether its domains are up and whether it is removed. -/
def Die.mark (up : Bool) (d : Die) : DieId × Bool × Bool × Bool := (d.id, up && d.uncoreUp, up && d.coresUp, up && d.removed)

/-- From `s₀` to `s` the invariants of O59 and O60 are kept, and no number has been taken back: what every operation of the
model does to the state, composed from the left. Where `up`, no domain of a die has gone down or come up
on the way, and no die has been removed. -/
structure Kept (up : Bool) (s₀ s : State) : Prop where
  mem : Safety.MemoryOk s₀ → Safety.MemoryOk s
  dies : AllDies s₀ → s.dies.map (Die.mark up) = s₀.dies.map (Die.mark up)
  next : s₀.nextId ≤ s.nextId
  fresh : Fresh s₀ → Fresh s

/-- The same of an outcome: a stop has no next state. -/
def Keeps (s₀ : State) : Out → Prop
  | .next s => Kept false s₀ s
  | .fault _ => True
  | .refused _ => True

/-- The same of a state that may not be there. -/
def KeptSome (up : Bool) (s₀ : State) : Option State → Prop
  | some s => Kept up s₀ s
  | none => True

theorem Kept.refl (s : State) : Kept up s s := ⟨id, fun _ => rfl, Nat.le_refl _, id⟩

theorem ids_of_marks {l m : List Die} (h : l.map (Die.mark up) = m.map (Die.mark up)) : l.map (·.id) = m.map (·.id) := by
  have names := congrArg (List.map Prod.fst) h
  rwa [List.map_map, List.map_map] at names

theorem marks_of_ids {l m : List Die} (h : l.map (·.id) = m.map (·.id)) :
    l.map (Die.mark false) = m.map (Die.mark false) := by
  have split : ∀ l : List Die, l.map (Die.mark false) = (l.map (·.id)).map fun i => (i, false, false, false) := fun l => by
    rw [List.map_map]
    rfl
  rw [split, split, h]

/-- The four dies stay in their order. -/
theorem Kept.allDies {s t : State} (h : Kept up s t) (ha : AllDies s) : AllDies t := (ids_of_marks (h.dies ha)).trans ha

theorem Kept.trans {s t u : State} (h : Kept up s t) (k : Kept up t u) : Kept up s u :=
  ⟨k.mem ∘ h.mem, fun ha => (k.dies (h.allDies ha)).trans (h.dies ha), Nat.le_trans h.next k.next, k.fresh ∘ h.fresh⟩

theorem Kept.keeps {t : State} {o : Out} (h : Kept false s t) (k : Keeps t o) : Keeps s o := by
  cases o with
  | next u => exact h.trans k
  | fault _ => trivial
  | refused _ => trivial

theorem Kept.ite {t u : State} {p : Prop} [Decidable p] (ht : Kept up s t) (hu : Kept up s u) : Kept up s (if p then t else u) := by
  split
  · exact ht
  · exact hu

theorem Keeps.ite {t u : Out} {p : Prop} [Decidable p] (ht : Keeps s t) (hu : Keeps s u) : Keeps s (if p then t else u) := by
  split
  · exact ht
  · exact hu

theorem KeptSome.ite {t u : Option State} {p : Prop} [Decidable p] (ht : KeptSome up s t) (hu : KeptSome up s u) :
    KeptSome up s (if p then t else u) := by
  split
  · exact ht
  · exact hu

theorem Kept.foldl {α : Type} {l : List α} {f : State → α → State} (hs : Kept up s₀ s)
    (hf : ∀ t x, Kept up s₀ t → Kept up s₀ (f t x)) : Kept up s₀ (l.foldl f s) := by
  induction l generalizing s with
  | nil => exact hs
  | cons x r ih => exact ih (hf _ _ hs)

theorem Kept.foldl_fst {α β : Type} {l : List α} {f : State × β → α → State × β} {x : State × β} (hs : Kept up s₀ x.1)
    (hf : ∀ x a, Kept up s₀ x.1 → Kept up s₀ (f x a).1) : Kept up s₀ (l.foldl f x).1 := by
  induction l generalizing x with
  | nil => exact hs
  | cons a r ih => exact ih (hf _ _ hs)

theorem KeptSome.foldl_bind {α : Type} {l : List α} {f : State → α → Option State} {o : Option State} (ho : KeptSome up s₀ o)
    (hf : ∀ s a, Kept up s₀ s → KeptSome up s₀ (f s a)) : KeptSome up s₀ (l.foldl (fun o a => o.bind fun s => f s a) o) := by
  induction l generalizing o with
  | nil => exact ho
  | cons a r ih =>
    refine ih ?_
    cases o with
    | none => trivial
    | some s => exact hf s a ho

theorem KeptSome.map {o : Option State} {f : State → State} (ho : KeptSome up s₀ o) (hf : ∀ t, Kept up s₀ t → Kept up s₀ (f t)) :
    KeptSome up s₀ (o.map f) := by
  cases o with
  | none => trivial
  | some t => exact hf t ho

theorem KeptSome.getD {o : Option State} (ho : KeptSome up s₀ o) (hs : Kept up s₀ s) : Kept up s₀ (o.getD s) := by
  cases o with
  | none => exact hs
  | some t => exact ho

/-- The fields that no invariant reads are free. -/
theorem Kept.frame {c : Core} {pk : List Core} {rh : Rhoath} {bs : List (Nat × Nat)} {ws : List Walk} {es : List Effect}
    {cr : List (DieId × DieId × List Nat)} {pe : List (DieId × Nat)} {re : List (Nat × Nat)} {ts : List Task} {fr : BitVec 48}
    {ins : List Instr} {fv : Nat} {rp : Option Word} {rd : List Byte} {po : Bool} {ar : List AppReq} {ad : List AppAnswer}
    {dr : List DmaReq} {du : List Nat} (hs : Kept up s₀ s) :
    Kept up s₀ ⟨c, pk, s.dies, rh, s.mem, bs, s.flight, ws, es, cr, pe, re, ts, fr, s.nextId, ins, fv, rp, rd, po, ar, ad, dr, du⟩ :=
  ⟨hs.mem, hs.dies, hs.next, hs.fresh⟩

/-- So is a larger number to be given next. -/
theorem Kept.later (hs : Kept up s₀ s) (hn : s.nextId ≤ n) : Kept up s₀ { s with nextId := n } :=
  ⟨hs.mem, hs.dies, Nat.le_trans hs.next hn, fun h a ha =>
    have ⟨hid, hland⟩ := hs.fresh h a ha
    ⟨Nat.lt_of_lt_of_le hid hn, fun l e => Nat.lt_of_lt_of_le (hland l e) hn⟩⟩

/-- So they are where a number is given besides. -/
theorem Kept.frameNext {c : Core} {pk : List Core} {rh : Rhoath} {bs : List (Nat × Nat)} {ws : List Walk} {es : List Effect}
    {cr : List (DieId × DieId × List Nat)} {pe : List (DieId × Nat)} {re : List (Nat × Nat)} {ts : List Task} {fr : BitVec 48}
    {ins : List Instr} {fv : Nat} {rp : Option Word} {rd : List Byte} {po : Bool} {ar : List AppReq} {ad : List AppAnswer}
    {dr : List DmaReq} {du : List Nat} (hs : Kept up s₀ s) :
    Kept up s₀ ⟨c, pk, s.dies, rh, s.mem, bs, s.flight, ws, es, cr, pe, re, ts, fr, s.nextId + 1, ins, fv, rp, rd, po, ar, ad, dr, du⟩ :=
  (hs.later (Nat.le_succ _)).frame

theorem Kept.writes (hs : Kept up s₀ s) (hm : Memory.wf s.mem = true → Memory.wf m = true) : Kept up s₀ { s with mem := m } :=
  ⟨hm ∘ hs.mem, hs.dies, hs.next, hs.fresh⟩

theorem Kept.changesDies (hs : Kept up s₀ s) (hd : ∀ d : Die, (f d).mark up = d.mark up) :
    Kept up s₀ { s with dies := s.dies.map f } :=
  ⟨hs.mem, fun ha => by
    rw [← hs.dies ha, List.map_map]
    exact List.map_congr_left fun d _ => hd d, hs.next, hs.fresh⟩

/-- The landing that waits for access `a` had a number in `s₀`. -/
def Awaits (s₀ : State) (a : Access) : Prop := Fresh s₀ → ∀ l, a.land = some l → l < s₀.nextId

theorem Awaits.of_mem (h : a ∈ s.flight) : Awaits s a := fun fresh => (fresh a h).2

theorem Awaits.of_find (h : s.flight.find? p = some a) : Awaits s a := .of_mem (List.mem_of_find?_eq_some h)

theorem Awaits.of_none (h : a.land = none) : Awaits s a := fun _ _ e => nomatch h.symm.trans e

theorem Kept.drops (hs : Kept up s₀ s) : Kept up s₀ { s with flight := s.flight.filter p } :=
  ⟨hs.mem, hs.dies, hs.next, fun h a ha => hs.fresh h a (List.mem_of_mem_filter ha)⟩

/-- Every access in flight may change, as long as it keeps its number, and the landing that waits for it waited for one in flight,
or had a number in `s₀`. -/
theorem Kept.maps {f : Access → Access} (hs : Kept up s₀ s)
    (hf : ∀ a ∈ s.flight, (f a).id = a.id ∧ ((∃ b ∈ s.flight, (f a).land = b.land) ∨ Awaits s₀ (f a))) :
    Kept up s₀ { s with flight := s.flight.map f } :=
  ⟨hs.mem, hs.dies, hs.next, fun h b hb => by
    obtain ⟨a, ha, rfl⟩ := List.mem_map.1 hb
    obtain ⟨same, land⟩ := hf a ha
    refine ⟨same ▸ (hs.fresh h a ha).1, fun l e => ?_⟩
    rcases land with ⟨c, hc, as⟩ | awaited
    · exact (hs.fresh h c hc).2 l (as ▸ e)
    · exact Nat.lt_of_lt_of_le (awaited h l e) hs.next⟩

/-- A change that leaves the number and the landing of each access alone. -/
theorem Kept.mapsSame {f : Access → Access} (hs : Kept up s₀ s) (hf : ∀ a, (f a).id = a.id ∧ (f a).land = a.land) :
    Kept up s₀ { s with flight := s.flight.map f } :=
  hs.maps fun a ha => ⟨(hf a).1, .inl ⟨a, ha, (hf a).2⟩⟩

/-- A new access takes the next number. -/
theorem Kept.sends (hs : Kept up s₀ s) (hid : a.id = s.nextId) (hland : Fresh s₀ → ∀ l, a.land = some l → l < s.nextId) :
    Kept up s₀ { s with nextId := s.nextId + 1, flight := s.flight ++ [a] } :=
  ⟨hs.mem, hs.dies, Nat.le_succ_of_le hs.next, fun h b hb => by
    rcases List.mem_append.1 hb with old | new
    · obtain ⟨hid, hland⟩ := hs.fresh h b old
      exact ⟨Nat.lt_succ_of_lt hid, fun l e => Nat.lt_succ_of_lt (hland l e)⟩
    · obtain rfl := List.mem_singleton.1 new
      exact ⟨hid ▸ Nat.lt_succ_self _, fun l e => Nat.lt_succ_of_lt (hland h l e)⟩⟩

theorem Awaits.before (ha : Awaits s₀ a) (hs : Kept up s₀ s) : Fresh s₀ → ∀ l, a.land = some l → l < s.nextId :=
  fun h l e => Nat.lt_of_lt_of_le (ha h l e) hs.next

/-- One that nothing waits for. -/
theorem Kept.sendsAlone (hs : Kept up s₀ s) (hid : a.id = s.nextId) (hland : a.land = none) :
    Kept up s₀ { s with nextId := s.nextId + 1, flight := s.flight ++ [a] } :=
  hs.sends hid fun _ _ e => nomatch hland.symm.trans e

/-! ## Results beside a state -/

theorem Kept.of_fst {p : State × α} (h : Kept up s₀ p.1) (e : p = (t, x)) : Kept up s₀ t := by
  subst e
  exact h

theorem Kept.of_snd {p : α × State} (h : Kept up s₀ p.2) (e : p = (x, t)) : Kept up s₀ t := by
  subst e
  exact h

theorem KeptSome.of_some {o : Option State} (h : KeptSome up s₀ o) (e : o = some t) : Kept up s₀ t := by
  subst e
  exact h

theorem Keeps.of_next {o : Out} (h : Keeps s₀ o) (e : o = .next t) : Kept false s₀ t := by
  subst e
  exact h

end

end Sys2Proof.Machine


/-! # Every operation keeps it

One lemma for each operation of the model, in the order of its files: an operation on a kept state leaves a kept state. -/

namespace Sys2Proof.Machine

open Sys2Proof.Terms

section
set_option autoImplicit true
set_option relaxedAutoImplicit true
variable {up : Bool} {s₀ s : State}

/-! ## State, records, traps and the near scratchpad -/

theorem Kept.wr (hs : Kept up s₀ s) : Kept up s₀ (s.wr a n v) :=
  hs.writes fun h => memPut_wf h a v n

theorem Kept.wrBytes (hs : Kept up s₀ s) : Kept up s₀ (s.wrBytes a l) :=
  hs.writes fun h => memPutBytes_wf h a l

theorem Kept.setDie (hs : Kept false s₀ s) : Kept false s₀ (s.setDie d) :=
  hs.changesDies fun e => by
    unfold Die.mark
    split
    · next same => simp only [same, Bool.false_and]
    · rfl

/-- Where the dies stand in their order, each is the one that is found by its name. -/
theorem State.die_of_mem (ha : AllDies s) (he : e ∈ s.dies) : s.die e.id = e := by
  have distinct : (s.dies.map (·.id)).Nodup := by
    rw [show s.dies.map (·.id) = DieId.all from ha]
    decide
  unfold State.die
  cases h : s.dies.find? (·.id == e.id) with
  | none => exact absurd (List.find?_eq_none.1 h e he) (by simp)
  | some x => exact List.inj_on_of_nodup_map distinct (List.mem_of_find?_eq_some h) he (by simpa using List.find?_some h)

theorem Kept.setDieSame (hs : Kept up s₀ s) (hd : d.mark up = (s.die d.id).mark up) : Kept up s₀ (s.setDie d) :=
  ⟨hs.mem, fun ha => by
    rw [← hs.dies ha, State.setDie_dies, List.map_map]
    refine List.map_congr_left fun e he => ?_
    simp only [Function.comp]
    split
    · next same => rw [hd, ← same, State.die_of_mem (hs.allDies ha) he]
    · rfl, hs.next, hs.fresh⟩

theorem Kept.updDie {f : Die → Die} (hs : Kept false s₀ s) : Kept false s₀ (s.updDie d f) :=
  hs.setDie

theorem Kept.updDieSame {f : Die → Die} (hs : Kept up s₀ s) (hf : ∀ x, (f x).mark up = x.mark up) :
    Kept up s₀ (s.updDie d f) := by
  refine hs.setDieSame ((hf _).trans ?_)
  have name : (f (s.die d)).id = d := (congrArg Prod.fst (hf (s.die d))).trans (s.die_id d)
  rw [name]

theorem Kept.setReg (hs : Kept up s₀ s) : Kept up s₀ (s.setReg d off v) := by
  refine hs.updDieSame ?_
  exact fun _ => rfl

theorem Kept.setCore (hs : Kept up s₀ s) : Kept up s₀ (s.setCore c) :=
  .ite hs.frame hs.frame

theorem Kept.updCore {f : Core → Core} (hs : Kept up s₀ s) : Kept up s₀ (s.updCore c f) :=
  hs.setCore

theorem Kept.focus (hs : Kept false s₀ s) : Kept false s₀ (s.focus c) :=
  .ite hs hs.frame

theorem Kept.onCore {f : Core → Core} (hs : Kept false s₀ s) : Kept false s₀ (s.onCore f) :=
  hs.frame

theorem Kept.draw_snd (hs : Kept up s₀ s) : Kept up s₀ s.draw.2 :=
  hs.frame

theorem Kept.now (hs : Kept up s₀ s) : Kept up s₀ s.now :=
  hs.frame

theorem Kept.thaw (hs : Kept up s₀ s) : Kept up s₀ s.thaw :=
  hs.frame

theorem Kept.postS (hs : Kept false s₀ s) : Kept false s₀ (s.postS lat r x fl) :=
  hs.onCore

theorem Kept.postMove (hs : Kept false s₀ s) : Kept false s₀ (s.postMove lat w) :=
  hs.onCore

theorem Kept.postV (hs : Kept false s₀ s) : Kept false s₀ (s.postV lat w fl arith) :=
  hs.onCore

theorem Kept.wrRec (hs : Kept up s₀ s) : Kept up s₀ (s.wrRec pa v) := by
  unfold State.wrRec
  dsimp only
  split
  · exact hs
  · split
    · split
      · exact .ite hs.wr hs.wr.wr
      · exact hs.wr
    · exact hs.wr

theorem Kept.ringPut (hs : Kept up s₀ s) : Kept up s₀ (s.ringPut d ring cnt q0 q1 q2 q3) :=
  .ite hs.setReg hs.setReg.wrRec.wrRec.wrRec.wrRec

theorem Kept.faultRec (hs : Kept up s₀ s) : Kept up s₀ (s.faultRec d ctx kind va pa detail master) :=
  hs.now.ringPut

theorem Kept.byApp {k : Out} (hs : Kept false s₀ s) (hk : Keeps s₀ k) : Keeps s₀ (s.byApp app k) :=
  .ite hk hs

theorem Kept.accViol (hs : Kept false s₀ s) : Kept false s₀ (s.accViol d off app) :=
  hs.setReg

theorem Kept.badPteRec (hs : Kept false s₀ s) : Kept false s₀ (s.badPteRec d ctx va w master) := by
  unfold State.badPteRec
  split
  · exact hs.faultRec
  · exact hs

theorem Kept.updTask {f : Task → Task} (hs : Kept up s₀ s) : Kept up s₀ (s.updTask t f) :=
  hs.frame

theorem Kept.beginInst (hs : Kept false s₀ s) : Kept false s₀ (s.beginInst amo) :=
  hs.frameNext

theorem Kept.discard {id : CoreId} (hs : Kept up s₀ s) : Kept up s₀ (s.discard id) :=
  hs.drops.frame.setCore

theorem Kept.stopStrand {id : CoreId} (hs : Kept up s₀ s) : Kept up s₀ (s.stopStrand id) := by
  unfold State.stopStrand
  dsimp only
  exact hs.discard.updCore

theorem Kept.unbindWhere {p : Binding → Bool} (hs : Kept up s₀ s) : Kept up s₀ (s.unbindWhere p) :=
  hs.changesDies (fun _ => rfl)

theorem Kept.stopTask (hs : Kept up s₀ s) : Kept up s₀ (s.stopTask t) := by
  refine Kept.foldl ?_ fun _ _ ht => ht.stopStrand
  refine (((hs.unbindWhere.updTask.drops.maps ?_).later ?_)).frame
  · intro a ha
    split
    · exact ⟨rfl, .inr (.of_none rfl)⟩
    · exact ⟨rfl, .inl ⟨a, ha, rfl⟩⟩
  · exact Nat.le_add_right _ _

theorem Kept.endTask (hs : Kept up s₀ s) : Kept up s₀ (s.endTask t status detail gang) :=
  hs.updTask.stopTask

theorem Kept.fatal (hs : Kept false s₀ s) : Kept false s₀ (s.fatal n) := by
  unfold State.fatal
  split
  · exact hs.endTask
  · exact hs

theorem Kept.takeTrap {async : Bool} (hs : Kept false s₀ s) : Kept false s₀ (s.takeTrap r async pc issue t) :=
  .ite hs.fatal.onCore (Kept.ite hs.onCore hs.fatal.onCore)

theorem Kept.issueTrap (hs : Kept false s₀ s) : Kept false s₀ (s.issueTrap n detail val) :=
  hs.takeTrap

theorem Kept.afterTrap (hs : Kept false s₀ s) : Kept false s₀ (s.afterTrap n detail val) :=
  hs.takeTrap

theorem Kept.lateTrap (hs : Kept up s₀ s) : Kept up s₀ (s.lateTrap t g n) :=
  hs.updTask

theorem Kept.asyncTrap {id : CoreId} (hs : Kept up s₀ s) : Kept up s₀ (s.asyncTrap id r) := by
  unfold State.asyncTrap
  dsimp only
  split
  · exact hs
  · exact .ite hs.lateTrap (Kept.ite hs.endTask hs.updCore)

theorem Kept.strandTrap (hs : Kept up s₀ s) : Kept up s₀ (s.strandTrap t g l r) := by
  unfold State.strandTrap
  dsimp only
  split
  · exact hs.asyncTrap
  · exact .ite hs.lateTrap (Kept.ite hs.endTask hs.updTask)
  · exact hs

theorem Kept.inject {id : CoreId} (hs : Kept false s₀ s) : Kept false s₀ (s.inject id num) :=
  hs.updCore.frame

theorem Kept.injNsp {id : CoreId} (hs : Kept false s₀ s) : Kept false s₀ (s.injNsp id off n) :=
  .ite hs.inject hs

theorem Kept.setAccEntry (hs : Kept false s₀ s) : Kept false s₀ (s.setAccEntry c e v) :=
  hs.wr

theorem Kept.signedEntry (hs : Kept false s₀ s) : Kept false s₀ (s.signedEntry c e v w) :=
  hs.updCore.setAccEntry

theorem Kept.routineEntry (hs : Kept false s₀ s) : Kept false s₀ (s.routineEntry c e v) :=
  hs.updCore.signedEntry

theorem Kept.noteDuring {id : CoreId} (hs : Kept false s₀ s) : Kept false s₀ (s.noteDuring id gs) :=
  hs.updCore

theorem Kept.nspGranule {id : CoreId} {f : ℕ → Bool} (hs : Kept false s₀ s) : Kept false s₀ (s.nspGranule id swz g f new) :=
  hs.updCore.wr

theorem Kept.nspWrite {id : CoreId} (hs : Kept false s₀ s) : Kept false s₀ (s.nspWrite id swz off l) :=
  hs.foldl fun _ _ ht => ht.nspGranule

theorem Kept.nspSeen {id : CoreId} (hs : Kept false s₀ s) : Kept false s₀ (s.nspSeen id) :=
  .ite hs hs.frame

theorem Kept.applyDue_fst (hs : Kept false s₀ s) : Kept false s₀ (s.applyDue w).1 := by
  unfold State.applyDue
  split
  · dsimp only
    split
    · exact hs.onCore
    · exact hs.frame.onCore
  · exact Kept.foldl_fst hs fun x _ hx => by
      split
      · exact hx.signedEntry
      · exact hx
  · dsimp only
    exact hs.onCore

theorem Kept.applyAll_fst (hs : Kept false s₀ s) : Kept false s₀ (s.applyAll l).1 := by
  induction l generalizing s with
  | nil => exact hs
  | cons d r ih => exact ih hs.applyDue_fst

theorem Kept.settle_fst (hs : Kept false s₀ s) : Kept false s₀ s.settle.1 := by
  unfold State.settle
  dsimp only
  exact hs.onCore.applyAll_fst.onCore

/-! ## Refusals, seals and stores to a line -/

theorem Kept.violog (hs : Kept up s₀ s) : Kept up s₀ (s.violog d w n pa) :=
  hs.setReg.setReg

theorem Kept.refusal (hs : Kept up s₀ s) : Kept up s₀ (s.refusal own w n va pa a) := by
  unfold State.refusal
  split
  · exact hs
  · exact hs.violog
  · exact hs.faultRec
  · exact hs.faultRec

theorem Kept.sealRec (hs : Kept up s₀ s) : Kept up s₀ (s.sealRec w va sec) :=
  hs.faultRec

theorem Kept.exitRec (hs : Kept up s₀ s) : Kept up s₀ (s.exitRec own w sec) :=
  hs.faultRec

theorem Kept.touch (hs : Kept up s₀ s) : Kept up s₀ (s.touch ctx pa n) := by
  unfold State.touch
  split
  · refine hs.updDieSame ?_
    exact fun _ => rfl
  · exact hs

theorem Kept.storeBytes (hs : Kept up s₀ s) : Kept up s₀ (s.storeBytes ctx pa l) := by
  unfold State.storeBytes
  dsimp only
  split
  · refine hs.wrBytes.frame.updDieSame ?_
    exact fun _ => rfl
  · exact hs.wrBytes.frame

theorem Kept.putLines (hs : Kept false s₀ s) : Kept false s₀ (s.putLines own w fifo fuel pa l) := by
  induction fuel generalizing s pa l with
  | zero => exact hs
  | succ fuel ih =>
    rw [State.putLines]
    refine .ite hs (ih ?_)
    split
    · split
      · exact hs.sealRec
      · exact hs.storeBytes
    · exact hs.refusal

/-! ## Sending accesses -/

/-- A die that takes the place of the one it was made from. -/
theorem Kept.putBack (hs : Kept up s₀ s) (hd : d.mark up = (s.die i).mark up) : Kept up s₀ (s.setDie d) := by
  refine hs.setDieSame (hd.trans ?_)
  have name : d.id = i := (congrArg Prod.fst hd).trans (s.die_id i)
  rw [name]

theorem Kept.localDlv (hs : Kept up s₀ s) : Kept up s₀ (s.localDlv d) := by
  refine hs.putBack (i := d) ?_
  rfl

theorem Kept.directWrite (hs : Kept false s₀ s) : KeptSome false s₀ (s.directWrite i j) :=
  .ite hs (KeptSome.ite (KeptSome.ite hs.setDie.localDlv trivial) (KeptSome.ite hs.setDie.setDie trivial))

theorem Kept.directWrites (hs : Kept false s₀ s) : KeptSome false s₀ (s.directWrites i l) := by
  induction l generalizing s with
  | nil => exact hs
  | cons j r ih =>
    rw [State.directWrites]
    split
    · next e => exact ih (hs.directWrite.of_some e)
    · trivial

theorem Kept.directRead (hs : Kept false s₀ s) : KeptSome false s₀ (s.directRead i j) :=
  .ite hs (KeptSome.ite trivial (KeptSome.ite hs hs.setDie.setDie))

theorem Kept.directReads (hs : Kept false s₀ s) : KeptSome false s₀ (s.directReads i l) :=
  KeptSome.foldl_bind hs fun _ _ ht => ht.directRead

theorem Kept.tellAll (hs : Kept false s₀ s) : Kept false s₀ (s.tellAll i j) :=
  .ite hs hs.updDie

theorem Kept.sendOne (hs : Kept up s₀ s) (ha : Awaits s₀ a) : Kept up s₀ (s.sendOne a) := by
  refine Kept.later (Kept.maps (.ite hs (hs.putBack (i := a.core.die) ?_)) fun x hx => ?_) (Nat.le_succ _)
  · have known : ∀ (p : Prop) (_ : Decidable p) (x : Die) i j v, (if p then setKnow x i j v else x).mark up = x.mark up :=
      fun _ _ _ _ _ _ => by split <;> rfl
    split
    · exact known _ _ _ _ _ _
    · exact known _ _ _ _ _ _
  split
  · next same =>
    split
    · exact ⟨same.symm, .inr ha⟩
    · split
      · exact ⟨same.symm, .inr ha⟩
      · exact ⟨same.symm, .inr ha⟩
  · exact ⟨rfl, .inl ⟨x, hx, rfl⟩⟩

theorem Kept.sendAccess (hs : Kept up s₀ s) (ha : Awaits s₀ a) : Kept up s₀ (s.sendAccess a) := by
  unfold State.sendAccess
  split
  · exact hs.sendOne ha
  · refine Kept.foldl (hs.sendOne ?_) fun t g ht => Kept.sendOne (ht.sends rfl ?_) ?_
    · exact ha
    · exact ha.before ht
    · exact ha

theorem Kept.pumpList (hs : Kept up s₀ s) : Kept up s₀ (s.pumpList l) := by
  induction l generalizing s with
  | nil => exact hs
  | cons id r ih =>
    rw [State.pumpList]
    split
    · exact ih hs
    · next a e =>
      split
      · exact ih hs
      · exact ih (hs.trans ((Kept.refl s).sendAccess (.of_find e)))

theorem Kept.pump (hs : Kept up s₀ s) : Kept up s₀ s.pump :=
  hs.pumpList

/-! ## Performing accesses -/

theorem Kept.issuerTrap (hs : Kept up s₀ s) : Kept up s₀ (s.issuerTrap a n va) := by
  unfold State.issuerTrap
  dsimp only
  split
  · exact .ite hs hs.frame
  · exact (Kept.ite hs.faultRec hs).strandTrap
  · exact hs

theorem Kept.setAccess (hs : Kept up s₀ s) (ha : Awaits s₀ a) : Kept up s₀ (s.setAccess a) :=
  hs.maps fun x hx => by
    split
    · next same => exact ⟨same.symm, .inr ha⟩
    · exact ⟨rfl, .inl ⟨x, hx, rfl⟩⟩

theorem Kept.dropAccess {id : ℕ} (hs : Kept up s₀ s) : Kept up s₀ (s.dropAccess id) :=
  hs.drops

theorem Kept.uncount (hs : Kept up s₀ s) : Kept up s₀ (s.uncount a) := by
  unfold State.uncount
  dsimp only
  have counted := hs.mapsSame (f := fun b => if sameStrand a b && a.seq < b.seq then { b with amo := b.amo - 1 } else b)
    fun b => by split <;> exact ⟨rfl, rfl⟩
  split
  · exact counted.frame.updTask
  · exact counted.frame

theorem Kept.performedAccess (hs : Kept up s₀ s) : Kept up s₀ (s.performedAccess a) :=
  hs.dropAccess.localDlv.pump

theorem Kept.hear (hs : Kept up s₀ s) : Kept up s₀ (s.hear a) := by
  refine .ite hs (hs.updDieSame ?_)
  exact fun _ => rfl

theorem Kept.respond (hs : Kept up s₀ s) : Kept up s₀ (s.respond a) := by
  refine .ite hs (hs.updDieSame ?_)
  exact fun _ => rfl

/-- An access that takes the data of another with the same landing. -/
theorem Kept.setSibling (hs : Kept up s₀ s) (e : s.sibling a = some b) (hc : c.land = b.land) :
    Kept up s₀ ((s.dropAccess a.id).setAccess c) := by
  refine hs.dropAccess.maps fun x hx => ?_
  split
  · next same =>
    have other := List.find?_some e
    simp only [Bool.and_eq_true] at other
    exact ⟨same.symm, .inl ⟨b, List.mem_filter.2 ⟨List.mem_of_find?_eq_some e, other.2⟩, hc⟩⟩
  · exact ⟨rfl, .inl ⟨x, hx, rfl⟩⟩

theorem Awaits.poisoned (ha : Awaits s₀ a) : Awaits s₀ a.poisoned := by
  unfold Access.poisoned
  split
  · exact ha
  · exact ha

theorem Kept.answered (hs : Kept up s₀ s) (ha : Awaits s₀ a) : Kept up s₀ (s.answered a) := by
  unfold State.answered
  split
  · next e =>
    refine Kept.pump (Kept.localDlv (Kept.respond (Kept.hear (hs.setSibling e ?_))))
    rfl
  · have counted : Kept up s₀ (if a.hit || !(match a.act with | .amo .. => a.app.isNone | _ => false) then s else s.uncount a) :=
      .ite hs hs.uncount
    refine .ite counted.performedAccess (Kept.pump (Kept.localDlv (Kept.respond (counted.setAccess ?_))))
    exact ha.poisoned

theorem Kept.failAccess (hs : Kept up s₀ s) (ha : Awaits s₀ a) : Kept up s₀ (s.failAccess a n va) :=
  .ite (hs.answered ha) hs.performedAccess.issuerTrap

theorem loadLine_land (x : State × Access) (g : List Part) : (State.loadLine x g).2.land = x.2.land := by
  unfold State.loadLine
  split
  · rfl
  · split
    · refine List.foldlRecOn (motive := fun y : State × Access => y.2.land = x.2.land) _ _ rfl fun y hy p _ => ?_
      split
      · exact hy
      · exact hy
    · rfl

theorem Kept.loadLine_fst {x : State × Access} (hs : Kept up s₀ x.1) : Kept up s₀ (State.loadLine x g).1 := by
  unfold State.loadLine
  split
  · exact hs
  · split
    · refine Kept.foldl_fst hs fun y p hy => ?_
      split
      · exact .ite hy.exitRec hy.sealRec
      · exact hy.touch
    · exact hs.refusal

theorem Kept.performLoad (hs : Kept up s₀ s) (ha : Awaits s₀ a) : Kept up s₀ (s.performLoad a) := by
  have land : ((byLine a.parts).foldl State.loadLine (s, a)).2.land = a.land :=
    List.foldlRecOn (motive := fun y : State × Access => y.2.land = a.land) _ _ rfl fun y hy g _ => (loadLine_land y g).trans hy
  exact (Kept.foldl_fst (x := (s, a)) hs fun _ _ hx => hx.loadLine_fst).answered fun h l e => ha h l (land ▸ e)

theorem Kept.storeLine (hs : Kept up s₀ s) : Kept up s₀ (s.storeLine a g) := by
  unfold State.storeLine
  dsimp only
  split
  · exact hs
  · split
    · refine Kept.foldl hs fun _ _ ht => ?_
      split
      · exact ht.sealRec.issuerTrap
      · exact ht.storeBytes
    · exact hs.refusal.issuerTrap

theorem Kept.performStore (hs : Kept up s₀ s) : Kept up s₀ (s.performStore a) :=
  (hs.foldl fun _ _ ht => ht.storeLine).performedAccess

theorem Kept.pin (hs : Kept false s₀ s) (ha : Awaits s₀ a) : Kept false s₀ (s.pin a) := by
  unfold State.pin
  dsimp only
  refine .ite (Kept.dropAccess ?checked) (Kept.setAccess ?checked ha)
  refine Kept.foldl_fst (x := (s, [])) hs fun x g hx => ?_
  split
  · exact hx
  · split
    · exact hx
    · exact hx.refusal.issuerTrap

theorem Kept.performNow {mine : Access → Bool} (hs : Kept false s₀ s) : Kept false s₀ (s.performNow mine) := by
  refine hs.foldl fun t id ht => ?_
  split
  · next a e =>
    have ha : Awaits t a := .of_find e
    refine ht.trans ?_
    split
    · exact (Kept.refl t).performLoad ha
    · exact (Kept.refl t).performStore
    · exact .refl t
  · exact ht

/-! ## Accesses through handles -/

theorem Kept.startWalk_snd (hs : Kept false s₀ s) : Kept false s₀ (s.startWalk h why).2 :=
  hs.frameNext

theorem Kept.addLanding_snd {wr : Option Wr} (hs : Kept false s₀ s) : Kept false s₀ (s.addLanding size land dst wr trap amo).2 :=
  hs.frameNext

/-- The access of a new landing. -/
theorem Kept.sendsLanding {wr : Option Wr} (hs : Kept false s₀ s) (hid : a.id = s.nextId + 1) (hland : a.land = some s.nextId) :
    Kept false s₀ { (s.addLanding size land dst wr trap amo).2 with
      nextId := s.nextId + 1 + 1, core := c, flight := s.flight ++ [a] } :=
  Kept.frame <| hs.addLanding_snd (size := size) (land := land) (dst := dst) (wr := wr) (trap := trap) (amo := amo) |>.sends hid
    fun _ l e => by
      obtain rfl := Option.some.inj (hland.symm.trans e)
      exact Nat.lt_succ_self _

theorem Kept.rewalk (hs : Kept false s₀ s) : Kept false s₀ (s.rewalk h) :=
  .ite hs hs.startWalk_snd

theorem Kept.landOp (hs : Kept false s₀ s) : Kept false s₀ (s.landOp h right act at' es al dst size land) := by
  unfold State.landOp
  dsimp only
  refine .ite hs.issueTrap (.ite hs.issueTrap (.ite hs.issueTrap (.ite hs.issueTrap (.ite hs.addLanding_snd.rewalk
    (.ite hs.addLanding_snd.rewalk (.ite hs.addLanding_snd.rewalk (.ite ?walk (.ite ?away ?absent))))))))
  case walk => exact hs.startWalk_snd.sendsLanding rfl rfl
  case away => exact .ite (hs.sendsLanding rfl rfl).pump.performNow (hs.sendsLanding rfl rfl).pump
  case absent => exact hs.faultRec.sendsLanding rfl rfl

theorem Kept.absentRecs (hs : Kept false s₀ s) : Kept false s₀ (s.absentRecs l ents) := by
  refine Kept.foldl_fst hs fun x t hx => ?_
  refine Kept.foldl_fst hx fun y p hy => ?_
  split
  · exact hy
  · exact hy.faultRec

/-- Where an access is served changes neither its number nor its landing. -/
theorem routed_if {p : Prop} [Decidable p] (s : State) (a : Access) :
    (if p then s.routed a else a).id = a.id ∧ (if p then s.routed a else a).land = a.land := by
  split
  · exact ⟨rfl, rfl⟩
  · exact ⟨rfl, rfl⟩

theorem Kept.postOp (hs : Kept false s₀ s) : Kept false s₀ (s.postOp h right act at' es al each units detail) := by
  unfold State.postOp
  dsimp only
  refine .ite hs.issueTrap (.ite hs.issueTrap (.ite hs.issueTrap (.ite hs.startWalk_snd.onCore (.ite hs (.ite hs.issueTrap
    (.ite hs.issueTrap (.ite ?logged (.ite hs.issueTrap ?sent))))))))
  case logged =>
    exact .ite hs.issueTrap (.ite (.ite hs.issueTrap hs.onCore) (Kept.onCore (.ite hs hs.absentRecs)))
  case sent =>
    refine .ite ?_ (.ite (.performNow (.pump ?_)) (.pump ?_)) <;>
      exact Kept.frame (hs.sendsAlone (routed_if s _).1 (routed_if s _).2)

/-! ## Scalar operations -/

theorem Kept.intOp {f : Word → Word → Word} (hs : Kept false s₀ s) : Keeps s₀ (intOp lat f d a b s) :=
  hs.postS

theorem Kept.unOp {f : Word → Word} (hs : Kept false s₀ s) : Keeps s₀ (unOp f d a s) :=
  hs.postS

theorem Kept.divOp {f : Word → Word → Word × Flags} (hs : Kept false s₀ s) : Keeps s₀ (divOp f d a b s) :=
  hs.postS

theorem Kept.execCsrrd (hs : Kept false s₀ s) : Keeps s₀ (execCsrrd d n s) := by
  unfold Machine.execCsrrd
  split
  · exact hs.postV
  · exact hs.issueTrap

theorem Kept.execCsrwr (hs : Kept false s₀ s) : Keeps s₀ (execCsrwr n a s) :=
  .ite hs.postV hs.issueTrap

/-! ## Control transfers and waits -/

theorem Kept.transfer (hs : Kept false s₀ s) : Kept false s₀ (s.transfer target) :=
  .ite hs.issueTrap hs.onCore

theorem Kept.transferLink (hs : Kept false s₀ s) : Kept false s₀ (s.transferLink target) :=
  .ite hs.issueTrap hs.postV.onCore

theorem Kept.execBrz (hs : Kept false s₀ s) : Keeps s₀ (execBrz a off s) := by
  unfold Machine.execBrz
  change Kept _ _ _
  exact .ite hs.transfer hs

theorem Kept.execBrnz (hs : Kept false s₀ s) : Keeps s₀ (execBrnz a off s) := by
  unfold Machine.execBrnz
  change Kept _ _ _
  exact .ite hs.transfer hs

theorem Kept.endRec (hs : Kept false s₀ s) : Kept false s₀ (s.endRec pc) := by
  unfold State.endRec
  dsimp only
  split
  · exact .ite hs hs.badPteRec
  · exact hs

theorem Kept.loopOp (hs : Kept false s₀ s) : Kept false s₀ (loopOp cnt last s) :=
  .ite hs.issueTrap (Kept.ite hs.endRec.onCore (Kept.ite hs.issueTrap hs.onCore))

theorem Kept.execLbreak (hs : Kept false s₀ s) : Keeps s₀ (execLbreak a z s) := by
  unfold Machine.execLbreak
  dsimp only
  split
  · exact hs.issueTrap
  · exact .ite hs.endRec.onCore hs

theorem Kept.commitThen (hs : Kept false s₀ s) : Kept false s₀ (s.commitThen after) :=
  .ite hs.issueTrap hs.onCore

theorem Kept.takeSlots (hs : Kept false s₀ s) : KeptSome false s₀ (s.takeSlots st l) :=
  .ite trivial hs.setDie

theorem Kept.reserveSlots (hs : Kept false s₀ s) : KeptSome false s₀ s.reserveSlots := by
  unfold State.reserveSlots
  split
  · trivial
  · exact hs.takeSlots

theorem Kept.execYield (hs : Kept false s₀ s) : Keeps s₀ (execYield s) := by
  unfold Machine.execYield
  split
  · exact hs.issueTrap
  · split
    · split
      · next t e => exact (hs.reserveSlots.of_some e).onCore
      · exact hs
    · exact hs

theorem Kept.waitOn (hs : Kept false s₀ s) : Kept false s₀ (s.waitOn w) :=
  hs.onCore

theorem Kept.execLaunch (hs : Kept false s₀ s) : Keeps s₀ (execLaunch h b q vd s) :=
  .ite hs.issueTrap hs.postOp

theorem Kept.execEret (hs : Kept false s₀ s) : Keeps s₀ (execEret s) :=
  .ite hs.onCore hs.issueTrap

/-! ## Loads and stores of the near scratchpad -/

theorem Kept.m1 {k : State} (hs : Kept false s₀ s) (hk : Kept false s₀ k) : Kept false s₀ (s.m1 off n al k) :=
  .ite hs.issueTrap (Kept.ite hs.issueTrap hk)

theorem Kept.execLd (hs : Kept false s₀ s) : Keeps s₀ (execLd sz t a imm x x' s) :=
  hs.m1 hs.nspSeen.postV.injNsp

theorem Kept.execSt (hs : Kept false s₀ s) : Keeps s₀ (execSt sz t a imm x x' s) :=
  hs.m1 hs.noteDuring.nspWrite

theorem Kept.nspPutVec (hs : Kept false s₀ s) : Kept false s₀ (s.nspPutVec swz off p x) :=
  hs.foldl fun _ _ ht => .ite ht.nspGranule ht

theorem Kept.vldOp (hs : Kept false s₀ s) : Keeps s₀ (vldOp swz al t a p imm s) :=
  hs.m1 hs.nspSeen.postV.injNsp

theorem Kept.vstOp (hs : Kept false s₀ s) : Keeps s₀ (vstOp swz al t a p imm s) :=
  hs.m1 hs.noteDuring.nspPutVec

theorem Kept.execXlt (hs : Kept false s₀ s) : Keeps s₀ (execXlt h a s) :=
  .ite hs.issueTrap hs.frameNext

theorem Kept.execHqry (hs : Kept false s₀ s) : Keeps s₀ (execHqry d h s) :=
  .ite hs.postV (Keeps.ite hs.postV.postMove hs.startWalk_snd.onCore)

theorem Kept.execPld (hs : Kept false s₀ s) : Keeps s₀ (execPld h x x' s) := by
  unfold Machine.execPld
  change Kept _ _ _
  exact .ite hs.rewalk hs.issueTrap

theorem Kept.accOp {wr : Wr} (hs : Kept false s₀ s) : Kept false s₀ (s.accOp e land reg wr) :=
  .ite hs.issueTrap (Kept.ite hs.issueTrap hs.addLanding_snd)

/-! ## Atomics and reductions -/

theorem Kept.amoOp (hs : Kept false s₀ s) : Keeps s₀ (amoOp op w v o sc t h a b land s) :=
  .ite hs.issueTrap (Keeps.ite hs.onCore hs.landOp)

theorem Kept.redOpM (hs : Kept false s₀ s) : Keeps s₀ (redOpM op w v o sc h a b s) :=
  hs.postOp

/-! ## Entries for the engines -/

theorem Kept.noRoom (hs : Kept false s₀ s) : Kept false s₀ (s.noRoom xm) :=
  hs.onCore

theorem Kept.enqXm (hs : Kept false s₀ s) : Kept false s₀ (s.enqXm e) :=
  .ite hs.noRoom hs.frameNext

theorem Kept.enqCe (hs : Kept false s₀ s) : Kept false s₀ (s.enqCe e) :=
  .ite hs.noRoom hs.frameNext

theorem Kept.execMcall (hs : Kept false s₀ s) : Keeps s₀ (execMcall r tk sb st s) := by
  unfold Machine.execMcall
  dsimp only
  split
  · exact hs.issueTrap
  · exact .ite hs.issueTrap hs.enqXm

theorem Kept.execMfmt (hs : Kept false s₀ s) : Keeps s₀ (execMfmt f tk s) :=
  .ite hs.issueTrap hs.enqXm.onCore

theorem Kept.copyOp (hs : Kept false s₀ s) : Kept false s₀ (copyOp op tk v a b k s) :=
  .ite hs.issueTrap hs.enqCe.onCore

theorem Kept.execPsend (hs : Kept false s₀ s) : Keeps s₀ (execPsend tk v a k s) :=
  .ite hs.issueTrap hs.copyOp

theorem Kept.plainCe (hs : Kept false s₀ s) : Kept false s₀ (plainCe op tk a b k s) :=
  hs.enqCe

/-! ## Scalar floating point -/

theorem Kept.fpOp {op : Rnd → Val → Val → Val × Flags} (hs : Kept false s₀ s) : Keeps s₀ (fpOp op w d a b s) :=
  hs.postS

theorem Kept.fpMinMax (hs : Kept false s₀ s) : Keeps s₀ (fpMinMax isMax w d a b s) :=
  hs.postS

/-! ## Vector operations -/

theorem Kept.vecOp {f : ℕ → ℕ × Flags} (hs : Kept false s₀ s) : Keeps s₀ (vecOp t lat arith vd p f s) :=
  hs.postV

theorem Kept.vec1 {f : ℕ → ℕ × Flags} (hs : Kept false s₀ s) : Keeps s₀ (vec1 t lat arith f vd va p s) :=
  hs.vecOp

theorem Kept.vec2 {f : ℕ → ℕ → ℕ × Flags} (hs : Kept false s₀ s) : Keeps s₀ (vec2 t lat arith f vd va vb p s) :=
  hs.vecOp

theorem Kept.vec3 {f : ℕ → ℕ → ℕ → ℕ × Flags} (hs : Kept false s₀ s) : Keeps s₀ (vec3 t lat f vd va vb vc p s) :=
  hs.vecOp

theorem Kept.arith2 {fop : Rnd → Val → Val → Val × Flags} {iop : ℤ → ℤ → ℤ} (hs :
    Kept false s₀ s) : Keeps s₀ (arith2 t fop iop vd va vb p s) :=
  .ite hs.vec2 hs.vec2

theorem Kept.fma3 {iop : ℤ → ℤ → ℤ → ℤ} (hs : Kept false s₀ s) : Keeps s₀ (fma3 t np nc iop vd va vb vc p s) :=
  .ite hs.vec3 hs.vec3

theorem Kept.redOp {f : ℕ → ℕ → ℕ × Flags} (hs : Kept false s₀ s) : Keeps s₀ (redOp t f dflt vd va p s) :=
  hs.postV

theorem Kept.vecSome {f : ℕ → Option (ℕ × Flags)} (hs : Kept false s₀ s) : Keeps s₀ (vecSome t lat vd p f s) :=
  hs.postV

theorem Kept.execVunpack (hs : Kept false s₀ s) : Keeps s₀ (execVunpack t src vd va hi p x s) :=
  (Kept.ite hs.frame hs).vecOp

theorem Kept.predOp (hs : Kept false s₀ s) : Keeps s₀ (predOp pd x s) :=
  hs.postV

/-! ## Special functions -/

theorem Kept.sf1 {f : Fmt → Rnd → Sat → Val → ℕ × Flags} (hs : Kept false s₀ s) : Keeps s₀ (sf1 f lat t vd va p s) :=
  hs.vec1

theorem Kept.refineOp (hs : Kept false s₀ s) : Keeps s₀ (refineOp rsq t vd va vb p s) :=
  hs.vec2

/-! ## Issue of a bundle -/

theorem Kept.injectOp (hs : Kept false s₀ s) : Kept false s₀ (s.injectOp o before) :=
  .ite hs (Kept.ite hs.onCore.inject (Kept.ite hs.inject hs))

theorem Kept.runOp (hs : Kept false s₀ s) : Keeps s₀ (runOp i s) := by
  unfold Machine.runOp
  cases i
  case add | sub | and | or | xor | andn | shl | shr | sar | rol | min | max | minn | maxn | mul | mulh | mulhn |
    cmpeq | cmpne | cmplt | cmple | cmpltn | cmplen | extb | insb | addsh => exact hs.intOp
  case div | divn | rem | remn => exact hs.divOp
  case sel | movw | movk | ffma | fcmp | fcvt | fclass | pcount | pfirst => exact hs.postS
  case clz | ctz | popc | brev | bswap | addi | andi | ori | xori | shli | shri | sari | cmpeqi | cmplti => exact hs.unOp
  case fadd | fsub | fmul => exact hs.fpOp
  case fmin | fmax => exact hs.fpMinMax
  case ptos | mpset | mpget | cntset | cntadd | cntrd | lix | hinvall | hinv => exact hs.postMove
  case csrrd => exact hs.execCsrrd
  case csrwr => exact hs.execCsrwr
  case vdqry | frameq | vcmp | vsel | vext | vins | vscan | vabsmax => exact hs.postV
  case nop => exact hs
  case br | jmp | ret => exact hs.transfer
  case brz => exact hs.execBrz
  case brnz => exact hs.execBrnz
  case call | callr => exact hs.transferLink
  case loop | loopi => exact hs.loopOp
  case lbreak => exact hs.execLbreak
  case disarm | fence => exact hs.onCore
  case commit | bar | sstep | exit | drain => exact hs.commitThen
  case waitlt | waittk | flagwt | wfe => exact hs.waitOn
  case yield => exact hs.execYield
  case signal | sth | vsth | vsthx | vscat => exact hs.postOp
  case launch => exact hs.execLaunch
  case trap | ebreak => exact hs.afterTrap
  case eret => exact hs.execEret
  case vadd | vsub | vmul | vavg => exact hs.arith2
  case vfma | vfms | vfnma => exact hs.fma3
  case vmin | vmax | vand | vor | vxor | vandn | vshl | vshr | vsar | vmulh | fdiv => exact hs.vec2
  case vabs | vneg | vclz | vpopc | vmov | fclassv => exact hs.vec1
  case vbcast | viota | vperm | vrot | vslide | vzip | vunzip | vdot4 | vpack => exact hs.vecOp
  case vredadd | vredmax | vredmin => exact hs.redOp
  case vcvt | vscale => exact hs.vecSome
  case vunpack => exact hs.execVunpack
  case pand | por | pxor | pnot | pset => exact hs.predOp
  case frcp | frsq | fsqrt | fexp2 | flog2 | fsin | fcos | ftanh | fsigm | fgelu => exact hs.sf1
  case frcps | frsqs => exact hs.refineOp
  case ld => exact hs.execLd
  case st => exact hs.execSt
  case vld | vldw => exact hs.vldOp
  case vst | vstw => exact hs.vstOp
  case xlt => exact hs.execXlt
  case hqry => exact hs.execHqry
  case ldl | vldl | vldlx | vgath => exact hs.landOp
  case vlda | vsta => exact hs.accOp
  case pld => exact hs.execPld
  case amoadd | amomin | amomax | amoand | amoor | amoxor | amoswp | amocas | amofadd => exact hs.amoOp
  case redadd | redmin | redmax | redfadd => exact hs.redOpM
  case mcall => exact hs.execMcall
  case mfmt => exact hs.execMfmt
  case mchk | mclr | mldstore => exact hs.enqXm
  case cpy | cpysig | cpeer => exact hs.copyOp
  case bankcfg | strmbind | strmrel | pgload | pgrun | pgstop | pgrant | cflush | cinv => exact hs.plainCe
  case psend => exact hs.execPsend
  all_goals trivial

theorem Kept.runSlot (hs : Kept false s₀ s) : Keeps s₀ (runSlot o s) := by
  unfold Machine.runSlot
  dsimp only
  split
  · next t e => exact ((hs.onCore.runOp.of_next e).onCore).injectOp
  · exact hs.onCore.runOp

theorem Kept.runSlots (hs : Kept false s₀ s) : Keeps s₀ (runSlots l s) := by
  induction l generalizing s with
  | nil => exact hs
  | cons o r ih =>
    rw [Machine.runSlots]
    split
    · next t e =>
      have ht := hs.runSlot.of_next e
      exact .ite ht (ih ht)
    · exact hs.runSlot

theorem Kept.holdBack {t : State} (hs : Kept false s₀ s) (ht : s.nextId ≤ t.nextId) : Kept false s₀ (holdBack s t w) := by
  unfold Machine.holdBack
  dsimp only
  refine Kept.onCore ?_
  split
  · exact hs
  · exact (hs.later ht).frame

/-- What follows a bundle depends on a TRAP or an EBREAK that waits. -/
theorem Keeps.trapCases {ct : Option Instr} {trap : SReg → BitVec 14 → Out} {brk other : Out} (htrap : ∀ a x, Keeps s₀ (trap a x))
    (hbrk : Keeps s₀ brk) (hother : Keeps s₀ other) :
    Keeps s₀ (match ct with | some (.trap a x) => trap a x | some .ebreak => brk | _ => other) := by
  cases ct with
  | none => exact hother
  | some i =>
    cases i
    case trap a x => exact htrap a x
    case ebreak => exact hbrk
    all_goals exact hother

theorem Kept.afterIssueTraps (hs : Kept false s₀ s) : Keeps s₀ (afterIssueTraps s hz ct) := by
  unfold Machine.afterIssueTraps
  refine .ite hs.onCore.onCore (.ite (.trapCases (fun a x => ?_) ?_ ?_) ?_)
  · exact hs.onCore.onCore.onCore.takeTrap
  · exact hs.onCore.onCore.onCore.takeTrap
  · exact hs.onCore.onCore.takeTrap
  · split
    · exact hs.onCore.onCore.runOp
    · exact hs.onCore.onCore

theorem Kept.runBundle (hs : Kept false s₀ s) : Keeps s₀ (s.runBundle b ops) := by
  have start := (Kept.refl s).onCore (f := fun c => { c with
    stale := if b.join then [] else c.stale
    ictx := { rnd := b.rnd, sm := b.sm, addr := none, npc := s.core.pc + 2 * b.len, moved := false, trap := none, stall := none
      } })
  unfold State.runBundle
  dsimp only
  split
  · next t e =>
    have ran : Kept false s t := by
      refine Keeps.of_next ?_ e
      split
      · next u eu =>
        have first := start.runSlots.of_next eu
        exact .ite first first.onCore.runSlots
      · exact start.runSlots
    split
    · exact hs.onCore.takeTrap
    · exact hs.holdBack ran.next
    · exact .ite (hs.trans ran) (hs.trans ran).onCore.afterIssueTraps
  · refine hs.keeps ?_
    split
    · next u eu =>
      have first := start.runSlots.of_next eu
      exact .ite first first.onCore.runSlots
    · exact start.runSlots

theorem Kept.noteSkip (hs : Kept false s₀ s) : Kept false s₀ (s.noteSkip st) :=
  .ite hs hs.faultRec.updTask

theorem Kept.fetchHold (hs : Kept false s₀ s) : Kept false s₀ (s.fetchHold st w) := by
  unfold State.fetchHold
  dsimp only
  exact hs.badPteRec.faultRec.onCore

theorem Kept.fetchRefused (hs : Kept false s₀ s) : Kept false s₀ (s.fetchRefused st v pa) :=
  hs.refusal.issueTrap

theorem Kept.issueBundle (hs : Kept false s₀ s) : Keeps s₀ (s.issueBundle st) := by
  unfold State.issueBundle
  dsimp only
  split
  · exact hs.onCore.fetchHold
  · exact hs.onCore.issueTrap
  · exact hs.onCore.fetchRefused
  · trivial
  · split
    · exact hs.onCore.issueTrap
    · exact .ite hs.onCore.onCore (Keeps.ite hs.onCore.onCore (Keeps.ite hs.onCore.onCore hs.onCore.runBundle))

theorem Kept.stopHere (hs : Kept false s₀ s) : Kept false s₀ (s.stopHere reason) :=
  hs.onCore

theorem Kept.pauseCheck_snd (hs : Kept false s₀ s) : Kept false s₀ (s.pauseCheck st).2 := by
  unfold State.pauseCheck
  dsimp only
  split
  · exact hs
  · split
    · exact hs
    · split
      · exact hs.noteSkip
      · split
        · split
          · next t e => exact hs
          · exact hs
        · exact hs

theorem Kept.pauseCheck_fst (hs : Kept false s₀ s) : KeptSome false s₀ (s.pauseCheck st).1 := by
  unfold State.pauseCheck
  dsimp only
  split
  · trivial
  · split
    · trivial
    · split
      · trivial
      · split
        · split
          · next t e => exact (hs.reserveSlots.of_some e).stopHere
          · trivial
        · trivial

/-- A tick on which the strand goes on. -/
theorem Kept.goes (hs : Kept false s₀ s) : Keeps s₀ (match s.pauseCheck st with
    | (some t, _) => .next t
    | (none, t) => t.issueBundle st) := by
  split
  · next t u e =>
    have paused := hs.pauseCheck_fst (st := st)
    rw [e] at paused
    exact paused
  · next t e => exact (hs.pauseCheck_snd.of_snd e).issueBundle

theorem Kept.tickCore (hs : Kept false s₀ s) : Keeps s₀ (s.tickCore st) := by
  unfold State.tickCore
  dsimp only
  refine .ite hs.onCore ?_
  split
  · exact hs.goes
  · exact .ite hs.onCore.goes (.ite hs.onCore hs.onCore)

theorem Kept.execBundleIssue {id : CoreId} (hs : Kept false s₀ s) : Keeps s₀ (execBundleIssue id s) := by
  unfold Machine.execBundleIssue
  dsimp only
  split
  · trivial
  · split
    · trivial
    · split
      · exact hs.focus.onCore
      · split
        · exact hs.focus.onCore
        · split
          · next t e => exact (hs.focus.onCore.settle_fst.of_fst e).tickCore
          · next t _ _ e => exact ((hs.focus.onCore.settle_fst.of_fst e).onCore).takeTrap

/-! ## Landings, waits and traps of a core -/

theorem Kept.wallNow (hs : Kept false s₀ s) : Kept false s₀ s.wallNow :=
  .ite hs.thaw hs

theorem Kept.unfreeze (hs : Kept false s₀ s) : Kept false s₀ s.unfreeze :=
  .ite hs.thaw.onCore hs

theorem Kept.unwait (hs : Kept false s₀ s) : Kept false s₀ s.unwait :=
  hs.unfreeze.onCore

theorem Kept.execLandingArrival {id : ℕ} (hs : Kept false s₀ s) : Keeps s₀ (execLandingArrival id s) := by
  unfold Machine.execLandingArrival
  dsimp only
  split
  · next a _ e _ =>
      have he := Awaits.of_find e
      exact (Kept.ite (((((Kept.ite hs.drops hs.drops.updDie).focus).wallNow).onCore).unfreeze)
        ((((Kept.ite hs.drops hs.drops.updDie).focus).wallNow).onCore)).pump
  · trivial

theorem Kept.dropLanding (hs : Kept false s₀ s) : Kept false s₀ (s.dropLanding a n va) := by
  unfold State.dropLanding
  dsimp only
  split
  · exact ((Kept.ite hs.uncount hs).dropAccess).updCore
  · exact (Kept.ite hs.uncount hs).dropAccess

theorem Kept.holdLanding (hs : Kept false s₀ s) (ha : Awaits s₀ a) : Kept false s₀ (s.holdLanding a va) :=
  hs.faultRec.setAccess ha

theorem Kept.sendLanding (hs : Kept false s₀ s) (ha : Awaits s₀ a) : Kept false s₀ (s.sendLanding a parts) := by
  unfold State.sendLanding
  dsimp only
  refine Kept.pump (hs.setAccess ha)

theorem Kept.walkedAccess (hs : Kept false s₀ s) (ha : Awaits s₀ a) : Kept false s₀ (s.walkedAccess a r) := by
  unfold State.walkedAccess
  dsimp only
  split
  · exact hs.holdLanding ha
  · exact .ite hs.dropLanding (Kept.ite hs.dropLanding (hs.sendLanding ha))

theorem Kept.retryLanding (hs : Kept false s₀ s) (ha : Awaits s₀ a) : Kept false s₀ (s.retryLanding a) := by
  unfold State.retryLanding
  dsimp only
  split
  · exact hs.badPteRec.holdLanding ha
  · split
    · exact hs.dropLanding
    · exact hs.sendLanding ha

theorem Kept.walkAccess (hs : Kept false s₀ s) :
    Kept false s₀ (match s.flight.find? fun y => y.id == a with | some y => s.walkedAccess y r | none => s) := by
  split
  · next y e => exact hs.trans ((Kept.refl s).walkedAccess (.of_find e))
  · exact hs

theorem Kept.execWalkComplete (hs : Kept false s₀ s) : Keeps s₀ (execWalkComplete n s) := by
  unfold Machine.execWalkComplete
  split
  · trivial
  · dsimp only
    split
    · trivial
    · next t e =>
      have ht := hs.directReads.of_some e
      have drawn : ∀ p : Prop, ∀ _ : Decidable p, Kept false s₀ (if p then t else t.draw.2) := fun _ _ => .ite ht ht.draw_snd
      have kept : ∀ p q : Prop, ∀ _ : Decidable p, ∀ _ : Decidable q, ∀ c f, Kept false s₀
        (if q then if p then t else t.draw.2 else
          (if p then t else t.draw.2).updCore c f) := fun _ _ _ _ _ _ => .ite (drawn _ _) (drawn _ _).updCore
      refine Kept.pump (.ite (Kept.unwait ?walked) (.ite (Kept.unfreeze ?walked) ?walked))
      split
      · exact (kept _ _ _ _ _ _).frame.badPteRec.focus.wallNow.onCore
      · exact (kept _ _ _ _ _ _).frame.badPteRec.focus.wallNow.onCore
      · exact (kept _ _ _ _ _ _).frame.badPteRec.focus.wallNow.onCore
      · exact (kept _ _ _ _ _ _).frame.badPteRec.focus.wallNow.walkAccess.onCore

theorem Kept.execWaitConditionMet {id : CoreId} (hs : Kept false s₀ s) : Keeps s₀ (execWaitConditionMet id s) := by
  unfold Machine.execWaitConditionMet
  dsimp only
  split
  · exact .ite hs.focus.unfreeze.onCore trivial
  · trivial

theorem Kept.execWfeTimeout {id : CoreId} (hs : Kept false s₀ s) : Keeps s₀ (execWfeTimeout id s) := by
  unfold Machine.execWfeTimeout
  dsimp only
  split
  · exact hs.focus.unwait
  · trivial

theorem Kept.execQueueRoom {id : CoreId} (hs : Kept false s₀ s) : Keeps s₀ (execQueueRoom id s) := by
  unfold Machine.execQueueRoom
  dsimp only
  split
  · exact .ite hs.focus.unwait trivial
  · trivial

theorem Kept.execSyncRelease {id : CoreId} (hs : Kept false s₀ s) : Keeps s₀ (execSyncRelease id s) := by
  unfold Machine.execSyncRelease
  dsimp only
  split
  · exact .ite hs.focus.unwait trivial
  · trivial

theorem Kept.execCommitRelease (hs : Kept false s₀ s) : Keeps s₀ (execCommitRelease c s) := by
  unfold Machine.execCommitRelease
  dsimp only
  split
  · refine .ite trivial (Kept.onCore (Kept.pump (Kept.beginInst ?_)))
    have released : ∀ f : Access → Access, (∀ a, (f a).id = a.id ∧ (f a).land = a.land) → ∀ es,
        Kept false s₀ { s.focus c with flight := (s.focus c).flight.map f, effects := es } :=
      fun _ hf _ => (hs.focus.mapsSame hf).frame
    refine .ite (Kept.unbindWhere (Kept.onCore (released _ ?same _))) (Kept.onCore (released _ ?same _))
    intro a
    split
    · exact ⟨rfl, rfl⟩
    · exact ⟨rfl, rfl⟩
  · trivial

theorem Kept.execStrandExitComplete {id : CoreId} (hs : Kept false s₀ s) : Keeps s₀ (execStrandExitComplete id s) := by
  unfold Machine.execStrandExitComplete
  dsimp only
  split
  · exact .ite trivial hs.focus.onCore.updTask
  · trivial

theorem Kept.execAsyncTrapArrival {id : CoreId} (hs : Kept false s₀ s) : Keeps s₀ (execAsyncTrapArrival id tr detail val s) :=
  .ite hs.asyncTrap trivial

theorem Kept.takeQueued (hs : Kept false s₀ s) : Kept false s₀ (s.takeQueued r) :=
  hs.wallNow.onCore.takeTrap

theorem Kept.execTrapEntry {id : CoreId} (hs : Kept false s₀ s) : Keeps s₀ (execTrapEntry id s) := by
  unfold Machine.execTrapEntry
  dsimp only
  split
  · exact .ite hs.focus.takeQueued trivial
  · trivial

theorem Kept.execFatalTrap {id : CoreId} (hs : Kept false s₀ s) : Keeps s₀ (execFatalTrap id s) := by
  unfold Machine.execFatalTrap
  dsimp only
  split
  · exact .ite trivial hs.focus.takeQueued
  · trivial

theorem Kept.askStop (hs : Kept false s₀ s) : Kept false s₀ (s.askStop t g) :=
  hs.updTask

theorem Kept.execStopRequest (hs : Kept false s₀ s) : Keeps s₀ (execStopRequest t g s) := by
  unfold Machine.execStopRequest
  dsimp only
  split
  · exact .ite hs.frame trivial
  · trivial

/-! ## The home of an access -/

theorem Kept.orderRec (hs : Kept up s₀ s) : Kept up s₀ (s.orderRec d kind ctx pa pos seq amoseq lane gang lcore) :=
  hs.now.ringPut

theorem Kept.atomLane (hs : Kept up s₀ s) (ha : Awaits s₀ a) : Kept up s₀ (s.atomLane a) := by
  have arrived : ∀ (o : Option TaskId) (d : DieId) (pa : Nat) (t : State), Kept up s₀ t →
      Kept up s₀ (match o with | some i => t.updDie d (·.arrive pa i) | none => t) := fun o d pa t ht => by
    split
    · refine ht.updDieSame ?_
      exact fun _ => rfl
    · exact ht
  unfold State.atomLane
  split
  · refine .ite (hs.refusal.answered ?_) ?_
    · exact ha
    · split
      · refine hs.sealRec.answered ?_
        exact ha
      · refine .ite (Kept.answered (.ite (Kept.orderRec (arrived _ _ _ _ hs.storeBytes)) (arrived _ _ _ _ hs.storeBytes)) ?_)
          (Kept.setAccess (.ite (Kept.orderRec (arrived _ _ _ _ hs.storeBytes)) (arrived _ _ _ _ hs.storeBytes)) ?_)
        · exact ha
        · exact ha
  · exact hs

theorem Kept.applyHold (hs : Kept up s₀ s) : Kept up s₀ (s.applyHold h) :=
  hs.storeBytes

theorem Kept.countDet (hs : Kept up s₀ s) : Kept up s₀ (s.countDet d) :=
  hs.setReg

theorem Kept.holdAccept (hs : Kept up s₀ s) : KeptSome up s₀ (s.holdAccept d a t op wide p) := by
  unfold State.holdAccept
  dsimp only
  split
  · refine .ite trivial (hs.putBack (i := d) ?_)
    rfl
  · refine Kept.updDieSame (.ite (Kept.countDet (Kept.orderRec (Kept.applyHold (.ite hs.orderRec.countDet hs))))
      (.ite hs.orderRec.countDet hs)) ?_
    exact fun _ => rfl

theorem Kept.closeHolds (hs : Kept up s₀ s) : Kept up s₀ (s.closeHolds t g) := by
  refine hs.foldl fun _ _ h => Kept.updDieSame (h.foldl fun _ _ h => h.applyHold) ?_
  exact fun _ => rfl

theorem Kept.redLane (hs : Kept up s₀ s) : Kept up s₀ (s.redLane a op wide p) := by
  unfold State.redLane
  split
  · exact hs.sealRec.issuerTrap
  · split
    · split
      · next t e => exact (hs.holdAccept.of_some e)
      · exact hs.issuerTrap
    · exact hs.storeBytes

theorem Kept.decrement_fst (hs : Kept up s₀ s) : Kept up s₀ (s.decrement ctx pa d).1 := by
  unfold State.decrement
  dsimp only
  split
  · exact hs.storeBytes
  · exact hs.storeBytes

theorem Kept.signalAt (hs : Kept up s₀ s) : Kept up s₀ (s.signalAt home w va pa d) :=
  .ite hs.decrement_fst.faultRec hs.decrement_fst

theorem Kept.checkWhole {k : State} (hs :
    Kept up s₀ s) (ha : Awaits s₀ a) (hk : Kept up s₀ k) : Kept up s₀ (s.checkWhole a k) := by
  unfold State.checkWhole
  split
  · exact hs.refusal.failAccess ha
  · exact hk

theorem Kept.checkLanes {k : State → Access → State} (hs : Kept up s₀ s) (ha : Awaits s₀ a)
    (hk : ∀ t b, Kept up s₀ t → Awaits s₀ b → Kept up s₀ (k t b)) : Kept up s₀ (s.checkLanes a k) := by
  have others : ∀ t, Kept up s t → ∀ f : Access → Access, (∀ b, (f b).land = b.land) →
      Kept up s ((s.flight.filter (sameOp a)).foldl (fun t b => t.setAccess (f b)) t) := fun t ht f hf =>
    List.foldlRecOn (motive := Kept up s) _ _ ht fun u hu b hb =>
      hu.setAccess fun h l e => Awaits.of_mem (List.mem_of_mem_filter hb) h l (hf b ▸ e)
  unfold State.checkLanes
  refine .ite (hs.answered ha) (.ite (hk _ _ hs ha) ?_)
  dsimp only
  split
  · refine hk _ _ (hs.trans (others _ (.refl s) (fun b => { b with checked := true }) fun _ => rfl)) ?_
    exact ha
  · next q v r e =>
    refine Kept.answered (hs.trans (others _ ?_ (fun b => b.spoil v.trap q.va) fun b => ?_)) ?_
    · exact (Kept.refl s).foldl fun _ _ ht => ht.refusal
    · rfl
    · exact ha

theorem Kept.performAt (hs : Kept up s₀ s) (ha : Awaits s₀ a) : Kept up s₀ (s.performAt a) := by
  unfold State.performAt
  split
  · exact hs.performLoad ha
  · exact hs.performStore
  · refine hs.checkLanes ha fun t b ht hb => ?_
    refine .ite (Kept.atomLane (ht.later (Nat.le_succ _)) ?_) (Kept.setAccess (ht.later (Nat.le_succ _)) ?_)
    · exact hb
    · exact hb
  · exact hs.checkWhole ha (Kept.performedAccess (hs.foldl fun _ _ ht => ht.redLane))
  · refine hs.checkWhole ha ?_
    split
    · split
      · exact hs.sealRec.failAccess ha
      · exact hs.signalAt.performedAccess
    · exact hs.performedAccess
  · exact hs
  · exact hs

theorem Kept.execHomeSliceAccess (hs : Kept false s₀ s) : Keeps s₀ (execHomeSliceAccess n s) := by
  refine hs.keeps ?_
  replace hs := Kept.refl (up := false) s
  unfold Machine.execHomeSliceAccess
  split
  · trivial
  · next a e =>
    have ha := Awaits.of_find e
    refine .ite trivial (.ite (hs.refusal.failAccess ha) (.ite (hs.pin ha) ?_))
    split
    · refine hs.checkWhole ha (hs.setAccess ?_)
      exact ha
    · exact hs.performedAccess
    · exact hs.performedAccess
    · exact hs.performAt ha

theorem Kept.execAtomicPerform {id : ℕ} (hs : Kept false s₀ s) : Keeps s₀ (execAtomicPerform id s) := by
  refine hs.keeps ?_
  replace hs := Kept.refl (up := false) s
  unfold Machine.execAtomicPerform
  split
  · next a e =>
      have he := Awaits.of_find e
      exact .ite (hs.atomLane he) trivial
  · trivial

theorem Kept.execReplayOrderRelease {id : ℕ} (hs : Kept false s₀ s) : Keeps s₀ (execReplayOrderRelease id s) := by
  refine hs.keeps ?_
  replace hs := Kept.refl (up := false) s
  unfold Machine.execReplayOrderRelease
  split
  · next a e =>
      have he := Awaits.of_find e
      exact .ite (hs.atomLane he) trivial
  · trivial

theorem Kept.execDiverge {id : ℕ} (hs : Kept false s₀ s) : Keeps s₀ (execDiverge id s) := by
  unfold Machine.execDiverge
  dsimp only
  split
  · next a e =>
      have he := Awaits.of_find e
      split
      · trivial
      · exact .ite trivial hs.orderRec.updDie
      · trivial
  · trivial

theorem Kept.execCounterDecrement {id : ℕ} (hs : Kept false s₀ s) : Keeps s₀ (execCounterDecrement id s) := by
  refine hs.keeps ?_
  replace hs := Kept.refl (up := false) s
  unfold Machine.execCounterDecrement
  split
  · next a e =>
      have he := Awaits.of_find e
      split
      · exact .ite trivial (hs.performAt he)
      · trivial
  · trivial

theorem Kept.execLocalCausalRelease {id : ℕ} (hs : Kept false s₀ s) : Keeps s₀ (execLocalCausalRelease id s) := by
  refine hs.keeps ?_
  replace hs := Kept.refl (up := false) s
  unfold Machine.execLocalCausalRelease
  dsimp only
  split
  · next a e =>
      have he := Awaits.of_find e
      exact .ite (hs.setAccess he) trivial
  · trivial

theorem Kept.execEpochClose (hs : Kept false s₀ s) : Keeps s₀ (execEpochClose t g s) := by
  have told : ∀ (gs : List Gang) (ds : List DieId),
      Kept false s₀ (ds.foldl (fun s i => ds.foldl (fun s j => s.tellAll i j) s)
        (gs.foldl (fun s x => s.closeHolds t x.idx) s)) :=
    fun _ _ => Kept.foldl (hs.foldl fun _ _ h => h.closeHolds) fun _ _ h => h.foldl fun _ _ h => h.tellAll
  unfold Machine.execEpochClose
  split
  · trivial
  · dsimp only
    split
    · next u e =>
      refine KeptSome.of_some ?_ e
      split
      · trivial
      · exact .ite trivial (Kept.updTask (told _ _).frame)
    · next u _ e =>
      refine KeptSome.of_some ?_ e
      split
      · trivial
      · exact .ite trivial (Kept.updTask (told _ _).frame)
    · exact .ite hs.closeHolds trivial

/-! ## Queue registers -/

theorem Kept.setQreg (hs : Kept false s₀ s) : Kept false s₀ (s.setQreg d q o v) :=
  hs.updDie

theorem Kept.qfault (hs : Kept false s₀ s) : Kept false s₀ (s.qfault d q status seq off) :=
  hs.setQreg

theorem Kept.qrefuse (hs : Kept false s₀ s) : Kept false s₀ (s.qrefuse d q status) :=
  hs.qfault

theorem Kept.notSince {ok : Task → Bool} (hs : Kept false s₀ s) : Kept false s₀ (s.notSince ok) :=
  hs.frame

theorem Kept.dropWaiting (hs : Kept false s₀ s) : Kept false s₀ (s.dropWaiting d q) :=
  hs.updDie.foldl fun _ _ ht => ht.qrefuse

/-! ## The fabric -/

theorem Kept.discardFlit (hs : Kept up s₀ s) : Kept up s₀ (s.discardFlit at' a) := by
  unfold State.discardFlit
  dsimp only
  split
  · exact hs.orderRec.setReg.dropAccess.endTask
  · exact hs.orderRec.setReg.dropAccess

theorem Kept.execFlitReceive {id : ℕ} (hs : Kept false s₀ s) : Keeps s₀ (execFlitReceive id s) := by
  refine hs.keeps ?_
  replace hs := Kept.refl (up := false) s
  unfold Machine.execFlitReceive
  split
  · next a e =>
      have he := Awaits.of_find e
      exact .ite trivial (Keeps.ite (hs.setAccess he) (Keeps.ite hs.discardFlit (Keeps.ite (hs.setAccess he) trivial)))
  · trivial

theorem deliverCounts_mark (d : Die) (a : Access) : (deliverCounts d a).mark up = d.mark up := by
  unfold deliverCounts
  dsimp only
  split <;> rfl

theorem Kept.deliver (hs : Kept up s₀ s) (ha : Awaits s₀ a) : Kept up s₀ (s.deliver a) := by
  have counted := hs.updDieSame (d := a.home) (f := fun d => deliverCounts d a) fun d => deliverCounts_mark d a
  unfold State.deliver
  refine .ite (counted.setAccess ?_) (Kept.performAt (counted.setAccess ?_) ?_)
  · exact ha
  · exact ha
  · exact ha

theorem Kept.execFlitDeliver {id : ℕ} (hs : Kept false s₀ s) : Keeps s₀ (execFlitDeliver id s) := by
  refine hs.keeps ?_
  replace hs := Kept.refl (up := false) s
  unfold Machine.execFlitDeliver
  split
  · next a e =>
      have he := Awaits.of_find e
      exact .ite trivial (hs.deliver he)
  · trivial

theorem Kept.execCreditSend (hs : Kept false s₀ s) : Keeps s₀ (execCreditSend d s) :=
  .ite hs.frame trivial

theorem Kept.execCreditReceive (hs : Kept false s₀ s) : Keeps s₀ (execCreditReceive d src s) := by
  unfold Machine.execCreditReceive
  dsimp only
  split
  · trivial
  · exact hs.frame.setDie.pump

theorem Kept.replayFails (hs : Kept false s₀ s) : Kept false s₀ (s.replayFails t n) := by
  unfold State.replayFails
  dsimp only
  split
  · exact hs
  · exact (Kept.ite hs.faultRec hs).asyncTrap

theorem Kept.execTrellisReplay (hs : Kept false s₀ s) : Keeps s₀ (execTrellisReplay c s) := by
  unfold Machine.execTrellisReplay
  dsimp only
  split
  · split
    · trivial
    · next u e =>
      have hu := hs.focus.directReads.of_some e
      split
      · exact hu.onCore.badPteRec
      · exact Kept.ite hu.onCore.replayFails.unwait hu.onCore.replayFails
      · refine Kept.pump (.ite (Kept.unwait ?sent) ?sent)
        exact Kept.frame (hu.sendsAlone rfl rfl)
  · trivial

theorem Kept.loggedReplay (hs : Kept false s₀ s) : Keeps s₀ (loggedReplay n s) := by
  unfold Machine.loggedReplay
  split
  · split
    · refine .ite trivial ?_
      split
      · exact hs.frame.badPteRec
      · exact hs.frame.faultRec
      · refine Kept.pump (Kept.frame (hs.sendsAlone ?_ ?_))
        · rfl
        · rfl
    · trivial
  · trivial

theorem Kept.execDramWriteback (hs : Kept false s₀ s) : Keeps s₀ (execDramWriteback d pa s) := by
  unfold Machine.execDramWriteback
  dsimp only
  split
  · trivial
  · split
    · exact .ite hs.setDie hs.setDie.wrBytes
    · exact hs.setDie

theorem Kept.execBankSwitchComplete (hs : Kept false s₀ s) : Keeps s₀ (execBankSwitchComplete d c b s) := by
  unfold Machine.execBankSwitchComplete
  split
  · trivial
  · refine Kept.updCore (.ite hs.updDie (.ite (Kept.writes hs.updDie.updDie fun h => ?_) hs.updDie.updDie))
    exact memZero_wf h _ _

theorem Kept.endContext (hs : Kept false s₀ s) : Kept false s₀ (s.endContext ctx) :=
  (hs.foldl fun _ _ ht => ht.endTask).foldl fun _ _ ht => ht.foldl fun _ _ ht' => .ite ht'.setQreg.dropWaiting ht'

theorem Kept.retirePage (hs : Kept false s₀ s) : Kept false s₀ (s.retirePage d p) := by
  unfold State.retirePage
  dsimp only
  exact hs.frame.updDie

theorem Kept.flushSlice (hs : Kept false s₀ s) : Kept false s₀ (s.flushSlice d slice line) := by
  unfold State.flushSlice
  refine Kept.foldl hs fun _ _ ht => ?_
  split
  · next t' e' => exact (ht.execDramWriteback.of_next e')
  · exact ht

theorem Kept.execCacheUe (hs : Kept false s₀ s) : Keeps s₀ (execCacheUe d pa slice way s) := by
  unfold Machine.execCacheUe
  dsimp only
  split
  · trivial
  · split
    · exact hs.draw_snd.faultRec
    · change Kept _ _ _
      split
      · exact hs.endContext.retirePage.faultRec.flushSlice.updDie.faultRec.faultRec
      · exact hs.endContext.retirePage.faultRec.flushSlice.updDie.faultRec

/-! ## The copy engine -/

theorem Kept.refuseLines (hs : Kept false s₀ s) : Kept false s₀ (s.refuseLines c ctx need va l) :=
  hs.foldl fun _ _ ht => ht.refusal

theorem Kept.absentRec (hs : Kept false s₀ s) : Kept false s₀ (s.absentRec c ctx va kind detail) :=
  hs.badPteRec.faultRec

theorem Kept.srcSeen (hs : Kept false s₀ s) : Kept false s₀ (s.srcSeen c ctx space a n) := by
  unfold State.srcSeen
  split
  · exact hs
  · split
    · exact hs.touch
    · exact hs

theorem Kept.injSrc (hs : Kept false s₀ s) : Kept false s₀ (s.injSrc c ctx space a n) := by
  unfold State.injSrc
  split
  · split
    · split
      · exact .ite hs.injNsp hs
      · exact hs
    · exact hs
  · exact .ite hs.injNsp (Kept.ite (hs.foldl fun _ _ ht => ht.injNsp) hs)

theorem Kept.writeNsp (hs : Kept false s₀ s) : Kept false s₀ (s.writeNsp c swz a l) :=
  .ite (hs.foldl fun _ _ ht => ht.nspWrite) hs.nspWrite

theorem Kept.putRefused (hs : Kept false s₀ s) : Kept false s₀ (s.putRefused p) := by
  unfold State.putRefused
  dsimp only
  split
  · exact hs.violog
  · exact hs.violog

theorem Kept.putEnds (hs : Kept false s₀ s) : Kept false s₀ (s.putEnds e) := by
  unfold State.putEnds
  dsimp only
  split
  · refine Kept.pump ?_
    split
    · exact hs.frame.strandTrap
    · exact hs.frame
  · exact hs

theorem Kept.execPeerPutReceive (hs : Kept false s₀ s) : Keeps s₀ (execPeerPutReceive p s) := by
  have stopped : ∀ o : Option Effect, ∀ t, Kept false s₀ t →
      Kept false s₀ (match o with | some x => (t.putRefused p).putEnds x | none => t.putRefused p) := fun o t ht => by
    split
    · exact ht.putRefused.putEnds
    · exact ht.putRefused
  unfold Machine.execPeerPutReceive
  refine .ite trivial ?_
  dsimp only
  split
  · exact stopped _ _ hs.frame
  · refine .ite (stopped _ _ hs.frame) ?_
    split
    · trivial
    · next u e =>
      have hu : Kept false s₀ u := by
        refine KeptSome.of_some (.ite ?_ ?_) e
        · exact hs.frame.directWrite
        · exact hs.frame
      refine Kept.pump ?_
      split
      · exact (hu.foldl fun _ _ h => h.sealRec).noteDuring.nspWrite.updCore
      · exact (hu.foldl fun _ _ h => h.sealRec).noteDuring.nspWrite

theorem Kept.execPeerAck {id : ℕ} (hs : Kept false s₀ s) : Keeps s₀ (execPeerAck id s) := by
  unfold Machine.execPeerAck
  dsimp only
  split
  · exact .ite hs.draw_snd.putEnds hs.draw_snd.frame.pump
  · trivial

theorem Kept.noteGranules (hs : Kept false s₀ s) : Kept false s₀ (s.noteGranules c tok gs) :=
  hs.updCore

theorem Kept.srcCausal (hs : Kept false s₀ s) : KeptSome false s₀ (s.srcCausal c ctx space a) :=
  hs.directReads

/-- The same of what a read of the copy engine answers: only a failure that is found at the memory changes the state. -/
def KeptReach (s₀ : State) : Reach α → Prop
  | .late _ s => Kept false s₀ s
  | _ => True

/-- The same of where a packet's bytes went. -/
def KeptLanded (s₀ : State) : Landed → Prop
  | .done s => Kept false s₀ s
  | .late _ s => Kept false s₀ s
  | _ => True

theorem KeptReach.of_late {r : Reach α} (h : KeptReach s₀ r) (e : r = .late x t) : Kept false s₀ t := by
  subst e
  exact h

theorem KeptLanded.of_done {r : Landed} (h : KeptLanded s₀ r) (e : r = .done t) : Kept false s₀ t := by
  subst e
  exact h

theorem KeptLanded.of_late {r : Landed} (h : KeptLanded s₀ r) (e : r = .late x t) : Kept false s₀ t := by
  subst e
  exact h

theorem KeptReach.ite {r q : Reach α} {p : Prop} [Decidable p] (hr : KeptReach s₀ r) (hq : KeptReach s₀ q) :
    KeptReach s₀ (if p then r else q) := by
  split
  · exact hr
  · exact hq

theorem KeptLanded.ite {r q : Landed} {p : Prop} [Decidable p] (hr : KeptLanded s₀ r) (hq : KeptLanded s₀ q) :
    KeptLanded s₀ (if p then r else q) := by
  split
  · exact hr
  · exact hq

theorem mapVa_ne_late {s : State} {r : Leaf → Bool} : s.mapVa c ctx va r ≠ .late x t := by
  unfold State.mapVa
  split
  · exact fun h => nomatch h
  · split
    · exact fun h => nomatch h
    · split
      · exact fun h => nomatch h
      · exact fun h => nomatch h

theorem reachVa_ne_late {s : State} {r : Leaf → Bool} : s.reachVa c ctx va r ≠ .late x t := by
  unfold State.reachVa
  split
  · exact fun h => nomatch h
  · exact mapVa_ne_late

theorem Kept.readVa (hs : Kept false s₀ s) : KeptReach s₀ (s.readVa c ctx va n exit) := by
  unfold State.readVa
  split
  · trivial
  · trivial
  · trivial
  · next e => exact (reachVa_ne_late e).elim
  · refine .ite trivial ?_
    split
    · split
      · exact hs.sealRec
      · trivial
    · exact hs.refuseLines

theorem Kept.readSrc (hs : Kept false s₀ s) : KeptReach s₀ (s.readSrc c ctx space a n exit) := by
  unfold State.readSrc
  refine .ite hs.readVa (.ite ?_ (.ite trivial (.ite trivial trivial)))
  split
  · refine .ite hs.refusal (.ite trivial (.ite hs.refusal ?_))
    split
    · trivial
    · exact hs.refuseLines
  · exact hs.refusal

theorem Kept.packetSend (hs : Kept false s₀ s) : Keeps s₀ (packetSend c cmd s) := by
  unfold Machine.packetSend
  dsimp only
  split
  · split
    · trivial
    · refine .ite trivial ?_
      split
      · trivial
      · next u e =>
        have hu := hs.focus.srcCausal.of_some e
        have seen : ∀ p : Prop, ∀ _ : Decidable p, Kept false s₀ (if p then u.nspSeen c else u) := fun _ _ => .ite hu.nspSeen hu
        split
        · trivial
        · exact (seen _ _).absentRec.onCore
        · exact (seen _ _).onCore
        · next e => exact ((seen _ _).readSrc.of_late e).onCore
        · exact (seen _ _).onCore
        · exact ((seen _ _).foldl fun _ _ h => h.exitRec).srcSeen.injSrc.onCore
        · trivial
  · trivial

theorem Kept.landPa (hs : Kept false s₀ s) : KeptLanded s₀ (s.landPa c st r va pa data) := by
  unfold State.landPa
  split
  · split
    · exact hs.noteGranules.nspWrite
    · split
      · exact hs.sealRec
      · split
        · next e => exact (hs.directWrite.of_some e).storeBytes
        · trivial
  · refine Kept.pump (Kept.frame (hs.sendsAlone ?_ ?_))
    · rfl
    · rfl

theorem Kept.writeDst (hs : Kept false s₀ s) : KeptLanded s₀ (s.writeDst c st r p data last) := by
  unfold State.writeDst
  refine .ite hs (.ite (.ite trivial (.ite hs.putRefused hs.frameNext)) (.ite (.ite trivial hs.noteGranules.writeNsp) ?_))
  dsimp only
  split
  · trivial
  · next e => exact (reachVa_ne_late e).elim
  · trivial
  · exact .ite trivial (Kept.updCore (.ite hs.badPteRec hs.absentRec))
  · refine .ite (.ite trivial hs.updCore) (.ite trivial ?_)
    split
    · exact hs.landPa
    · exact hs.refuseLines

theorem Kept.execPacketLand (hs : Kept false s₀ s) : Keeps s₀ (execPacketLand c cmd i s) := by
  unfold Machine.execPacketLand
  dsimp only
  split
  · split
    · trivial
    · refine .ite trivial ?_
      split
      · trivial
      · exact hs.focus.onCore
      · next e => exact (hs.focus.writeDst.of_late e).onCore
      · next e => exact (hs.focus.writeDst.of_done e).onCore
  · trivial

theorem Kept.startSignal (hs : Kept false s₀ s) (e : s.startSignal c st q = .ok t) : Kept false s₀ t := by
  have kept : match s.startSignal c st q with | .ok t => Kept false s₀ t | .error _ => True := by
    unfold State.startSignal
    dsimp only
    split
    · next h =>
      split at h
      · cases h
        exact hs
      · split at h
        · cases h
        · cases h
          exact hs.frameNext
        · split at h
          · cases h
          · cases h
            exact hs.absentRec.updCore
        · cases h
        · cases h
    · trivial
  rw [e] at kept
  exact kept

theorem Kept.ite_fst {x y : State × α} {p : Prop} [Decidable p] (hx : Kept false s₀ x.1) (hy : Kept false s₀ y.1) :
    Kept false s₀ (if p then x else y).1 := by
  split
  · exact hx
  · exact hy

theorem Kept.startCopy_fst (hs : Kept false s₀ s) : Kept false s₀ (s.startCopy c st q).1 := by
  unfold State.startCopy
  dsimp only
  split
  · exact hs
  · refine .ite_fst ?_ (.ite_fst ?_ hs)
    · split
      · next e => exact hs.startSignal e
      · exact hs
    · split
      · exact hs
      · refine .ite_fst ?_ (.ite_fst hs (.ite_fst hs hs))
        dsimp only
        exact hs.refusal

theorem Kept.startBank_fst (hs : Kept false s₀ s) : Kept false s₀ (s.startBank c st e).1 := by
  unfold State.startBank
  dsimp only
  split
  · split
    · dsimp only
      exact hs.refusal
    · split
      · exact hs
      · split
        · exact hs
        · split
          · exact hs.violog
          · dsimp only
            exact hs.updDie
  · dsimp only
    exact hs.refusal

theorem Kept.startBind_fst (hs : Kept false s₀ s) : Kept false s₀ (s.startBind c st q).1 := by
  unfold State.startBind
  dsimp only
  split
  · exact hs
  · exact .ite_fst hs (.ite_fst hs hs.setDie)

theorem Kept.startRel_fst (hs : Kept false s₀ s) : Kept false s₀ (s.startRel c st q).1 := by
  unfold State.startRel
  dsimp only
  split
  · exact hs
  · exact .ite_fst hs (.ite_fst hs hs.setDie)

theorem Kept.readPages (hs : Kept false s₀ s) : KeptReach s₀ (s.readPages c ctx fuel va n) := by
  induction fuel generalizing va n with
  | zero => trivial
  | succ fuel ih =>
    rw [State.readPages]
    split
    · refine .ite trivial ?_
      split
      · trivial
      · exact ih
    · exact hs.readVa

theorem Kept.startPergola_fst (hs : Kept false s₀ s) : Kept false s₀ (s.startPergola c st q).1 := by
  unfold State.startPergola
  dsimp only
  split
  · exact hs
  · refine .ite_fst hs ?_
    split
    · refine .ite_fst hs (.ite_fst hs ?_)
      split
      · split
        · exact hs
        · exact hs.setDie
      · exact hs.absentRec
      · exact hs
      · exact hs
      · next e => exact hs.readPages.of_late e
    · exact .ite_fst hs hs.setDie
    · exact hs.setDie

theorem Kept.startGrant_fst (hs : Kept false s₀ s) : Kept false s₀ (s.startGrant c st e).1 := by
  unfold State.startGrant
  dsimp only
  split
  · exact hs
  · split
    · exact hs
    · split
      · exact hs
      · exact hs.setDie.frame

theorem Kept.flushLines (hs : Kept false s₀ s) : Kept false s₀ (s.flushLines ctx a n) := by
  unfold State.flushLines
  dsimp only
  refine Kept.foldl hs fun _ _ ht => ?_
  split
  · split
    · exact ht
    · refine Kept.foldl ht fun _ _ ht' => ?_
      split
      · next t'' e'' => exact (ht'.execDramWriteback.of_next e'')
      · exact ht'
  · exact ht

theorem Kept.startFlush_fst (hs : Kept false s₀ s) : Kept false s₀ (s.startFlush e).1 := by
  unfold State.startFlush
  dsimp only
  split
  · exact hs
  · split
    · exact hs
    · exact hs

theorem Kept.flushRun {id : CoreId} (hs : Kept false s₀ s) : Keeps s₀ (flushRun id cmd s) := by
  unfold Machine.flushRun
  dsimp only
  split
  · exact .ite trivial hs.focus.flushLines.onCore
  · trivial

theorem Kept.pgloadRun {id : CoreId} (hs : Kept false s₀ s) : Keeps s₀ (pgloadRun id cmd s) := by
  unfold Machine.pgloadRun
  dsimp only
  split
  · exact .ite trivial (Keeps.ite trivial hs.focus.startPergola_fst.onCore)
  · trivial

theorem Kept.startEntry_fst (hs : Kept false s₀ s) : Kept false s₀ (s.startEntry c st e).1 := by
  unfold State.startEntry
  split
  · exact hs.startBank_fst
  · exact hs.startBind_fst
  · exact hs.startRel_fst
  · exact hs.startPergola_fst
  · exact hs.startPergola_fst
  · exact hs.startPergola_fst
  · exact hs.startGrant_fst
  · exact hs.startFlush_fst
  · exact hs.startFlush_fst
  · exact hs.startCopy_fst

theorem Kept.execCeCommandStart {id : CoreId} (hs : Kept false s₀ s) : Keeps s₀ (execCeCommandStart id s) := by
  unfold Machine.execCeCommandStart
  dsimp only
  split
  · exact .ite trivial (Keeps.ite trivial hs.focus.startEntry_fst.onCore)
  · trivial

theorem Kept.execCeCommandComplete (hs : Kept false s₀ s) : Keeps s₀ (execCeCommandComplete c cmd s) := by
  unfold Machine.execCeCommandComplete
  dsimp only
  split
  · refine .ite trivial (.ite hs.focus.wallNow.onCore.frame.onCore.asyncTrap ?_)
    have counted : ∀ (p q : Prop) (_ : Decidable p) (_ : Decidable q) f g h, Kept false s₀
      (if p then ((s.focus c).wallNow.onCore f).onCore g
        else if q then ((s.focus c).wallNow.onCore f).onCore h else (s.focus c).wallNow.onCore f) := fun _ _ _ _ _ _ _ =>
      .ite hs.focus.wallNow.onCore.onCore (.ite hs.focus.wallNow.onCore.onCore hs.focus.wallNow.onCore)
    refine .ite ?_ (counted _ _ _ _ _ _ _)
    split
    · exact (counted _ _ _ _ _ _ _).frameNext
    · exact counted _ _ _ _ _ _ _
  · trivial

theorem Kept.execCpysigSignal (hs : Kept false s₀ s) : Keeps s₀ (execCpysigSignal n s) := by
  unfold Machine.execCpysigSignal
  split
  · split
    · refine .ite trivial (Kept.pump (Kept.frame (hs.sendsAlone ?_ ?_)))
      · rfl
      · rfl
    · trivial
  · trivial

theorem Kept.endpointCount (hs : Kept false s₀ s) : Kept false s₀ (s.endpointCount d a) := by
  unfold State.endpointCount
  split
  · exact hs
  · split
    · exact hs.updCore
    · exact hs.updDie

theorem Kept.execPsendDelivery (hs : Kept false s₀ s) : Keeps s₀ (execPsendDelivery n s) := by
  unfold Machine.execPsendDelivery
  split
  · trivial
  · split
    · dsimp only
      split
      · trivial
      · next u e =>
        have hu : Kept false s₀ u := by
          refine KeptSome.of_some ?_ e
          split
          · trivial
          · exact hs.directWrite
        exact hu.putLines.updDie.frame.endpointCount
    · trivial

theorem Kept.execPermitArrive (hs : Kept false s₀ s) : Keeps s₀ (execPermitArrive d ch s) :=
  .ite trivial hs.frame.setReg

/-! ## Line ports and PCIe -/

theorem Kept.writeSlots (hs : Kept false s₀ s) : Kept false s₀ (s.writeSlots d p w fuel i l) := by
  induction fuel generalizing s i l with
  | zero => exact hs
  | succ fuel ih =>
    rw [State.writeSlots]
    exact .ite hs (ih (hs.directWrites.getD hs).putLines)

theorem Kept.landSlots (hs : Kept false s₀ s) : Kept false s₀ (s.landSlots d p m seq l) :=
  hs.writeSlots.updDie.endpointCount

theorem Kept.landFrame (hs : Kept false s₀ s) : Kept false s₀ (s.landFrame d p q pg pay) := by
  unfold State.landFrame
  dsimp only
  split
  · have landed : ∀ g : Prop, ∀ _ : Decidable g, ∀ n l f, Kept false s₀ (if g then (s.landSlots d p 1 n l).updDie d f else s) :=
      fun _ _ _ _ _ => .ite hs.landSlots.updDie hs
    exact .ite (landed _ _ _ _ _).landSlots.updDie (landed _ _ _ _ _).landSlots
  · refine .ite hs.updDie ?_
    split
    · exact hs.updDie
    · exact .ite hs.updDie (.ite hs.writeSlots.updDie.updDie hs.writeSlots.updDie)

theorem Kept.passFrame {frame : List Byte} (hs : Kept false s₀ s) : Kept false s₀ (s.passFrame d p frame) :=
  hs.landFrame

theorem Kept.execLineFrame {frame : List Byte} (hs : Kept false s₀ s) : Keeps s₀ (execLineFrame d p frame s) :=
  .ite trivial (Keeps.ite hs (Keeps.ite hs.updDie (Keeps.ite hs.updDie hs.passFrame)))

theorem Kept.heldFrame (hs : Kept false s₀ s) : Keeps s₀ (heldFrame d p s) := by
  unfold Machine.heldFrame
  split
  · trivial
  · split
    · trivial
    · exact .ite trivial hs.updDie.passFrame

theorem Kept.execControlFrame (hs : Kept false s₀ s) : Keeps s₀ (execControlFrame d p s) :=
  .ite trivial hs.frame

theorem Kept.execPlateSwitch (hs : Kept false s₀ s) : Keeps s₀ (execPlateSwitch d p s) := by
  unfold Machine.execPlateSwitch
  dsimp only
  split
  · trivial
  · split
    · trivial
    · exact hs.updDie.updCore

theorem Kept.dmaPerform (hs : Kept false s₀ s) : KeptSome false s₀ (s.dmaPerform r) := by
  unfold State.dmaPerform
  dsimp only
  split
  · trivial
  · split
    · change Kept _ _ _
      exact .ite (hs.foldl fun _ _ ht => ht.refusal) ((hs.foldl fun _ _ ht => ht.refusal).frame)
    · split
      · exact KeptSome.map hs.directWrites fun _ ht => ht.putLines
      · split
        · trivial
        · next t e =>
            exact .ite (((hs.directReads.of_some e).foldl fun _ _ ht'' => ht''.refusal).frame)
              (((hs.directReads.of_some e).foldl fun _ _ ht'' => ht''.exitRec).frame)

theorem Kept.dmaAccess (hs : Kept false s₀ s) : Kept false s₀ (s.dmaAccess r) :=
  KeptSome.getD hs.dmaPerform hs.frame

theorem Kept.execPcieDmaWrite (hs : Kept false s₀ s) : Keeps s₀ (execPcieDmaWrite d pa data s) :=
  .ite trivial hs.dmaAccess

theorem Kept.execPcieDmaRead (hs : Kept false s₀ s) : Keeps s₀ (execPcieDmaRead d pa len s) :=
  .ite trivial hs.dmaAccess

theorem Kept.heldDma (hs : Kept false s₀ s) : Keeps s₀ (heldDma s) := by
  unfold Machine.heldDma
  dsimp only
  split
  · trivial
  · split
    · exact hs.frame
    · split
      · next t e => exact (hs.frame.dmaPerform.of_some e)
      · trivial

theorem Kept.dramFault (hs : Kept false s₀ s) : Keeps s₀ (dramFault s) := by
  unfold Machine.dramFault
  dsimp only
  split
  · trivial
  · exact hs.frame

/-! ## The matrix unit -/

theorem Kept.rtSeen {id : CoreId} (hs : Kept false s₀ s) : Kept false s₀ (s.rtSeen id) :=
  .ite hs.nspSeen hs.frame

theorem Kept.injReads {id : CoreId} (hs : Kept false s₀ s) : Kept false s₀ (s.injReads id offs) :=
  .ite hs.inject hs

theorem Kept.foldl_mm {l : List α} {f : MmSt → α → MmSt} {m : MmSt} (hm :
    Kept false s₀ m.s) (hf : ∀ m x, Kept false s₀ m.s → Kept false s₀ (f m x).s) :
    Kept false s₀ (l.foldl f m).s :=
  List.foldlRecOn (motive := fun m : MmSt => Kept false s₀ m.s) _ _ hm fun m h x _ => hf m x h

theorem Kept.mmBlock {m : MmSt} {sA : Nat → Nat} (hm : Kept false s₀ m.s) :
    Kept false s₀ (mmBlock c p float skip rows tiles sA m).s := by
  refine .foldl_mm ?_ fun m x h => ?_
  · dsimp only
    exact .ite hm.updCore.inject hm.updCore
  · exact h.routineEntry

theorem Kept.runMm (hs : Kept false s₀ s) : Kept false s₀ (runMm s c r e n).s :=
  .foldl_mm hs fun _ _ h => Kept.mmBlock h.injReads

theorem Kept.drainAll {l : List DrainWr} {o : RtOut} (ho : Kept false s₀ o.s) : Kept false s₀ (drainAll c l o).s := by
  induction l generalizing o with
  | nil => exact ho
  | cons w r ih =>
    rw [Machine.drainAll]
    split
    · exact ho
    · exact ih ho.nspWrite

theorem Kept.runScaleRow (hs : Kept false s₀ s) : Kept false s₀ (runScaleRow s c e).s :=
  Kept.foldl_fst (x := (s.injReads c _, 0, [])) hs.injReads fun _ _ h => h.routineEntry

theorem Kept.wbLoadFrom (hs : Kept false s₀ s) : Kept false s₀ (wbLoadFrom c p n t src s).s := by
  induction n generalizing s t src with
  | zero => exact hs
  | succ n ih =>
    rw [Machine.wbLoadFrom]
    dsimp only
    split
    · exact hs
    · split
      · exact hs
      · split
        · exact hs
        · split
          · exact hs
          · split
            · exact hs
            · exact ih hs.injReads.updCore

theorem Kept.runRoutine (hs : Kept false s₀ s) : Kept false s₀ (runRoutine s c r e).s := by
  unfold Machine.runRoutine
  dsimp only
  split
  · exact hs.runMm
  · split
    · exact hs.foldl fun _ _ h => h.routineEntry
    · exact Kept.drainAll hs
    · exact Kept.drainAll hs
    · exact Kept.drainAll hs
    · exact Kept.drainAll hs
    · exact Kept.drainAll hs
    · exact hs.wbLoadFrom
    · exact hs.nspWrite
    · exact hs.nspWrite
    · exact hs.runScaleRow
    · exact hs

theorem Kept.doRoutine (hs : Kept false s₀ s) : Keeps s₀ (doRoutine name r c s) := by
  unfold Machine.doRoutine
  dsimp only
  split
  · trivial
  · exact hs.focus.updCore.rtSeen.runRoutine.updCore

theorem Kept.mldAbsent (hs : Kept false s₀ s) : Kept false s₀ (s.mldAbsent c st va) :=
  hs.badPteRec.faultRec

theorem Kept.execXmEntryStart {id : CoreId} (hs : Kept false s₀ s) : Keeps s₀ (execXmEntryStart id s) := by
  unfold Machine.execXmEntryStart
  dsimp only
  split
  · split
    · trivial
    · split
      · exact .ite trivial hs.focus.onCore.onCore
      · exact .ite hs.focus.onCore.onCore hs.focus.onCore.onCore
      · exact .ite hs.focus.onCore.onCore hs.focus.onCore.onCore
      · split
        · exact hs.focus.onCore.mldAbsent.onCore
        · exact hs.focus.onCore.onCore
      · exact hs.focus.onCore.wallNow.onCore
  · trivial

theorem Kept.xmTraps {id : CoreId} (hs : Kept false s₀ s) : Kept false s₀ (s.xmTraps id r) :=
  .ite ((Kept.ite ((Kept.ite hs.updCore.asyncTrap hs.updCore).asyncTrap) (Kept.ite hs.updCore.asyncTrap hs.updCore)).asyncTrap)
    (Kept.ite ((Kept.ite hs.updCore.asyncTrap hs.updCore).asyncTrap) (Kept.ite hs.updCore.asyncTrap hs.updCore))

theorem Kept.execRoutineComplete {id : CoreId} (hs : Kept false s₀ s) : Keeps s₀ (execRoutineComplete id s) := by
  unfold Machine.execRoutineComplete
  dsimp only
  split
  · split
    · exact .ite hs.focus.wallNow.onCore.xmTraps trivial
    · split
      · trivial
      · split
        · exact hs.focus.wallNow.onCore.xmTraps
        · trivial
        · exact hs.focus.mldAbsent.onCore
        · exact hs.focus.frameNext.wallNow.onCore.xmTraps
    · split
      · split
        · exact hs.focus.onCore.wallNow.onCore.xmTraps
        · exact hs.focus.frame.wallNow.onCore.xmTraps
      · exact hs.focus.wallNow.onCore.xmTraps
  · trivial

theorem Kept.execTileCompletionCheck {id : CoreId} (hs : Kept false s₀ s) : Keeps s₀ (execTileCompletionCheck id s) := by
  unfold Machine.execTileCompletionCheck
  dsimp only
  split
  · trivial
  · change Kept _ _ _
    exact .ite hs.focus.onCore hs.focus.onCore.frame

theorem Kept.execRoutineInstall {id : ℕ} (hs : Kept false s₀ s) : Keeps s₀ (execRoutineInstall id s) := by
  unfold Machine.execRoutineInstall
  split
  · split
    · exact hs.frame.updDie
    · trivial
  · trivial

/-! ## Save area, detector and resume -/

theorem Kept.partialRoutine (hs : Kept false s₀ s) : Kept false s₀ (s.partialRoutine n) := by
  unfold State.partialRoutine
  split
  · split
    · exact .ite hs.runMm hs
    · exact hs
  · exact hs

theorem Kept.stopWith (hs : Kept false s₀ s) : Kept false s₀ (s.stopWith t g) := by
  unfold State.stopWith
  split
  · exact .ite (hs.foldl fun _ _ ht => ht.askStop) hs.askStop
  · exact hs

theorem Kept.retireCore (hs : Kept false s₀ s) : Kept false s₀ (s.retireCore st num) := by
  unfold State.retireCore
  dsimp only
  refine Kept.stopWith (Kept.faultRec (Kept.frame (Kept.updDie ?_)))
  split
  · next e =>
    refine Kept.onCore ?_
    split at e
    · next f =>
      cases e
      exact hs.reserveSlots.of_some f
    · exact hs.takeSlots.of_some e
  · exact hs.endTask

theorem Kept.execDetectorEvent {id : CoreId} (hs : Kept false s₀ s) : Keeps s₀ (execDetectorEvent id num blocks s) := by
  unfold Machine.execDetectorEvent
  dsimp only
  split
  · trivial
  · exact .ite trivial
      (Keeps.ite hs.focus.wallNow.onCore.endTask (Keeps.ite hs.focus.wallNow.onCore.partialRoutine.discard.retireCore
        hs.focus.wallNow.onCore.partialRoutine.discard.onCore))

theorem Kept.partialStop (hs : Kept false s₀ s) : Kept false s₀ s.partialStop := by
  unfold State.partialStop
  split
  · exact hs.draw_snd.partialRoutine
  · exact hs

theorem Kept.execStopDeadline {id : CoreId} (hs : Kept false s₀ s) : Keeps s₀ (execStopDeadline id s) := by
  unfold Machine.execStopDeadline
  dsimp only
  split
  · trivial
  · split
    · trivial
    · next t e => exact ((((hs.focus.reserveSlots.of_some e).wallNow).partialStop).discard).onCore

theorem Kept.slotRecs {id : CoreId} (hs : Kept false s₀ s) : Kept false s₀ (s.slotRecs id ctx n l) :=
  hs.foldl fun _ _ ht => ht.refusal

theorem memKeep_wf {m old : List Host.Cell} (w : Memory.wf m = true) (v : Memory.wf old = true) (a n : Nat) :
    Memory.wf (memKeep m old a n) = true := by
  unfold memKeep
  rw [List.append_assoc]
  refine append_wfFrom (mid := a) (filter_wfFrom w _) (append_wfFrom (mid := a + n) ?_ (filter_wfFrom_ge w _) ?_ (by omega)) ?_
    (Nat.zero_le a)
  · have above := filter_wfFrom (filter_wfFrom_ge v a) fun c => decide (c.1 < a + n)
    rw [List.filter_filter] at above
    simpa only [Bool.and_comm] using above
  · intro c hc
    have inside := (List.mem_filter.1 hc).2
    simp only [Bool.and_eq_true, decide_eq_true_eq] at inside
    exact inside.2
  · intro c hc
    simpa using (List.mem_filter.1 hc).2

theorem foldl_wf {l : List α} {f : List Host.Cell → α → List Host.Cell} {m : List Host.Cell} (w : Memory.wf m = true)
    (hf : ∀ m x, Memory.wf m = true → Memory.wf (f m x) = true) : Memory.wf (l.foldl f m) = true :=
  List.foldlRecOn (motive := fun m => Memory.wf m = true) _ _ w fun m h x _ => hf m x h

theorem Kept.slotMem (hs :
    Kept false s₀ s) (hm : Memory.wf s.mem = true → Memory.wf m = true) : Kept false s₀ (s.slotMem b bad m) := by
  have keep : ∀ o m, Memory.wf m = true → Memory.wf s.mem = true →
      Memory.wf (bad.foldl (fun m a => memKeep m s.mem (a - b + o) 0x8000) m) = true :=
    fun o m w h => foldl_wf w fun m x w => memKeep_wf w h _ _
  unfold State.slotMem
  dsimp only
  split
  · split
    · split
      · exact Kept.frame (s := { s with mem := _ }) (hs.writes fun h => keep _ _ (hm h) h)
      · exact Kept.frame (s := { s with mem := _ }) (hs.writes fun h => keep _ _ (memMove_wf (keep _ _ (hm h) h) _ _ _) h)
    · exact Kept.frame (s := { s with mem := _ }) (hs.writes fun h => keep _ _ (hm h) h)
  · exact Kept.frame (s := { s with mem := _ }) (hs.writes fun h => keep _ _ (hm h) h)

theorem Kept.putAt (hs : Kept false s₀ s) : Kept false s₀ (s.putAt b l) :=
  hs.writes fun h => foldl_wf h fun _ _ w => memPut_wf w _ _ _

theorem Kept.execSaveAreaWrite (hs : Kept false s₀ s) : Keeps s₀ (execSaveAreaWrite c s) := by
  have saved : ∀ (b : Nat) (bad : List Nat) (l : List (Nat × Nat × Nat)) (wb : List Host.Cell) (x y z : Nat) t, Kept false s₀ t →
      Kept false s₀
        (t.slotMem b bad (wb.foldl (fun m x => memSet m (x.1 + b + 0x560000) x.2) (memZero (memMove (memMove (t.putAt b l).mem
        (nspBase c) x y) (accBase c) z (b + 0x420000)) (b + 0x560000) 0x100000))) := fun b bad l wb x y z t ht =>
    ht.slotMem fun h => foldl_wf (memZero_wf (memMove_wf (memMove_wf (foldl_wf h fun _ _ w => memPut_wf w _ _ _) _ _ _) _ _ _)
      _ _)
      fun _ _ w => memSet_wf w (Nat.zero_le _) _
  unfold Machine.execSaveAreaWrite
  dsimp only
  split
  · split
    · trivial
    · refine .ite trivial ?_
      split
      · exact (saved _ _ _ _ _ _ _ _ hs.focus.slotRecs.draw_snd).frame.updTask.updDie
      · exact (saved _ _ _ _ _ _ _ _ hs.focus.slotRecs.draw_snd).frame.updTask
  · trivial

theorem Kept.resign {id : CoreId} (hs : Kept false s₀ s) : Kept false s₀ (s.resign id) := by
  unfold State.resign
  dsimp only
  exact hs.updCore

theorem Kept.execStrandLoad (hs : Kept false s₀ s) : Keeps s₀ (execStrandLoad c t g l s) := by
  have zeroed : ∀ x y z w, Kept false s₀ { s with mem := memZero (memZero s.mem x y) z w } :=
    fun _ _ _ _ => hs.writes fun h => memZero_wf (memZero_wf h _ _) _ _
  unfold Machine.execStrandLoad
  split
  · trivial
  · exact .ite trivial (Kept.updTask (Kept.beginInst (Kept.focus (Kept.resign (Kept.setCore (.ite (zeroed _ _ _ _) hs))))))

theorem Kept.execStrandResume (hs : Kept false s₀ s) : Keeps s₀ (execStrandResume c t g l s) := by
  unfold Machine.execStrandResume
  split
  · split
    · trivial
    · refine .ite trivial ?_
      dsimp only
      refine Kept.pump (Kept.updTask (.ite (Kept.onCore (Kept.onCore (Kept.beginInst (Kept.focus (Kept.resign (Kept.setCore
        (Kept.slotRecs (Kept.setDie ?restored)))))))) (Kept.onCore (Kept.beginInst (Kept.focus (Kept.resign (Kept.setCore
        (Kept.slotRecs (Kept.setDie ?restored)))))))))
      refine hs.writes fun h => foldl_wf (memMove_wf (memMove_wf (foldl_wf h fun _ _ w => memZero_wf w _ _) _ _ _) _ _ _)
        fun _ _ w => memKeep_wf w h _ _
  · trivial

/-! ## Routine images -/

theorem Kept.luHold {r : Leaf → Bool} {read : Bool} (hs : Kept false s₀ s) : KeptSome false s₀ (s.luHold d ctx va r read) := by
  unfold State.luHold
  split
  · exact hs.directReads
  · exact .ite trivial hs.directReads

theorem Kept.luRec (hs : Kept false s₀ s) : Kept false s₀ (s.luRec d ctx va what cause) :=
  hs.badPteRec.faultRec

/-! ## Launch queues -/

theorem Kept.accept (hs : Kept false s₀ s) : Kept false s₀ (s.accept d q p) := by
  unfold State.accept
  dsimp only
  split
  · exact hs.updDie.qfault
  · exact hs.updDie.now.frameNext

theorem Kept.execQtailWrite (hs : Kept false s₀ s) : Keeps s₀ (execQtailWrite d q v s) :=
  .ite hs (Keeps.ite hs.qrefuse (Keeps.ite hs.qrefuse hs.setQreg))

theorem Kept.packetHold (hs : Kept false s₀ s) : KeptSome false s₀ (s.packetHold d pa) :=
  .ite trivial hs.directReads

theorem Kept.execRingSlotRead (hs : Kept false s₀ s) : Keeps s₀ (execRingSlotRead d q s) := by
  unfold Machine.execRingSlotRead
  split
  · trivial
  · next u e =>
    have hu : Kept false s₀ u := by
      refine KeptSome.of_some ?_ e
      split
      · exact hs.packetHold
      · trivial
    exact Kept.accept (Kept.setQreg (.ite hu.faultRec hu))

theorem Kept.arrivePacket (hs : Kept false s₀ s) : Kept false s₀ (s.arrivePacket d q ctx p) :=
  .ite hs.updDie.qfault (Kept.ite hs.updDie.qfault (Kept.ite hs.qrefuse (Kept.ite (Kept.ite hs.qrefuse hs.updDie) hs.accept)))

theorem Kept.execLaunchPacketArrive (hs : Kept false s₀ s) : Keeps s₀ (execLaunchPacketArrive n s) := by
  refine hs.keeps ?_
  replace hs := Kept.refl (up := false) s
  unfold Machine.execLaunchPacketArrive
  split
  · trivial
  · next a e =>
    have ha := Awaits.of_find e
    split
    · trivial
    · next u e =>
      have hu : Kept false s u := by
        refine KeptSome.of_some ?_ e
        split
        · exact hs.packetHold
        · trivial
      split
      · refine hu.checkWhole ha ?_
        split
        · exact hu.sealRec.failAccess ha
        · exact hu.arrivePacket.performedAccess
      · trivial

theorem Kept.execWaitingPacketAccept (hs : Kept false s₀ s) : Keeps s₀ (execWaitingPacketAccept d q s) := by
  unfold Machine.execWaitingPacketAccept
  split
  · exact .ite hs.updDie.accept trivial
  · trivial

theorem Kept.slip (hs : Kept false s₀ s) : Kept false s₀ (s.slip d q cause reason seq overrun ctx ref) :=
  hs.now.ringPut

theorem Kept.orderBad_fst (hs : Kept false s₀ s) : Kept false s₀ (s.orderBad d ctx va n e last).1 := by
  induction n generalizing s e last with
  | zero => exact hs
  | succ n ih =>
    rw [State.orderBad]
    split
    · exact ih hs.luRec
    · exact .ite_fst hs (ih hs)

/-- The state that a read of a timetable leaves, where it fails and where it does not. -/
theorem Kept.readTt (hs : Kept false s₀ s) : Kept false s₀ (match s.readTt d q va with | .error t => t | .ok p => p.1) := by
  unfold State.readTt
  dsimp only
  split
  · next e =>
    split at e
    · cases e
      exact hs.luRec.qfault
    · split at e
      · cases e
        exact hs.qfault
      · split at e
        · next e' =>
          cases e
          exact (hs.orderBad_fst.of_fst e').qfault
        · cases e
  · next e =>
    split at e
    · cases e
    · split at e
      · cases e
      · split at e
        · cases e
        · next e' =>
          cases e
          exact hs.orderBad_fst.of_fst e'

theorem Kept.readTt_error (hs : Kept false s₀ s) (e : s.readTt d q va = .error t) : Kept false s₀ t := by
  have kept := hs.readTt (d := d) (q := q) (va := va)
  rw [e] at kept
  exact kept

theorem Kept.readTt_ok (hs : Kept false s₀ s) (e : s.readTt d q va = .ok (t, h)) : Kept false s₀ t := by
  have kept := hs.readTt (d := d) (q := q) (va := va)
  rw [e] at kept
  exact kept

theorem Kept.bindTt (hs : Kept false s₀ s) : Kept false s₀ (s.bindTt d q va) := by
  unfold State.bindTt
  split
  · next e => exact (hs.readTt_error e).updDie.setQreg
  · next e => exact .ite (hs.readTt_ok e).now.setQreg.updDie.slip (hs.readTt_ok e).now.setQreg.updDie

theorem Kept.execQttWrite (hs : Kept false s₀ s) : Keeps s₀ (execQttWrite d q v app s) := by
  unfold Machine.execQttWrite
  dsimp only
  refine Kept.byApp hs ?_
  split
  · exact hs
  · split
    · exact hs.setQreg.updDie
    · exact .ite hs.setQreg.bindTt hs.setQreg

theorem Kept.execTimetableUnbind (hs : Kept false s₀ s) : Keeps s₀ (execTimetableUnbind d q s) := by
  unfold Machine.execTimetableUnbind
  dsimp only
  split
  · exact .ite trivial (Keeps.ite hs.updDie.setQreg (Keeps.ite hs.updDie.bindTt hs.updDie.setQreg))
  · trivial

theorem Kept.readEntries (hs : Kept false s₀ s) : Kept false s₀ (s.readEntries d q t n e) := by
  induction n generalizing s e with
  | zero => exact hs
  | succ n ih =>
    rw [State.readEntries]
    refine ih ?_
    split
    · exact hs.luRec.qfault
    · dsimp only
      split
      · exact hs.qfault
      · exact hs.frame

theorem Kept.execFrameStart (hs : Kept false s₀ s) : Keeps s₀ (execFrameStart d q s) := by
  unfold Machine.execFrameStart
  dsimp only
  split
  · exact .ite trivial hs.readEntries.updDie
  · trivial

theorem Kept.execDegradedSwitch (hs : Kept false s₀ s) : Keeps s₀ (execDegradedSwitch d q s) := by
  unfold Machine.execDegradedSwitch
  split
  · refine .ite trivial ?_
    dsimp only
    split
    · next e => exact (hs.faultRec.readTt_error e).updDie.setQreg
    · next e => exact (hs.faultRec.readTt_ok e).setQreg.updDie
  · trivial

theorem Kept.setQcfg (hs : Kept false s₀ s) : Kept false s₀ (s.setQcfg d q v) :=
  .ite hs.setQreg.dropWaiting.notSince (.ite (.ite hs.setQreg.updDie.bindTt hs.setQreg.updDie) hs.setQreg)

theorem Kept.execQcfgWrite (hs : Kept false s₀ s) : Keeps s₀ (execQcfgWrite d q v app s) :=
  hs.byApp (Keeps.ite hs (Keeps.ite hs.accViol (Keeps.ite ((Kept.ite hs.accViol hs).setQcfg) hs.setQcfg)))

theorem Kept.execQtraceWrite (hs : Kept false s₀ s) : Keeps s₀ (execQtraceWrite d q v app s) :=
  hs.byApp (Keeps.ite hs (Keeps.ite hs.accViol hs.setQreg))

theorem Kept.execQfaultRead (hs : Kept false s₀ s) : Keeps s₀ (execQfaultRead d q s) :=
  .ite hs hs.setQreg.frame

/-! ## Signatures and layouts -/

theorem Kept.findImage (hs : Kept false s₀ s) : Kept false s₀ (s.findImage d t) := by
  unfold State.findImage
  dsimp only
  split
  · exact hs.endTask
  · exact hs.luRec.endTask
  · split
    · exact (Kept.ite hs.updDie hs).endTask
    · split
      · exact (Kept.ite hs.updDie hs).endTask
      · split
        · exact (Kept.ite hs.updDie hs).endTask
        · exact (Kept.ite hs.updDie hs).updTask

theorem Kept.findLayout (hs : Kept false s₀ s) : Kept false s₀ (s.findLayout t im) := by
  unfold State.findLayout
  dsimp only
  split
  · exact hs.updTask
  · exact hs.endTask

theorem Kept.consider_fst (hs : Kept false s₀ s) : Kept false s₀ (s.consider d t).1 := by
  have found : ∀ o : Option Task,
      Kept false s₀ (match o with | some t => if s.imageStands d t then s else s.findImage d t | none => s) := fun o => by
    split
    · exact .ite hs hs.findImage
    · exact hs
  unfold State.consider
  dsimp only
  split
  · exact found _
  · split
    · exact (found _).updTask
    · refine .ite_fst (found _).updTask ?_
      split
      · split
        · exact .ite (found _).updTask (found _).updTask.findLayout
        · exact (found _).updTask.findLayout
      · split
        · exact .ite (found _).updTask (found _).updTask.findLayout
        · exact (found _).updTask.findLayout

theorem Kept.execSignatureCheck (hs : Kept false s₀ s) : Keeps s₀ (execSignatureCheck tid s) := by
  unfold Machine.execSignatureCheck
  dsimp only
  split
  · trivial
  · split
    · trivial
    · split
      · trivial
      · split
        · trivial
        · split
          · exact .ite hs.updTask.updDie hs.badPteRec.endTask
          · exact .ite hs.updTask.updDie hs.endTask

/-! ## Admission and retirement -/

theorem Kept.sampleHold (hs : Kept false s₀ s) : KeptSome false s₀ (s.sampleHold t i) := by
  unfold State.sampleHold
  split
  · exact hs
  · exact hs.luHold

theorem Kept.sampleTask (hs : Kept false s₀ s) : Kept false s₀ (s.sampleTask t) := by
  unfold State.sampleTask
  dsimp only
  split
  · split
    · exact hs.luRec.endTask
    · exact hs
  · split
    · exact hs.luRec.endTask
    · exact hs
  · split
    · exact hs
    · exact (Kept.ite (hs.foldl fun _ _ ht => KeptSome.getD ht.sampleHold ht)
        ((hs.foldl fun _ _ ht => KeptSome.getD ht.sampleHold ht).notSince)).updTask

theorem Kept.execTaskRelease (hs : Kept false s₀ s) : Keeps s₀ (execTaskRelease tid s) := by
  unfold Machine.execTaskRelease
  split
  · exact .ite trivial hs.updTask.sampleTask
  · trivial

theorem Kept.execCounterWatch (hs : Kept false s₀ s) : Keeps s₀ (execCounterWatch d s) := by
  unfold Machine.execCounterWatch
  split
  · trivial
  · exact .ite (hs.foldl fun _ _ ht => ht.sampleTask) trivial

theorem Kept.execCounterPoll (hs : Kept false s₀ s) : Keeps s₀ (execCounterPoll d s) := by
  unfold Machine.execCounterPoll
  split
  · trivial
  · exact .ite (hs.foldl fun _ _ ht => ht.sampleTask) trivial

theorem Kept.skipTrace (hs : Kept false s₀ s) : Kept false s₀ (s.skipTrace d q n) := by
  induction n generalizing s with
  | zero => exact hs
  | succ n ih =>
    rw [State.skipTrace]
    exact .ite (ih hs.updTask.setQreg) hs

theorem Kept.traceAdmit (hs : Kept false s₀ s) : Kept false s₀ (s.traceAdmit d q seq g) :=
  .ite hs (Kept.ite (Kept.ite hs.wrRec.wrRec.setQreg.qfault hs.wrRec.wrRec.setQreg) (Kept.ite hs.setQreg hs))

theorem Kept.cleanReserve (hs : Kept false s₀ s) : Kept false s₀ (s.cleanReserve d) := by
  unfold State.cleanReserve
  dsimp only
  exact hs.updDie

theorem Kept.takeReserve (hs : Kept false s₀ s) : Kept false s₀ (s.takeReserve d t g) :=
  .ite hs (Kept.ite hs hs.updDie)

theorem Kept.admitTick (hs : Kept false s₀ s) : Kept false s₀ (s.admitTick t g cores) := by
  have told := (hs.now.updTask (t := t) (f := fun t =>
    { t.updGang g fun x => { x with state := .running, cores := cores, loaded := [], started := false, since := none, layout :=
      t.layout } with
      admitted := true, admitTick := if t.admitted then t.admitTick else s.now.frame.toNat, asks := none
      yielding := if t.yielding = some g then none else t.yielding }).changesDies (f := fun d =>
    { d with reserve := d.reserve.filter fun r => !(r.2.1 == t && r.2.2.1 == g)
             held := d.held.filter fun r => !(r.2.1 == t && r.2.2 == g) }) fun _ => rfl).foldl
      (l := (cores.map (·.die)).eraseDups) fun _ d h => h.tellAll (i := homeOf t) (j := d)
  unfold State.admitTick
  refine Kept.traceAdmit ?_
  split
  · exact .ite told.updDie told
  · exact told

theorem Kept.tryAdmit (hs : Kept false s₀ s) : Kept false s₀ (s.tryAdmit d t g) := by
  unfold State.tryAdmit
  split
  · exact hs
  · refine .ite hs ?_
    dsimp only
    split
    · exact hs.consider_fst
    · refine .ite hs.consider_fst.updTask (.ite (.ite hs.consider_fst.updTask hs.consider_fst.updTask.takeReserve)
        (.ite hs.consider_fst.updTask.updTask ?_))
      split
      · exact hs.consider_fst.updTask.admitTick
      · exact hs.consider_fst.updTask.takeReserve

theorem Kept.pass {f : Task × Nat → Bool} (hs : Kept false s₀ s) : Kept false s₀ (s.pass d f) :=
  Kept.foldl (hs.cleanReserve.foldl fun _ _ h => .ite h.skipTrace h) fun _ _ h => .ite h h.tryAdmit

theorem Kept.execAdmissionPass (hs : Kept false s₀ s) : Keeps s₀ (execAdmissionPass d s) := by
  unfold Machine.execAdmissionPass
  have passed := hs.pass (d := d) (f := fun _ => true)
  refine .ite trivial ?_
  dsimp only
  generalize s.pass d (fun _ => true) = u at passed
  split
  · trivial
  · exact passed

theorem Kept.bindAll (hs : Kept false s₀ s) : KeptSome false s₀ (s.bindAll d t lay l) := by
  induction l generalizing s with
  | nil => exact hs
  | cons g r ih =>
    rw [State.bindAll]
    split
    · exact ih hs.updTask
    · trivial

theorem Kept.passBelow (hs : Kept false s₀ s) : Kept false s₀ (s.passBelow t) :=
  .ite hs.pass hs

theorem Kept.execSuperstepBindRequest (hs : Kept false s₀ s) : Keeps s₀ (execSuperstepBindRequest d t s) := by
  unfold Machine.execSuperstepBindRequest
  split
  · trivial
  · have passed : ∀ (p : Prop) (_ : Decidable p) f, Kept false s₀ (if p then s.pass d f else s) := fun _ _ _ => .ite hs.pass hs
    dsimp only
    refine .ite trivial (.ite trivial ?_)
    split
    · exact (passed _ _ _).updTask.takeReserve.passBelow
    · next u e =>
      have hu : Kept false s₀ u :=
        KeptSome.of_some (.ite (t := State.bindAll _ _ _ _ _) (u := none) (passed _ _ _).bindAll trivial) e
      split
      · exact .ite hu.updTask (hu.updTask.foldl fun _ _ h => h.admitTick).passBelow
      · exact hu.updTask

theorem Kept.execAgingReservation (hs : Kept false s₀ s) : Keeps s₀ (execAgingReservation d tid g s) := by
  unfold Machine.execAgingReservation
  split
  · trivial
  · split
    · trivial
    · exact .ite hs.updDie trivial

theorem Kept.execReservationPreempt (hs : Kept false s₀ s) : Keeps s₀ (execReservationPreempt d attention s) := by
  unfold Machine.execReservationPreempt
  dsimp only
  split
  · trivial
  · split
    · exact .ite trivial hs.stopWith
    · trivial

theorem Kept.execStarvationYield (hs : Kept false s₀ s) : Keeps s₀ (execStarvationYield tid w s) := by
  unfold Machine.execStarvationYield
  dsimp only
  split
  · trivial
  · split
    · trivial
    · split
      · split
        · exact hs.updTask.askStop
        · exact hs.endTask
      · split
        · trivial
        · split
          · trivial
          · split
            · split
              · exact hs.endTask
              · split
                · exact hs.updTask.updTask.askStop
                · exact hs.updTask.endTask
            · split
              · exact hs.endTask
              · split
                · exact hs.updTask.updTask.askStop
                · exact hs.updTask.endTask

theorem Kept.demote (hs : Kept false s₀ s) : Kept false s₀ (s.demote t) :=
  hs.slip.updTask

theorem Kept.execDeadlineMiss (hs : Kept false s₀ s) : Keeps s₀ (execDeadlineMiss tid s) := by
  unfold Machine.execDeadlineMiss
  split
  · exact .ite trivial hs.demote
  · trivial

theorem Kept.completionHold (hs : Kept false s₀ s) : KeptSome false s₀ (s.completionHold d t) :=
  .ite hs hs.luHold

theorem Kept.complete_fst (hs : Kept false s₀ s) : Kept false s₀ (s.complete d t).1 := by
  unfold State.complete
  dsimp only
  split
  · exact KeptSome.getD hs.completionHold hs
  · exact (KeptSome.getD hs.completionHold hs).luRec
  · exact (KeptSome.getD ((KeptSome.getD hs.completionHold hs).directWrites) (KeptSome.getD hs.completionHold hs)).decrement_fst

theorem Kept.completion (hs : Kept false s₀ s) : Kept false s₀ (s.completion d q t sat fail f) :=
  hs.wrRec.wrRec.wrRec.wrRec.setQreg

theorem Kept.forget (hs : Kept up s₀ s) : Kept up s₀ (s.forget t) := by
  refine Kept.frame (s := { s with dies := _ }) (hs.changesDies ?_)
  exact fun _ => rfl

theorem Kept.endFrame (hs : Kept false s₀ s) : Kept false s₀ (s.endFrame d t f) := by
  unfold State.endFrame
  dsimp only
  split
  · exact .ite hs (Kept.ite hs.updDie hs.updDie.slip)
  · exact hs

theorem Kept.retire (hs : Kept false s₀ s) : Kept false s₀ (s.retire d t) := by
  have demoted : ∀ (p : Prop) (_ : Decidable p), Kept false s₀ (if p then s.now.demote t else s.now) := fun _ _ => .ite
    hs.now.demote hs.now
  have ran : ∀ (p q : Prop) (_ : Decidable p) (_ : Decidable q) f,
      Kept false s₀ (if q then (if p then s.now.demote t else s.now).updDie d f else if p then s.now.demote t else s.now) :=
    fun _ _ _ _ _ => .ite (demoted _ _).updDie (demoted _ _)
  unfold State.retire
  dsimp only
  exact .ite (Kept.slip (.ite (ran _ _ _ _ _).complete_fst.completion.forget.endFrame
    (ran _ _ _ _ _).complete_fst.completion.forget))
    (.ite (ran _ _ _ _ _).complete_fst.completion.forget.endFrame (ran _ _ _ _ _).complete_fst.completion.forget)

theorem Kept.execTaskRetire (hs : Kept false s₀ s) : Keeps s₀ (execTaskRetire tid s) := by
  unfold Machine.execTaskRetire
  dsimp only
  split
  · exact .ite hs.retire trivial
  · trivial

/-! ## Register windows -/

theorem Kept.setMb (hs : Kept up s₀ s) : Kept up s₀ (s.setMb off v) :=
  hs.frame

theorem Kept.writeBack (hs : Kept false s₀ s) : Kept false s₀ (s.writeBack d lines) := by
  unfold State.writeBack
  refine Kept.foldl hs fun _ _ ht => ?_
  split
  · next t' e' => exact (ht.execDramWriteback.of_next e')
  · exact ht

theorem Kept.flushContext (hs : Kept false s₀ s) : Kept false s₀ (s.flushContext ctx) :=
  hs.foldl fun _ _ ht => ht.writeBack

theorem Kept.execCtxcfgWrite (hs : Kept false s₀ s) : Keeps s₀ (execCtxcfgWrite ctx qw v app s) :=
  hs.byApp (Keeps.ite hs (Keeps.ite hs.setMb (Keeps.ite hs.flushContext.setMb hs.setMb)))

theorem Kept.setAll (hs : Kept false s₀ s) : Kept false s₀ (s.setAll off v) :=
  hs.changesDies (fun _ => rfl)

theorem Kept.execCtxmmuWrite (hs : Kept false s₀ s) : Keeps s₀ (execCtxmmuWrite d ctx v s) :=
  .ite hs (Keeps.ite hs.setAll hs.setAll)

theorem Kept.execRevoke (hs : Kept false s₀ s) : Keeps s₀ (execRevoke ctx s) := by
  refine Kept.frameNext (s := { s with dies := _ }) (hs.changesDies ?_)
  exact fun _ => rfl

theorem Kept.execRevokeComplete (hs : Kept false s₀ s) : Keeps s₀ (execRevokeComplete ctx s) := by
  unfold Machine.execRevokeComplete
  dsimp only
  split
  · exact hs.frame
  · trivial

theorem Kept.pfLoads (hs : Kept false s₀ s) : Kept false s₀ (s.pfLoads v) := by
  refine hs.trans (List.foldlRecOn (motive := Kept false s) _ _ (.refl s) fun t ht a ha => ?_)
  exact .ite (ht.retryLanding (.of_mem (List.mem_of_mem_filter ha))) ht

theorem Kept.pfRun (hs : Kept false s₀ s) : Kept false s₀ (s.pfRun c st v r) := by
  unfold State.pfRun
  split
  · exact hs
  · split
    · exact hs
    · split
      · exact hs.absentRec
      · exact hs.updCore

theorem Kept.pfXm (hs : Kept false s₀ s) : Kept false s₀ (s.pfXm c st v) := by
  unfold State.pfXm
  split
  · split
    · exact hs
    · split
      · exact hs
      · split
        · exact hs.mldAbsent.updCore
        · exact hs.updCore
  · exact hs

theorem Kept.pfFetch (hs : Kept false s₀ s) : Kept false s₀ (s.pfFetch c st v) := by
  unfold State.pfFetch
  dsimp only
  split
  · split
    · exact hs.focus
    · split
      · exact hs.focus.fetchHold
      · exact hs.focus.unwait
  · exact hs

theorem Kept.pfBad (hs : Kept false s₀ s) : Kept false s₀ (s.pfBad d ctx v t master) :=
  .ite hs.badPteRec hs

theorem Kept.pfLogged (hs : Kept false s₀ s) : Kept false s₀ (s.pfLogged v) := by
  unfold State.pfLogged
  dsimp only
  refine Kept.frame ?_
  refine Kept.foldl hs fun _ _ ht => ?_
  split
  · exact .ite ht.pfBad ht
  · exact ht

theorem Kept.pfCore {id : CoreId} (hs : Kept false s₀ s) : Kept false s₀ (s.pfCore v id) := by
  unfold State.pfCore
  dsimp only
  split
  · exact .ite hs (((((hs.foldl fun _ _ ht => ht.pfBad).updCore).foldl fun _ _ ht => ht.pfRun).pfXm).pfFetch)
  · exact hs

theorem Kept.execPfdone (hs : Kept false s₀ s) : Keeps s₀ (execPfdone v s) :=
  hs.pfLoads.pfLogged.foldl fun _ _ ht => ht.pfCore

theorem Kept.flushShared (hs : Kept false s₀ s) : Kept false s₀ (s.flushShared d a b) :=
  hs.writeBack

theorem Kept.rekey (hs : Kept false s₀ s) : Kept false s₀ (s.rekey l) :=
  hs.frame

theorem Kept.execAccessTableWrite (hs : Kept false s₀ s) : Keeps s₀ (execAccessTableWrite d table entry qw v app s) :=
  hs.byApp (Keeps.ite hs (Keeps.ite hs.accViol (Kept.ite hs.setReg.updDie.flushShared.rekey hs.setReg.updDie)))

theorem Kept.execPpcfgWrite (hs : Kept false s₀ s) : Keeps s₀ (execPpcfgWrite d n v app s) :=
  hs.byApp (Keeps.ite hs (Keeps.ite hs.setReg (Keeps.ite hs.setReg (Keeps.ite hs.accViol hs.setReg.setReg.frame))))

theorem Kept.execPortcfgWrite (hs : Kept false s₀ s) : Keeps s₀ (execPortcfgWrite d n v app s) :=
  hs.byApp (Keeps.ite hs (Keeps.ite hs.setReg (Keeps.ite hs.setReg (Keeps.ite hs.accViol hs.setReg.setReg.setReg.setReg.updDie))))

theorem Kept.execCtxordWrite (hs : Kept false s₀ s) : Keeps s₀ (execCtxordWrite d ctx reg v app s) :=
  hs.byApp (Keeps.ite hs (Keeps.ite hs.accViol hs.setReg))

theorem Kept.execDetquotaWrite (hs : Kept false s₀ s) : Keeps s₀ (execDetquotaWrite d ctx v app s) :=
  hs.byApp (Keeps.ite hs (Keeps.ite hs.accViol hs.setReg))

theorem Kept.execMirrorcfgWrite (hs : Kept false s₀ s) : Keeps s₀ (execMirrorcfgWrite d n qw v app s) :=
  hs.byApp (Keeps.ite hs (Keeps.ite hs.accViol hs.setReg))

theorem Kept.execSavepoolWrite (hs : Kept false s₀ s) : Keeps s₀ (execSavepoolWrite d v app s) :=
  hs.byApp (Keeps.ite hs (Keeps.ite hs.accViol hs.setReg))

theorem Kept.writeRing (hs : Kept false s₀ s) : Kept false s₀ (s.writeRing d off v app) :=
  .ite hs.accViol hs.setReg

theorem Kept.writeBase (hs : Kept false s₀ s) : Kept false s₀ (s.writeBase d q off v app) :=
  .ite hs.accViol hs.setReg

theorem Kept.writeQueue (hs : Kept false s₀ s) : Keeps s₀ (s.writeQueue d off v app) := by
  unfold State.writeQueue
  dsimp only
  split
  · exact hs
  · split
    · exact hs.execQcfgWrite
    · exact hs.writeBase
    · exact hs.execQtailWrite
    · exact hs.execQttWrite
    · exact hs.writeBase
    · exact hs.execQtraceWrite
    · exact hs

theorem Kept.writeWindow (hs : Kept false s₀ s) : Keeps s₀ (s.writeWindow d off v app) :=
  .ite hs (Keeps.ite hs.writeRing
    (Keeps.ite hs.writeQueue
      (Keeps.ite hs.execAccessTableWrite (Keeps.ite (Keeps.ite hs.execCtxmmuWrite (Keeps.ite hs.execRevoke hs))
        (Keeps.ite hs.execPfdone
          (Keeps.ite hs.execCtxordWrite
            (Keeps.ite hs.execDetquotaWrite
              (Keeps.ite hs.execSavepoolWrite
                (Keeps.ite (Kept.ite hs hs.setReg)
                  (Keeps.ite hs.execMirrorcfgWrite (Keeps.ite hs.execPpcfgWrite (Keeps.ite hs.execPortcfgWrite hs))))))))))))

theorem Kept.readClear (hs : Kept false s₀ s) : Kept false s₀ (s.readClear d off keep) :=
  .ite hs hs.setReg.frame

theorem Kept.execAccviolRead (hs : Kept false s₀ s) : Keeps s₀ (execAccviolRead d s) :=
  hs.readClear

theorem Kept.execViolog1Read (hs : Kept false s₀ s) : Keeps s₀ (execViolog1Read d s) :=
  hs.readClear

theorem Kept.execDetcntRead (hs : Kept false s₀ s) : Keeps s₀ (execDetcntRead d s) :=
  hs.readClear

theorem Kept.execPortcntRead (hs : Kept false s₀ s) : Keeps s₀ (execPortcntRead d port reg1 s) :=
  .ite hs hs.readClear

theorem Kept.execFabcntRead (hs : Kept false s₀ s) : Keeps s₀ (execFabcntRead d s) := by
  unfold Machine.execFabcntRead
  dsimp only
  change Kept _ _ _
  exact .ite hs hs.readClear.frame

/-! ## Rhoath, resets and failover -/

theorem Kept.coresDown (hs : Kept false s₀ s) : Kept false s₀ (s.coresDown d) := by
  unfold State.coresDown
  dsimp only
  exact hs.drops.frame.updDie

theorem Access.homeless_same (a : Access) : a.homeless.id = a.id ∧ a.homeless.land = a.land := by
  unfold Access.homeless
  split <;> exact ⟨rfl, rfl⟩

theorem Kept.darken (hs : Kept false s₀ s) : Kept false s₀ (s.darken d) := by
  unfold State.darken
  dsimp only
  refine Kept.updDie (Kept.frame (hs.coresDown.drops.mapsSame fun a => ?_))
  split
  · exact a.homeless_same
  · exact ⟨rfl, rfl⟩

theorem Kept.zeroUncore (hs : Kept false s₀ s) : Kept false s₀ (s.zeroUncore d) :=
  (hs.writes fun h => memZero_wf (memZero_wf (memZero_wf h _ _) _ _) _ _).frame

theorem Kept.zeroCores (hs : Kept false s₀ s) : Kept false s₀ (s.zeroCores d) :=
  (hs.writes fun h => memZero_wf (memZero_wf h _ _) _ _).frame

theorem Kept.execUncoreLeaveReset (hs : Kept false s₀ s) : Keeps s₀ (execUncoreLeaveReset d s) := by
  unfold Machine.execUncoreLeaveReset
  refine .ite trivial (Kept.setDie (Kept.zeroUncore (hs.changesDies ?_)))
  exact fun _ => rfl

theorem Kept.execCoreDomainLeaveReset (hs : Kept false s₀ s) : Keeps s₀ (execCoreDomainLeaveReset d s) :=
  .ite trivial hs.zeroCores.updDie

theorem Kept.execUncoreResetRequest (hs : Kept false s₀ s) : Keeps s₀ (execUncoreResetRequest d s) :=
  .ite trivial (Keeps.ite hs.coresDown.frame ((hs.coresDown.darken.foldl fun _ _ ht => ht.endTask.forget).updDie))

theorem DieId.all_map_id {f : DieId → Die} (hf : ∀ d, (f d).id = d) : (DieId.all.map f).map (·.id) = DieId.all := by
  rw [List.map_map]
  exact (List.map_congr_left fun d _ => hf d).trans (List.map_id _)

theorem Die.setRetPage_mark (x : Die) : (x.setRetPage i p).mark up = x.mark up := by
  unfold Die.setRetPage
  split <;> rfl

theorem State.bornDie_mark (s : State) (cores : Bool) : (s.bornDie d cores).mark true = (d, true, cores, false) := by
  have pages : ∀ (l : List ((DieId × Nat) × Nat)) (x : Die),
      (l.foldl (fun (x : Die) p => x.setRetPage p.2 p.1.2) x).mark true = x.mark true :=
    fun l x => List.foldlRecOn (motive := fun y : Die => y.mark true = x.mark true) _ _ rfl
      fun y h p _ => (y.setRetPage_mark).trans h
  have regs : ∀ (l : List Nat) (x m : Die),
      (l.foldl (fun x o => if m.nat o = 0 then x else x.setReg o (m.reg o)) x).mark true = x.mark true := fun l x m =>
    List.foldlRecOn (motive := fun y : Die => y.mark true = x.mark true) _ _ rfl fun _ h _ _ => by
      split
      · exact h
      · exact h
  have born : ∀ x : Die, ∀ e, x.mark true = (Die.reset d).mark true →
      ({ x with coresUp := cores, epoch := e } : Die).mark true = (d, true, cores, false) := fun x e h => by
    obtain ⟨name, uncore, -, removed⟩ : x.id = d ∧ x.uncoreUp = true ∧ x.coresUp = true ∧ x.removed = false := by
      simpa only [Die.mark, Die.reset, Bool.true_and, Prod.mk.injEq] using h
    simp only [Die.mark, name, uncore, removed, Bool.true_and]
  unfold State.bornDie
  dsimp only
  refine born _ _ ?_
  split
  · exact pages _ _
  · exact (regs _ _ _).trans (pages _ _)

theorem State.bornDie_id (s : State) (cores : Bool) : (s.bornDie d cores).id = d := congrArg Prod.fst (s.bornDie_mark cores)

/-- A boot starts from no memory and no access in flight; the numbering goes on. -/
theorem Kept.execPowerGoodBoot (hs : Kept false s₀ s) : Keeps s₀ (execPowerGoodBoot flash s) := by
  unfold Machine.execPowerGoodBoot
  refine ⟨fun _ => rfl, fun ha => marks_of_ids (.trans ?_ ha.symm), hs.next, fun _ a ha => (List.not_mem_nil ha).elim⟩
  dsimp only
  refine DieId.all_map_id fun d => ?_
  split
  · rfl
  · exact State.bornDie_id _ _

theorem Kept.answer (hs : Kept false s₀ s) : Keeps s₀ (s.answer row ch head phase) :=
  .ite trivial hs.frame

theorem Kept.spdmError (hs : Kept false s₀ s) : Keeps s₀ (s.spdmError row ch code req) :=
  .ite trivial hs.frame

theorem Kept.execGetVersion (hs : Kept false s₀ s) : Keeps s₀ (execGetVersion ch s) :=
  hs.answer

theorem Kept.execGetCapabilities (hs : Kept false s₀ s) : Keeps s₀ (execGetCapabilities ch s) :=
  hs.answer

theorem Kept.execNegotiateAlgorithms (hs : Kept false s₀ s) : Keeps s₀ (execNegotiateAlgorithms ch s) :=
  hs.answer

theorem Kept.execGetDigests (hs : Kept false s₀ s) : Keeps s₀ (execGetDigests ch s) :=
  hs.answer

theorem Kept.execGetCertificate (hs : Kept false s₀ s) : Keeps s₀ (execGetCertificate ch slot s) :=
  .ite hs.answer hs.spdmError

theorem Kept.execChallenge (hs : Kept false s₀ s) : Keeps s₀ (execChallenge ch slot s) :=
  .ite hs.answer hs.spdmError

theorem Kept.execGetMeasurements (hs : Kept false s₀ s) : Keeps s₀ (execGetMeasurements ch index s) := by
  unfold Machine.execGetMeasurements
  split
  · exact hs.answer
  · split
    · exact hs.answer
    · split
      · exact hs.answer
      · exact hs.spdmError

theorem Kept.execKeyExchange (hs : Kept false s₀ s) : Keeps s₀ (execKeyExchange req s) :=
  .ite hs.answer hs.spdmError

theorem Kept.execFinish (hs : Kept false s₀ s) : Keeps s₀ (execFinish ch s) :=
  .ite hs.answer hs.spdmError

theorem Kept.execEndSession (hs : Kept false s₀ s) : Keeps s₀ (execEndSession ch s) :=
  .ite hs.answer hs.spdmError

theorem Kept.execUnsupportedRequest (hs : Kept false s₀ s) : Keeps s₀ (execUnsupportedRequest ch code s) :=
  hs.spdmError

theorem Kept.spdmServe (hs : Kept false s₀ s) : Keeps s₀ (spdmServe ch l s) := by
  unfold Machine.spdmServe
  dsimp only
  split
  · exact hs.execGetDigests
  · exact hs.execGetCertificate
  · exact hs.execChallenge
  · exact hs.execGetVersion
  · exact hs.execGetMeasurements
  · exact hs.execGetCapabilities
  · exact hs.execNegotiateAlgorithms
  · exact hs.execKeyExchange
  · exact hs.execFinish
  · exact hs.execEndSession
  · exact hs.execUnsupportedRequest

theorem Kept.mbStatus (hs : Kept false s₀ s) : Kept false s₀ (s.mbStatus status) :=
  hs.setMb

theorem Kept.mbDone (hs : Kept false s₀ s) : Kept false s₀ (s.mbDone args status) :=
  (hs.foldl fun _ _ ht => ht.setMb).mbStatus

theorem Kept.execCtxKey (hs : Kept false s₀ s) : Keeps s₀ (execCtxKey arg s) :=
  .ite trivial (Keeps.ite hs.mbDone (Keeps.ite hs.mbDone hs.rekey.frame.mbDone))

theorem Kept.execClearRetired (hs : Kept false s₀ s) : Keeps s₀ (execClearRetired arg s) := by
  unfold Machine.execClearRetired
  dsimp only
  split
  · trivial
  · split
    · exact hs.mbDone
    · exact .ite hs.mbDone hs.frame.updDie.mbDone

theorem Kept.execRecover (hs : Kept false s₀ s) : Keeps s₀ (execRecover arg pa len s) := by
  unfold Machine.execRecover
  refine .ite trivial ?_
  split
  · exact hs.mbDone
  · split
    · exact hs.mbDone
    · refine .ite hs.mbDone (.ite hs.mbDone (Kept.mbDone (Kept.setDie (Kept.zeroCores (Kept.zeroUncore ?_)))))
      refine Kept.frame (s := { s with dies := _ }) (hs.changesDies ?_)
      exact fun _ => rfl

theorem Kept.execSpdm (hs : Kept false s₀ s) : Keeps s₀ (execSpdm pa len resp s) := by
  unfold Machine.execSpdm
  dsimp only
  split
  · trivial
  · split
    · exact hs.mbDone
    · split
      · next t e => exact .ite hs.mbDone (((hs.spdmServe.of_next e).storeBytes).mbDone)
      · exact hs.spdmServe

theorem Kept.execPowerCap (hs : Kept false s₀ s) : Keeps s₀ (execPowerCap arg s) :=
  .ite trivial (Keeps.ite hs.mbDone hs.frame.mbDone)

theorem Kept.mbCommand (hs : Kept false s₀ s) : Kept false s₀ (s.mbCommand cmd) :=
  hs.frame.mbStatus

theorem Kept.mbRun (hs : Kept false s₀ s) : Keeps s₀ (mbRun c s) := by
  unfold Machine.mbRun
  split
  · exact hs.execCtxKey
  · exact hs.execClearRetired
  · exact hs.execRecover
  · exact hs.execSpdm
  · exact hs.execPowerCap
  · exact hs.mbStatus

theorem Kept.mbServe (hs : Kept false s₀ s) : Keeps s₀ (mbServe s) := by
  unfold Machine.mbServe
  split
  · trivial
  · split
    · next e =>
      refine Kept.foldl ?_ fun _ _ h => h.setMb
      exact hs.frame.mbRun.of_next e
    · exact hs.frame.mbRun

theorem Kept.execRegisterWrite (hs : Kept false s₀ s) : Keeps s₀ (execRegisterWrite d off v app s) := by
  unfold Machine.execRegisterWrite
  refine Kept.byApp hs ?_
  split
  · exact hs.writeWindow
  · exact .ite hs (Keeps.ite hs.mbCommand (Keeps.ite hs.setMb (Keeps.ite hs.execCtxcfgWrite hs)))

theorem Kept.execMbueRead (hs : Kept false s₀ s) : Keeps s₀ (execMbueRead s) :=
  .ite trivial hs.frame

theorem Kept.allDown (hs : Kept false s₀ s) : Kept false s₀ s.allDown := by
  unfold State.allDown
  dsimp only
  refine Kept.frame (s := { DieId.all.foldl State.darken { s with tasks := [] } with dies := _ }) (Kept.changesDies ?_ ?_)
  · exact Kept.foldl hs.frame fun _ _ h => h.darken
  · exact fun _ => rfl

theorem Kept.execRhoathUe (hs : Kept false s₀ s) : Keeps s₀ (execRhoathUe s) :=
  hs.allDown.frame

theorem Kept.execThermalShutdown (hs : Kept false s₀ s) : Keeps s₀ (execThermalShutdown s) :=
  hs.allDown

theorem Kept.remapVdies (hs : Kept up s₀ s) : Kept up s₀ (s.remapVdies d) :=
  hs.foldl fun _ _ ht => .ite ht ht.setMb

theorem Kept.discardStuck (hs : Kept up s₀ s) : Kept up s₀ (s.discardStuck d n) := by
  induction n generalizing s with
  | zero => exact hs
  | succ n ih =>
    rw [State.discardStuck]
    split
    · exact hs
    · exact ih (hs.foldl fun _ _ h => h.discardFlit)

theorem Kept.deliverRest (hs : Kept up s₀ s) : Kept up s₀ (s.deliverRest n) := by
  induction n generalizing s with
  | zero => exact hs
  | succ n ih =>
    rw [State.deliverRest]
    split
    · next e => exact ih (hs.trans ((Kept.refl s).deliver (.of_find e)))
    · exact hs.foldl fun _ _ h => h.discardFlit

theorem Kept.resync (hs : Kept up s₀ s) : Kept up s₀ (s.resync d) := by
  have left := (hs.discardStuck (d := d) (n := s.flight.length + 1)).deliverRest
    (n := (s.discardStuck d (s.flight.length + 1)).flight.length + 1)
  unfold State.resync
  dsimp only
  refine Kept.frame ((left.mapsSame (f := fun a => if a.stage = .link then a else { a with clock := List.replicate 16 0 })
    fun a => ?_).changesDies fun x => ?_)
  · split <;> exact ⟨rfl, rfl⟩
  · split <;> rfl

theorem Kept.rename {f : TaskId → TaskId} (hs : Kept up s₀ s) : Kept up s₀ (s.rename f) := by
  unfold State.rename
  dsimp only
  refine Kept.frame (s := { s with dies := _, flight := _ }) (Kept.changesDies (s := { s with flight := _ }) (hs.mapsSame ?_) ?_)
  · exact fun _ => ⟨rfl, rfl⟩
  · exact fun _ => rfl

theorem Kept.adopt (hs : Kept up s₀ s) : Kept up s₀ (s.adopt d) := by
  unfold State.adopt
  dsimp only
  refine Kept.rename (hs.updDieSame ?_)
  exact fun _ => rfl

theorem Kept.disown (hs : Kept up s₀ s) : Kept up s₀ (s.disown t) := by
  unfold State.disown
  dsimp only
  refine Kept.frame (s := { s with flight := _ }) (hs.mapsSame fun a => ?_)
  split <;> exact ⟨rfl, rfl⟩

theorem Kept.stopAll (hs : Kept up s₀ s) : Kept up s₀ (s.stopAll t) :=
  (hs.stopTask.foldl fun _ _ ht => ht.closeHolds).disown

theorem Kept.settleTask (hs : Kept up s₀ s) : Kept up s₀ (s.settleTask d t) := by
  unfold State.settleTask
  dsimp only
  refine .ite hs (.ite hs.updTask (.ite (hs.stopAll.updTask.updTask.changesDies ?_) hs.endTask))
  exact fun _ => rfl

theorem Kept.loseTasks (hs : Kept up s₀ s) : Kept up s₀ (s.loseTasks d) :=
  hs.foldl fun _ _ ht => ht.endTask

/-- Die `d` in reset and removed, before the survivors resynchronise (14 R404). -/
def State.takenOut (s : State) (d : DieId) : State :=
  let s := (s.darken d).updDie d fun x => { x with removed := true }
  { s with rhoath := { s.rhoath with lost := some d } }

/-- From there on no die goes down or comes up. -/
theorem execDieFailover_next (hr : (s.die d).removed = false) (hd : s.down d = false) :
    ∃ t, execDieFailover d s = .next t ∧ Kept up (s.takenOut d) t := by
  have settled : ∀ (p : Prop) (_ : Decidable p) (l : State → List TaskId) (k : Die → Die) u,
      (∀ x, (k x).mark up = x.mark up) → Kept up (s.takenOut d) u →
      Kept up (s.takenOut d) (if p then u.loseTasks d else ((l u).foldl (fun s t => match s.findTask t with
        | some x => s.settleTask d x
        | none => s) (u.adopt d)).updDie d.twin k) := fun _ _ _ _ u hk hu =>
    .ite hu.loseTasks (Kept.updDieSame (hu.adopt.foldl fun _ _ h => by
      split
      · exact h.settleTask
      · exact h) hk)
  unfold Machine.execDieFailover
  rw [hr, hd, Bool.or_false, if_neg Bool.false_ne_true]
  dsimp only
  refine ⟨_, rfl, Kept.ite (Kept.frame (Kept.foldl ?ended fun _ _ h => h.faultRec))
    (Kept.pump (Kept.foldl ?ended fun _ _ h => h.faultRec))⟩
  refine settled _ _ (fun _ => _) _ _ ?_ (Kept.refl (s.takenOut d)).resync.remapVdies
  exact fun _ => rfl

theorem Kept.execDieFailover (hs : Kept false s₀ s) : Keeps s₀ (execDieFailover d s) := by
  cases hr : (s.die d).removed with
  | true =>
    unfold Machine.execDieFailover
    rw [hr, Bool.true_or, if_pos rfl]
    trivial
  | false =>
    cases hd : s.down d with
    | true =>
      unfold Machine.execDieFailover
      rw [hd, Bool.or_true, if_pos rfl]
      trivial
    | false =>
      obtain ⟨t, e, kept⟩ := execDieFailover_next (up := false) hr hd
      rw [e]
      exact Kept.trans hs.darken.updDie.frame kept

theorem Kept.execLinkRetrain (hs : Kept false s₀ s) : Keeps s₀ (execLinkRetrain link reqs failed s) := by
  unfold Machine.execLinkRetrain
  dsimp only
  split
  · trivial
  · trivial
  · exact hs.frame.faultRec.draw_snd.frame

theorem Kept.execThermal (hs : Kept false s₀ s) : Keeps s₀ (execThermal d cause s) :=
  .ite trivial hs.frame.updDie.faultRec

/-! ## Application cores -/

theorem Kept.clearsAt {f : State → Out} (hs : Kept false s₀ s) (e : Machine.clearsAt d off = some f) : Keeps s₀ (f s) := by
  unfold Machine.clearsAt at e
  split at e
  · cases e
    exact hs.execAccviolRead
  · split at e
    · cases e
      exact hs.execViolog1Read
    · split at e
      · cases e
        exact hs.execDetcntRead
      · split at e
        · cases e
          exact hs.execFabcntRead
        · split at e
          · cases e
            exact hs.execQfaultRead
          · split at e
            · cases e
              exact hs.execPortcntRead
            · cases e

theorem Kept.readWindow_snd (hs : Kept false s₀ s) : Kept false s₀ (s.readWindow d off).2 := by
  have cleared : ∀ f : State → Out, Machine.clearsAt d off = some f → ∀ t, f s = .next t → Kept false s₀ t :=
    fun f e t e' => (hs.clearsAt e).of_next e'
  unfold State.readWindow
  split
  · next f e =>
    split
    · next t e' => exact (cleared f e t e').frame
    · exact hs
  · split
    · exact hs
    · split
      · exact hs
      · split
        · exact hs.setAll
        · exact hs

theorem Kept.readMailbox_snd (hs : Kept false s₀ s) : Kept false s₀ (s.readMailbox off).2 := by
  unfold State.readMailbox
  dsimp only
  split
  · exact hs.frame
  · split
    · exact hs.setMb
    · split
      · exact hs
      · exact hs

theorem Kept.appAnswer (hs : Kept false s₀ s) : Kept false s₀ (s.appAnswer r v) :=
  hs.frame

theorem Kept.appWindow {rd : State → Nat × State} {wr : State → Out} (hs : Kept false s₀ s) (hrd : Kept false s₀ (rd s).2)
    (hwr : Keeps s₀ (wr s)) : Keeps s₀ (s.appWindow r rd wr) := by
  unfold State.appWindow
  refine .ite hs.appAnswer ?_
  split
  · exact hrd.appAnswer
  · exact hwr
  · exact hs.appAnswer

theorem Kept.appMailbox (hs :
    Kept false s₀ s) : Keeps s₀ (s.appWindow r (·.readMailbox off) (Machine.execRegisterWrite none off v app)) :=
  hs.appWindow hs.readMailbox_snd hs.execRegisterWrite

theorem Kept.appRegs (hs :
    Kept false s₀ s) : Keeps s₀ (s.appWindow r (·.readWindow d off) (Machine.execRegisterWrite (some d) off v app)) :=
  hs.appWindow hs.readWindow_snd hs.execRegisterWrite

theorem Kept.appIssue (hs : Kept false s₀ s) : Keeps s₀ (appIssue s) := by
  unfold Machine.appIssue
  split
  · trivial
  · next r rest _ =>
    have taken : Kept false s₀ { s with appReqs := rest } := hs.frame
    refine .ite taken (.ite taken.appMailbox ?_)
    split
    · exact .ite taken.refusal.appAnswer taken.appRegs
    · refine .ite taken.refusal.appAnswer (Kept.pump (Kept.frame (hs.sendsAlone ?_ ?_)))
      · rfl
      · rfl

theorem Kept.appArrive {id : ℕ} (hs : Kept false s₀ s) : Keeps s₀ (appArrive id s) := by
  unfold Machine.appArrive
  split
  · next a e =>
      have he := Awaits.of_find e
      split
      · exact hs.drops.frame
      · trivial
  · trivial

/-! ## The meanings of the instructions and events -/

theorem Kept.exec (hs : Kept false s₀ s) : Keeps s₀ (exec i s) := by
  have ops := hs.runOp (i := i)
  unfold Machine.exec
  cases i
  case mmFp8 | mmInt8 | mmInt4 | mmBf16x3 | mmFp8Accskip | accZero | accDrainF32 | accDrainBf16 | accDrainI32 |
    accDrainFp8 | accToa | accScalerow | wbLoad | corrLoad | chkRead | nopRoutine => exact hs.doRoutine
  case xmEntryStart => exact hs.execXmEntryStart
  case routineComplete => exact hs.execRoutineComplete
  case tileCompletionCheck => exact hs.execTileCompletionCheck
  case routineInstall => exact hs.execRoutineInstall
  case bundleIssue => exact hs.execBundleIssue
  case landingArrival => exact hs.execLandingArrival
  case walkComplete => exact hs.execWalkComplete
  case waitConditionMet => exact hs.execWaitConditionMet
  case wfeTimeout => exact hs.execWfeTimeout
  case queueRoom => exact hs.execQueueRoom
  case syncRelease => exact hs.execSyncRelease
  case commitRelease => exact hs.execCommitRelease
  case strandExitComplete => exact hs.execStrandExitComplete
  case asyncTrapArrival => exact hs.execAsyncTrapArrival
  case trapEntry => exact hs.execTrapEntry
  case fatalTrap => exact hs.execFatalTrap
  case detectorEvent => exact hs.execDetectorEvent
  case stopRequest => exact hs.execStopRequest
  case stopDeadline => exact hs.execStopDeadline
  case saveAreaWrite => exact hs.execSaveAreaWrite
  case strandResume => exact hs.execStrandResume
  case strandLoad => exact hs.execStrandLoad
  case trellisReplay => exact hs.execTrellisReplay
  case homeSliceAccess => exact hs.execHomeSliceAccess
  case localCausalRelease => exact hs.execLocalCausalRelease
  case atomicPerform => exact hs.execAtomicPerform
  case replayOrderRelease => exact hs.execReplayOrderRelease
  case diverge => exact hs.execDiverge
  case epochClose => exact hs.execEpochClose
  case counterDecrement => exact hs.execCounterDecrement
  case cacheUe => exact hs.execCacheUe
  case dramWriteback => exact hs.execDramWriteback
  case bankSwitchComplete => exact hs.execBankSwitchComplete
  case flitReceive => exact hs.execFlitReceive
  case flitDeliver => exact hs.execFlitDeliver
  case creditSend => exact hs.execCreditSend
  case creditReceive => exact hs.execCreditReceive
  case ceCommandStart => exact hs.execCeCommandStart
  case packetLand => exact hs.execPacketLand
  case ceCommandComplete => exact hs.execCeCommandComplete
  case cpysigSignal => exact hs.execCpysigSignal
  case peerPutReceive => exact hs.execPeerPutReceive
  case psendDelivery => exact hs.execPsendDelivery
  case permitArrive => exact hs.execPermitArrive
  case lineFrame => exact hs.execLineFrame
  case controlFrame => exact hs.execControlFrame
  case plateSwitch => exact hs.execPlateSwitch
  case pcieDmaWrite => exact hs.execPcieDmaWrite
  case pcieDmaRead => exact hs.execPcieDmaRead
  case qtailWrite => exact hs.execQtailWrite
  case ringSlotRead => exact hs.execRingSlotRead
  case launchPacketArrive => exact hs.execLaunchPacketArrive
  case waitingPacketAccept => exact hs.execWaitingPacketAccept
  case qcfgWrite => exact hs.execQcfgWrite
  case qttWrite => exact hs.execQttWrite
  case timetableUnbind => exact hs.execTimetableUnbind
  case frameStart => exact hs.execFrameStart
  case degradedSwitch => exact hs.execDegradedSwitch
  case taskRelease => exact hs.execTaskRelease
  case counterWatch => exact hs.execCounterWatch
  case counterPoll => exact hs.execCounterPoll
  case admissionPass => exact hs.execAdmissionPass
  case signatureCheck => exact hs.execSignatureCheck
  case superstepBindRequest => exact hs.execSuperstepBindRequest
  case agingReservation => exact hs.execAgingReservation
  case reservationPreempt => exact hs.execReservationPreempt
  case starvationYield => exact hs.execStarvationYield
  case deadlineMiss => exact hs.execDeadlineMiss
  case taskRetire => exact hs.execTaskRetire
  case ctxcfgWrite => exact hs.execCtxcfgWrite
  case ctxmmuWrite => exact hs.execCtxmmuWrite
  case revoke => exact hs.execRevoke
  case revokeComplete => exact hs.execRevokeComplete
  case pfdone => exact hs.execPfdone
  case accessTableWrite => exact hs.execAccessTableWrite
  case ppcfgWrite => exact hs.execPpcfgWrite
  case portcfgWrite => exact hs.execPortcfgWrite
  case qtraceWrite => exact hs.execQtraceWrite
  case ctxordWrite => exact hs.execCtxordWrite
  case detquotaWrite => exact hs.execDetquotaWrite
  case mirrorcfgWrite => exact hs.execMirrorcfgWrite
  case savepoolWrite => exact hs.execSavepoolWrite
  case registerWrite => exact hs.execRegisterWrite
  case qfaultRead => exact hs.execQfaultRead
  case accviolRead | violog1Read | detcntRead => exact hs.readClear
  case portcntRead => exact hs.execPortcntRead
  case fabcntRead => exact hs.execFabcntRead
  case ctxKey => exact hs.execCtxKey
  case clearRetired => exact hs.execClearRetired
  case recover => exact hs.execRecover
  case spdm => exact hs.execSpdm
  case powerCap => exact hs.execPowerCap
  case mbueRead => exact hs.execMbueRead
  case getVersion | getCapabilities | negotiateAlgorithms | getDigests => exact hs.answer
  case getCertificate => exact hs.execGetCertificate
  case challenge => exact hs.execChallenge
  case getMeasurements => exact hs.execGetMeasurements
  case keyExchange => exact hs.execKeyExchange
  case finish => exact hs.execFinish
  case endSession => exact hs.execEndSession
  case unsupportedRequest => exact hs.spdmError
  case powerGoodBoot => exact hs.execPowerGoodBoot
  case uncoreResetRequest => exact hs.execUncoreResetRequest
  case uncoreLeaveReset => exact hs.execUncoreLeaveReset
  case coreDomainLeaveReset => exact hs.execCoreDomainLeaveReset
  case rhoathUe => exact hs.execRhoathUe
  case dieFailover => exact hs.execDieFailover
  case linkRetrain => exact hs.execLinkRetrain
  case thermal => exact hs.execThermal
  case thermalShutdown => exact hs.execThermalShutdown
  case peerAck => exact hs.execPeerAck
  all_goals exact ops

/-! ## Every event that can come next -/

/-- Whatever a list of events brings is kept. -/
def AllKeep (l : List Event) : Prop := ∀ e ∈ l, ∀ s, Keeps s (e s)

theorem AllKeep.nil : AllKeep [] := fun _ h => (List.not_mem_nil h).elim

theorem AllKeep.cons {e : Event} (he : ∀ s, Keeps s (e s)) (hl : AllKeep l) : AllKeep (e :: l) := fun x hx => by
  rcases List.mem_cons.1 hx with rfl | hx
  · exact he
  · exact hl x hx

theorem AllKeep.one {e : Event} (he : ∀ s, Keeps s (e s)) : AllKeep [e] := .cons he .nil

theorem AllKeep.append (hl : AllKeep l) (hm : AllKeep m) : AllKeep (l ++ m) := fun x hx =>
  (List.mem_append.1 hx).elim (hl x) (hm x)

theorem AllKeep.ite {p : Prop} [Decidable p] (hl : AllKeep l) (hm : AllKeep m) : AllKeep (if p then l else m) := by
  split
  · exact hl
  · exact hm

theorem AllKeep.map {l : List α} {f : α → Event} (hf : ∀ x s, Keeps s (f x s)) : AllKeep (l.map f) := fun e he => by
  obtain ⟨x, _, rfl⟩ := List.mem_map.1 he
  exact hf x

theorem AllKeep.flatMap {l : List α} {f : α → List Event} (hf : ∀ x, AllKeep (f x)) : AllKeep (l.flatMap f) := fun e he => by
  obtain ⟨x, _, hx⟩ := List.mem_flatMap.1 he
  exact hf x e hx

theorem AllKeep.filter {p : Event → Bool} (hl : AllKeep l) : AllKeep (l.filter p) := fun e he => hl e (List.mem_of_mem_filter he)

theorem AllKeep.routineTurns : AllKeep (routineTurns c) := by
  intro e he s
  simp only [Machine.routineTurns, List.mem_cons, List.not_mem_nil, or_false] at he
  rcases he with rfl | rfl | rfl | rfl | rfl | rfl | rfl | rfl | rfl | rfl | rfl | rfl | rfl | rfl | rfl | rfl <;>
    exact (Kept.refl s).doRoutine

theorem AllKeep.engineTurns : AllKeep (engineTurns c) := by
  refine .append (.append (.append (.append (.append ?_ ?_) ?_) ?_) ?_) (.flatMap fun r => ?_)
  · exact .ite .nil (.one fun s => (Kept.refl s).execXmEntryStart)
  · exact .ite .routineTurns .nil
  · exact .ite (.one fun s => (Kept.refl s).execRoutineComplete) .nil
  · exact .ite .nil (.one fun s => (Kept.refl s).execTileCompletionCheck)
  · exact .ite .nil (.one fun s => (Kept.refl s).execCeCommandStart)
  · refine .append (.append (.append (.append ?_ ?_) ?_) ?_) (.map fun i s => (Kept.refl s).execPacketLand)
    · exact .one fun s => (Kept.refl s).execCeCommandComplete
    · exact .ite .nil (.one fun s => (Kept.refl s).packetSend)
    · exact .ite (.one fun s => (Kept.refl s).flushRun) .nil
    · split
      · exact .one fun s => (Kept.refl s).pgloadRun
      · exact .nil

theorem AllKeep.waitTurns : AllKeep (waitTurns c) := by
  refine .append (.append (.append (.append (.append (.append ?_ ?_) ?_) ?_) ?_) ?_) ?_
  · exact .ite (.cons (fun s => (Kept.refl s).execWaitConditionMet) (.cons (fun s => (Kept.refl s).execWfeTimeout)
      (.cons (fun s => (Kept.refl s).execQueueRoom) (.one fun s => (Kept.refl s).execSyncRelease)))) .nil
  · split
    · exact .one fun s => (Kept.refl s).execCommitRelease
    · exact .nil
  · exact .ite (.one fun s => (Kept.refl s).execStrandExitComplete) .nil
  · exact .ite .nil (.cons (fun s => (Kept.refl s).execTrapEntry) (.one fun s => (Kept.refl s).execFatalTrap))
  · exact .ite (.one fun s => (Kept.refl s).execStopDeadline) .nil
  · exact .ite (.one fun s => (Kept.refl s).execSaveAreaWrite) .nil
  · exact .ite .nil (.one fun s => (Kept.refl s).execTrellisReplay)

theorem AllKeep.coreTurns : AllKeep (s.coreTurns c) :=
  .ite .nil (.append (.append (.ite (.one fun s => (Kept.refl s).execBundleIssue) .nil) .waitTurns) .engineTurns)

theorem AllKeep.flightTurns : AllKeep (flightTurns a) := by
  unfold Machine.flightTurns
  split
  case h_1 | h_2 | h_3 | h_4 => exact .nil
  · exact .one fun s => (Kept.refl s).execFlitReceive
  · exact .one fun s => (Kept.refl s).execFlitDeliver
  · exact .one fun s => (Kept.refl s).execLocalCausalRelease
  · exact .cons (fun s => (Kept.refl s).execHomeSliceAccess) (.cons (fun s => (Kept.refl s).execCounterDecrement)
      (.one fun s => (Kept.refl s).execLaunchPacketArrive))
  · exact .cons (fun s => (Kept.refl s).execAtomicPerform) (.cons (fun s => (Kept.refl s).execReplayOrderRelease)
      (.one fun s => (Kept.refl s).execDiverge))
  · refine .one fun s => ?_
    split
    · exact (Kept.refl s).appArrive
    · exact (Kept.refl s).execLandingArrival

theorem AllKeep.effectTurns : AllKeep (effectTurns e) := by
  unfold Machine.effectTurns
  split
  · exact .one fun s => (Kept.refl s).execCpysigSignal
  · exact .one fun s => (Kept.refl s).execPsendDelivery
  · exact .one fun s => (Kept.refl s).execRoutineInstall
  · exact .ite .nil (.one fun s => (Kept.refl s).execPeerPutReceive)
  · exact .one fun s => (Kept.refl s).loggedReplay

theorem AllKeep.gangTurns : AllKeep (gangTurns t g) := by
  have close : ∀ s, Keeps s (execEpochClose t.id g.idx s) := fun s => (Kept.refl s).execEpochClose
  have loads : AllKeep (g.cores.zipIdx.flatMap fun x => if g.loaded.contains x.2 || g.ended.contains x.2 then []
      else [execStrandLoad x.1 t.id g.idx x.2, execStrandResume x.1 t.id g.idx x.2]) :=
    .flatMap fun x => .ite .nil (.cons (fun s => (Kept.refl s).execStrandLoad) (.one fun s => (Kept.refl s).execStrandResume))
  unfold Machine.gangTurns
  dsimp only
  split
  · exact .cons (fun s => (Kept.refl s).execAgingReservation) (.cons (fun s => (Kept.refl s).execStarvationYield) (.one close))
  · exact .cons close loads
  · exact .append (.cons (fun s => (Kept.refl s).execStopRequest) (.one close)) loads
  · exact .one close

theorem AllKeep.taskTurns : AllKeep (taskTurns t) := by
  refine .append (.append ?_ ?_) (.flatMap fun g => .gangTurns)
  · exact .cons (fun s => (Kept.refl s).execTaskRelease) (.cons (fun s => (Kept.refl s).execSignatureCheck)
      (.cons (fun s => (Kept.refl s).execDeadlineMiss) (.one fun s => (Kept.refl s).execTaskRetire)))
  · split
    · exact .one fun s => (Kept.refl s).execSuperstepBindRequest
    · exact .nil

theorem AllKeep.launchTurns : AllKeep (s.launchTurns d) := by
  refine .append (.append (.append (.append (.append (.map fun q s => ?_) (.map fun x s => ?_)) (.flatMap fun t => ?_)) ?_) ?_) ?_
  · exact (Kept.refl s).execRingSlotRead
  · exact (Kept.refl s).execWaitingPacketAccept
  · exact .cons (fun s => (Kept.refl s).execTimetableUnbind) (.cons (fun s => (Kept.refl s).execFrameStart)
      (.one fun s => (Kept.refl s).execDegradedSwitch))
  · exact .ite .nil (.cons (fun s => (Kept.refl s).execCounterWatch) (.one fun s => (Kept.refl s).execCounterPoll))
  · exact .ite .nil (.one fun s => (Kept.refl s).execAdmissionPass)
  · exact .ite .nil (.one fun s => (Kept.refl s).execReservationPreempt)

theorem AllKeep.dieTurns : AllKeep (s.dieTurns d) := by
  refine .append (.append (.append (.append (.append (.append (.append (.append (.append .launchTurns (.map fun x s => ?_))
    (.map fun x s => ?_)) ?_) (.map fun p s => ?_)) (.map fun p s => ?_)) (.map fun p s => ?_)) ?_) ?_) ?_
  · exact (Kept.refl s).execDramWriteback
  · exact (Kept.refl s).execBankSwitchComplete
  · exact .ite (.one fun s => (Kept.refl s).execCreditSend) .nil
  · exact (Kept.refl s).execPlateSwitch
  · exact (Kept.refl s).heldFrame
  · exact (Kept.refl s).execControlFrame
  · exact .ite (.one fun s => (Kept.refl s).execUncoreLeaveReset) .nil
  · exact .ite (.one fun s => (Kept.refl s).execCoreDomainLeaveReset) .nil
  · exact .ite (.one fun s => (Kept.refl s).execDieFailover) .nil

theorem AllKeep.hostTurns : AllKeep s.hostTurns :=
  .append (.append (.append (.ite .nil (.one fun s => (Kept.refl s).appIssue)) (.ite .nil (.one fun s => (Kept.refl s).heldDma)))
    (.ite .nil (.one fun s => (Kept.refl s).dramFault))) (.ite .nil (.one fun s => (Kept.refl s).mbServe))

theorem AllKeep.turns : AllKeep s.turns := by
  refine .filter (.append (.append (.append (.append (.append (.append (.append (.append (.append ?_ ?_) ?_) ?_) ?_) ?_) ?_) ?_) ?_)
    .hostTurns)
  · exact .flatMap fun c => .coreTurns
  · exact .map fun w s => (Kept.refl s).execWalkComplete
  · exact .flatMap fun a => .flightTurns
  · exact .flatMap fun e => .effectTurns
  · exact .map fun x s => (Kept.refl s).execCreditReceive
  · exact .map fun x s => (Kept.refl s).execPermitArrive
  · exact .map fun x s => (Kept.refl s).execRevokeComplete
  · exact .flatMap fun t => .taskTurns
  · exact .flatMap fun d => .dieTurns

/-- An input is taken off its list; where it has no occasion, that is all. -/
theorem Kept.inputEvent (hs : Kept false s₀ s) : Keeps s₀ (inputEvent s) := by
  unfold Machine.inputEvent
  split
  · exact hs
  · dsimp only
    split
    · exact hs.frame
    · exact hs.frame.exec

theorem AllKeep.nextEvents : AllKeep s.nextEvents :=
  .append .turns (.ite .nil (.one fun s => (Kept.refl s).inputEvent))

theorem Keeps.afterEvent (ho : Keeps s₀ o) : Keeps s₀ (afterEvent o) := by
  cases o with
  | next t => exact Kept.now ho
  | fault _ => trivial
  | refused _ => trivial

/-- One step, whatever comes: what O59 and O60 say together. -/
theorem Kept.step (hs : Kept false s₀ s) : Keeps s₀ (step s) := by
  have next := AllKeep.nextEvents (s := s)
  unfold Machine.step
  split
  · exact hs.now
  · next e h => exact (hs.keeps (next e (h ▸ List.mem_cons_self) s)).afterEvent
  · next e r _ h =>
    refine Keeps.afterEvent (hs.frame.keeps (next _ ?_ _))
    rw [h, List.getD_eq_getElem?_getD]
    cases found : (e :: r)[Config.choose s.free % (r.length + 1)]? with
    | none => exact List.mem_cons_self
    | some x => exact List.mem_of_getElem? found

/-! ## Dies by name, where all four stand in their order -/

theorem State.name_mem (ha : AllDies s) (d : DieId) : d ∈ s.dies.map (·.id) := by
  rw [show s.dies.map (·.id) = DieId.all from ha]
  cases d <;> decide

theorem State.die_mem (ha : AllDies s) (d : DieId) : s.die d ∈ s.dies := by
  obtain ⟨e, he, rfl⟩ := List.mem_map.1 (State.name_mem ha d)
  rw [State.die_of_mem ha he]
  exact he

/-- A die that is found among them by its name is that die. -/
theorem State.die_eq (ha : AllDies s) (hx : x ∈ s.dies) (hn : x.id = d) : s.die d = x := by
  subst hn
  exact State.die_of_mem ha hx

theorem State.die_updDie {f : Die → Die} (ha : AllDies s) (hf : ∀ x, (f x).id = x.id) : (s.updDie d f).die d = f (s.die d) := by
  have name : (f (s.die d)).id = d := (hf _).trans (s.die_id d)
  have found := State.die_setDie_self s (f (s.die d)) (name.symm ▸ State.name_mem ha d)
  rwa [name] at found

theorem State.die_map {f : Die → Die} (ha : AllDies s) (hf : ∀ x, (f x).id = x.id) :
    ({ s with dies := s.dies.map f } : State).die d = f (s.die d) := by
  refine State.die_eq ?_ (List.mem_map_of_mem (State.die_mem ha d)) ((hf _).trans (s.die_id d))
  have names : (s.dies.map f).map (·.id) = s.dies.map (·.id) := by
    rw [List.map_map]
    exact List.map_congr_left fun x _ => hf x
  exact names.trans ha

theorem State.die_setDie (ha : AllDies s) (hn : x.id = d) : (s.setDie x).die d = x := by
  subst hn
  exact State.die_setDie_self s x (State.name_mem ha _)

/-- What is kept of each die. -/
theorem Kept.die_mark (h : Kept up s t) (ha : AllDies s) (d : DieId) : (t.die d).mark up = (s.die d).mark up := by
  obtain ⟨x, hx, e⟩ := List.mem_map.1 (h.dies ha ▸ List.mem_map_of_mem (f := Die.mark up) (State.die_mem ha d))
  have name : x.id = d := (congrArg Prod.fst e).trans (s.die_id d)
  rw [State.die_eq (h.allDies ha) hx name, e]

/-- No domain of a die has gone down or come up, and no die has been removed. -/
theorem Kept.die_domains (h : Kept true s t) (ha : AllDies s) (d : DieId) :
    (t.die d).uncoreUp = (s.die d).uncoreUp ∧ (t.die d).coresUp = (s.die d).coresUp ∧
      (t.die d).removed = (s.die d).removed := by
  have same := h.die_mark ha d
  simp only [Die.mark, Bool.true_and, Prod.mk.injEq] at same
  exact same.2

theorem Kept.down_eq (h : Kept true s t) (ha : AllDies s) (d : DieId) : t.down d = s.down d :=
  congrArg not (h.die_domains ha d).1

/-! ## Boot and resets -/

theorem State.down_of_table {b : DieId → Bool}
    (h : ∃ f : DieId → Die, s.dies = DieId.all.map f ∧ (∀ d, (f d).id = d) ∧ ∀ d, (!(f d).uncoreUp) = b d) (e : DieId) :
    s.down e = b e := by
  obtain ⟨f, table, names, state⟩ := h
  have ha : AllDies s := by
    unfold AllDies
    rw [table]
    exact DieId.all_map_id names
  have found : f e ∈ s.dies := by
    rw [table]
    exact List.mem_map_of_mem (by cases e <;> decide)
  rw [State.down, State.die_eq ha found (names e), state]

theorem powerGoodBoot_next (s : State) (flash : List (DieId × List Byte)) :
    let board : Rhoath := { s.rhoath with flash := flash ++ s.rhoath.flash }
    ∃ t, exec (.powerGoodBoot flash) s = .next t ∧ t.tasks = [] ∧ t.mem = [] ∧
      ∀ e, t.down e = ((board.failing.contains .md0 && board.failing.contains .md1) ||
        !Config.signatureHolds (board.bootImage none) || board.failing.contains e) := by
  have up : ∀ (u : State) e n, ({ u.bornDie e true with epoch := n } : Die).uncoreUp = true := fun u e n => by
    have mark := u.bornDie_mark (d := e) true
    simp only [Die.mark, Bool.true_and, Prod.mk.injEq] at mark
    exact mark.2.1
  refine ⟨_, rfl, rfl, rfl, State.down_of_table ?_⟩
  dsimp only
  refine ⟨_, rfl, fun d => ?_, fun d => ?_⟩
  · split
    · rfl
    · exact State.bornDie_id _ _
  · split
    · next off => exact off.symm
    · next on =>
      rw [Bool.not_eq_true] at on
      rw [up]
      exact on.symm

theorem uncoreLeaveReset_next (ha : AllDies s) (hd : s.down d = true) (hf : s.rhoath.faultN = false)
    (hr : s.rhoath.recovering.contains d = false) :
    ∃ t, exec (.uncoreLeaveReset d) s = .next t ∧ t.down d = false ∧ (t.die d).coresUp = false ∧
      ∀ a, a < dramSize d → memGet t.mem (dieBase d + a) = 0 := by
  have ran : exec (.uncoreLeaveReset d) s = execUncoreLeaveReset d s := rfl
  unfold execUncoreLeaveReset at ran
  rw [hd, hf, hr] at ran
  refine ⟨_, ran.trans (if_neg Bool.false_ne_true), ?_⟩
  have forgot : AllDies { s with dies := s.dies.map fun x => x.forgetDie d } := by
    refine Kept.allDies (up := false) (s := s) (Kept.changesDies (.refl s) ?_) ha
    exact fun _ => rfl
  have born : ∀ u : State, AllDies u → ((u.zeroUncore d).setDie ((u.zeroUncore d).bornDie d false)).die d =
      (u.zeroUncore d).bornDie d false :=
    fun u hu => State.die_setDie (s := u.zeroUncore d) hu (State.bornDie_id _ _)
  have mark := (State.zeroUncore { s with dies := s.dies.map fun x => x.forgetDie d } d).bornDie_mark (d := d) false
  simp only [Die.mark, Bool.true_and, Prod.mk.injEq] at mark
  obtain ⟨-, up, cores, -⟩ := mark
  refine ⟨?_, ?_, fun a h => ?_⟩
  · rw [State.down, born _ forgot, up]
    rfl
  · rw [born _ forgot, cores]
  · simp only [State.setDie_mem, State.zeroUncore, memGet_memZero]
    rw [if_pos (by omega : dieBase d ≤ dieBase d + a ∧ dieBase d + a < dieBase d + dramSize d)]
    split
    · rfl
    · split <;> rfl

theorem coreDomainLeaveReset_next (ha : AllDies s) (hd : s.down d = false) (hc : (s.die d).coresUp = false) :
    ∃ t, exec (.coreDomainLeaveReset d) s = .next t ∧ (t.die d).coresUp = true ∧
      ∀ a, a < 0x10000000000 → memGet t.mem (dieBase d + 0x110000000000 + a) = 0 := by
  have ran : exec (.coreDomainLeaveReset d) s = execCoreDomainLeaveReset d s := rfl
  unfold execCoreDomainLeaveReset at ran
  rw [hd, hc] at ran
  refine ⟨_, ran.trans (if_neg Bool.false_ne_true), ?_, fun a h => ?_⟩
  · have risen := State.die_updDie (s := s.zeroCores d) (d := d) (f := fun x => { x with coresUp := true }) ha fun _ => rfl
    exact congrArg Die.coresUp risen
  · simp only [State.updDie, State.setDie_mem, State.zeroCores, memGet_memZero]
    split
    · rfl
    · rw [if_pos (by omega)]

theorem State.coresDown_die (ha : AllDies s) : (s.coresDown d).die d = { s.die d with coresUp := false } := by
  unfold State.coresDown
  dsimp only
  refine (State.die_updDie ?_ ?_).trans ?_
  · exact ha
  · exact fun _ => rfl
  · rfl

theorem State.darken_allDies (ha : AllDies s) : AllDies (s.darken d) := (Kept.refl (up := false) s).darken.allDies ha

theorem State.darken_domains (ha : AllDies s) :
    ((s.darken d).die d).uncoreUp = false ∧ ((s.darken d).die d).coresUp = false := by
  have inner : AllDies (s.coresDown d) := (Kept.refl (up := false) s).coresDown.allDies ha
  have found : (s.darken d).die d = { (s.coresDown d).die d with
      uncoreUp := false, holds := [], dirty := [], lines := [], switches := [], launchWait := []
      reserve := [], held := [] } := by
    unfold State.darken
    dsimp only
    refine (State.die_updDie ?_ ?_).trans ?_
    · exact inner
    · exact fun _ => rfl
    · rfl
  rw [found, State.coresDown_die ha]
  exact ⟨rfl, rfl⟩

theorem State.darken_die_ne (h : e ≠ d) : (s.darken d).die e = s.die e := by
  unfold State.darken State.coresDown
  refine (State.die_setDie_ne _ _ ?_).trans (State.die_setDie_ne _ _ ?_)
  · exact fun same => h (same.trans (State.die_id _ _))
  · exact fun same => h (same.trans (State.die_id _ _))

theorem State.down_darken (ha : AllDies s) : (s.darken d).down e = (e == d || s.down e) := by
  by_cases h : e = d
  · subst h
    rw [State.down, (State.darken_domains ha).1, beq_self_eq_true]
    rfl
  · rw [State.down, State.darken_die_ne h, beq_false_of_ne h]
    rfl

theorem State.down_darkenAll (l : List DieId) (ha : AllDies s) :
    (l.foldl State.darken s).down e = (l.contains e || s.down e) := by
  induction l generalizing s with
  | nil => rfl
  | cons d r ih =>
    rw [List.foldl_cons, ih (State.darken_allDies ha), State.down_darken ha, List.contains_cons,
      Bool.or_left_comm, Bool.or_assoc]

theorem State.allDown_down (ha : AllDies s) (e : DieId) : s.allDown.down e = true := by
  have began : AllDies (DieId.all.foldl State.darken { s with tasks := [] }) :=
    (Kept.foldl (s₀ := s) (up := false) (Kept.refl s).frame fun _ _ h => h.darken).allDies ha
  have kept : Kept true (DieId.all.foldl State.darken { s with tasks := [] }) s.allDown := by
    refine Kept.frame (s := { DieId.all.foldl State.darken { s with tasks := [] } with dies := _ })
      ((Kept.refl _).changesDies ?_)
    exact fun _ => rfl
  rw [kept.down_eq began, State.down_darkenAll _ (s := { s with tasks := [] }) ha,
    show DieId.all.contains e = true by cases e <;> rfl, Bool.true_or]

theorem allDown_next (ha : AllDies s) :
    ∀ i ∈ [Instr.rhoathUe, .thermalShutdown], ∃ t, exec i s = .next t ∧ t.rhoath.faultN = true ∧ ∀ e, t.down e = true := by
  intro i hi
  have down := State.allDown_down ha
  have fault : s.allDown.rhoath.faultN = true := rfl
  rcases List.mem_pair.1 hi with rfl | rfl
  · refine ⟨{ s.allDown with rhoath := { s.allDown.rhoath with ue := true } }, rfl, fault, fun e => ?_⟩
    unfold State.down State.die at down ⊢
    exact down e
  · exact ⟨s.allDown, rfl, fault, down⟩

/-- The reset of an uncore: its tasks are forgotten, and its registers go to their reset values. -/
theorem uncoreResetRequest_next (ha : AllDies s) (hd : s.down d = false) :
    ∃ t, exec (.uncoreResetRequest d) s = .next t ∧ (t.die d).coresUp = false ∧
      (t.down d = true ∨ Instr.uncoreResetRequest d ∈ t.inputs) := by
  have ran : exec (.uncoreResetRequest d) s = execUncoreResetRequest d s := rfl
  have inner : AllDies (s.coresDown d) := (Kept.refl (up := false) s).coresDown.allDies ha
  unfold execUncoreResetRequest at ran
  rw [hd, if_neg Bool.false_ne_true] at ran
  dsimp only at ran
  split at ran
  · refine ⟨_, ran, ?_, .inr (List.mem_append_right _ List.mem_cons_self)⟩
    exact congrArg Die.coresUp (State.coresDown_die ha)
  · refine ⟨_, ran, ?_⟩
    have kept : ∀ (l : List TaskId) (f : Die → Die), (∀ x, (f x).mark true = x.mark true) → Kept true ((s.coresDown d).darken d)
        ((l.foldl (fun s t => (s.endTask t 0 0 0).forget t) ((s.coresDown d).darken d)).updDie d f) := fun _ _ hf =>
      Kept.updDieSame ((Kept.refl _).foldl fun _ _ h => h.endTask.forget) hf
    obtain ⟨uncore, cores⟩ := State.darken_domains (d := d) inner
    obtain ⟨uncore', cores', -⟩ := (kept (((s.coresDown d).tasks.filter fun t => homeOf t.id == d).map (·.id))
      (fun x => { x with regs := [], tts := [], qseq := [], imageCache := [] })
      fun _ => rfl).die_domains (State.darken_allDies inner) d
    exact ⟨cores'.trans cores, .inl (congrArg not (uncore'.trans uncore))⟩

theorem dieFailover_next (ha : AllDies s) (hd : s.down d = false) (hr : (s.die d).removed = false) :
    ∃ t, exec (.dieFailover d) s = .next t ∧ t.down d = true ∧ (t.die d).removed = true := by
  obtain ⟨t, e, kept⟩ := execDieFailover_next (up := true) hr hd
  have dark : AllDies (s.darken d) := State.darken_allDies ha
  have out : (s.takenOut d).die d = { (s.darken d).die d with removed := true } := by
    change ((s.darken d).updDie d fun x => { x with removed := true }).die d = _
    refine (State.die_updDie dark ?_).trans ?_
    · exact fun _ => rfl
    · rfl
  have there : AllDies (s.takenOut d) := (Kept.updDie (.refl (s.darken d))).frame.allDies dark
  obtain ⟨uncore, -, removed⟩ := kept.die_domains there d
  refine ⟨t, e, ?_, ?_⟩
  · rw [State.down, uncore, out, (State.darken_domains ha).1]
    rfl
  · rw [removed, out]

/-! ## Records leave all but memory, time and the count of their ring -/

theorem State.wrRec_eq (s : State) (pa v : Nat) : ∃ m, s.wrRec pa v = { s with mem := m } := by
  unfold State.wrRec
  dsimp only
  split
  · exact ⟨_, rfl⟩
  · split
    · split
      · split
        · exact ⟨_, rfl⟩
        · exact ⟨_, rfl⟩
      · exact ⟨_, rfl⟩
    · exact ⟨_, rfl⟩

theorem State.wrRecs_eq (s : State) (a b c e q0 q1 q2 q3 : Nat) :
    ∃ m, (((s.wrRec a q0).wrRec b q1).wrRec c q2).wrRec e q3 = { s with mem := m } := by
  obtain ⟨m₀, e₀⟩ := s.wrRec_eq a q0
  obtain ⟨m₁, e₁⟩ := ({ s with mem := m₀ } : State).wrRec_eq b q1
  obtain ⟨m₂, e₂⟩ := ({ s with mem := m₁ } : State).wrRec_eq c q2
  rw [e₀, e₁, e₂]
  exact ({ s with mem := m₂ } : State).wrRec_eq e q3

theorem State.ringPut_eq (s : State) : ∃ v m, s.ringPut d ring cnt q0 q1 q2 q3 = { s.setReg d cnt v with mem := m } := by
  unfold State.ringPut
  dsimp only
  split
  · exact ⟨_, _, rfl⟩
  · exact ⟨_, State.wrRecs_eq _ _ _ _ _ _ _ _ _⟩

theorem State.faultRec_eq (s : State) : ∃ v m fr n, s.faultRec d ctx kind va pa detail master =
    { s.setReg d 0xA118 v with mem := m, frame := fr, free := n } := by
  unfold State.faultRec
  obtain ⟨v, m, e⟩ := s.now.ringPut_eq
  exact ⟨v, m, _, _, e⟩

/-! ## Mailbox commands -/

theorem cfgReg_setMb (s : State) (off v : Nat) : cfgReg (s.setMb off v) off = v % 2 ^ 64 := by
  simp only [cfgReg, State.setMb, Rhoath.put, List.find?_cons, beq_self_eq_true, BitVec.toNat_ofNat]

/-- What MBSTAT reads with status `m` (14 R418). -/
theorem mbStatus_reads (s : State) (hm : m < 2 ^ 8) :
    cfgReg (s.mbStatus m) 0x20 = (if s.rhoath.mbq = [] then 0 else 2 ^ 63) + m := by
  unfold State.mbStatus
  rw [cfgReg_setMb, Nat.mod_eq_of_lt hm]
  simp only [List.isEmpty_iff]
  split <;> omega

/-- A command that has completed with status `m`. -/
def Completed (s : State) (o : Out) (m : Nat) : Prop :=
  ∃ t, o = .next t ∧ cfgReg t 0x20 = (if s.rhoath.mbq = [] then 0 else 2 ^ 63) + m ∧ t.core = s.core

theorem mbDone_completed (s u : State) (args : List Nat) (hm : m < 2 ^ 8)
    (hq : u.rhoath.mbq = s.rhoath.mbq) (hc : u.core = s.core) :
    Completed s (.next (u.mbDone args m)) m := by
  have set : ∀ l : List (Nat × Nat), (l.foldl (fun (s : State) x => s.setMb (8 + 8 * x.2) x.1) u).rhoath.mbq = u.rhoath.mbq ∧
      (l.foldl (fun (s : State) x => s.setMb (8 + 8 * x.2) x.1) u).core = u.core := fun l =>
    List.foldlRecOn (motive := fun t : State => t.rhoath.mbq = u.rhoath.mbq ∧ t.core = u.core) _ _ ⟨rfl, rfl⟩ fun _ h _ _ => h
  obtain ⟨queue, core⟩ := set args.zipIdx
  refine ⟨_, rfl, ?_, core.trans hc⟩
  unfold State.mbDone
  rw [mbStatus_reads _ hm, queue, hq]

theorem Completed.core (h : Completed s o m) : ∃ t, o = .next t ∧ t.core = s.core := by
  obtain ⟨t, e, -, core⟩ := h
  exact ⟨t, e, core⟩

theorem ctxKey_reserved (hc : s.channel = true) (hx : 16 ≤ x.toNat) : Completed s (exec (.ctxKey x) s) 1 := by
  change Completed s (execCtxKey x s) 1
  unfold execCtxKey
  rw [hc, Bool.not_true, if_neg Bool.false_ne_true, if_pos hx]
  exact mbDone_completed s s _ (by decide) rfl rfl

theorem ctxKey_busy (hc : s.channel = true) (hx : x.toNat < 16) (hb : s.busyCtx x.toNat = true) :
    Completed s (exec (.ctxKey x) s) 0xC := by
  change Completed s (execCtxKey x s) 0xC
  unfold execCtxKey
  rw [hc, Bool.not_true, if_neg Bool.false_ne_true, if_neg (Nat.not_le.2 hx), if_pos hb]
  exact mbDone_completed s s _ (by decide) rfl rfl

theorem ctxKey_fresh (hc : s.channel = true) (hx : x.toNat < 16) (hb : s.busyCtx x.toNat = false) :
    Completed s (exec (.ctxKey x) s) 0 := by
  change Completed s (execCtxKey x s) 0
  unfold execCtxKey
  rw [hc, Bool.not_true, if_neg Bool.false_ne_true, if_neg (Nat.not_le.2 hx), hb, if_neg Bool.false_ne_true]
  exact mbDone_completed s _ _ (by decide) rfl rfl

theorem ofCode_code (d : DieId) : (if d.code < 4 then DieId.ofCode d.code else none) = some d := by
  cases d <;> rfl

theorem clearRetired_reserved (hc : s.channel = true) (hx : 4 ≤ x.toNat) : Completed s (exec (.clearRetired x) s) 1 := by
  change Completed s (execClearRetired x s) 1
  unfold execClearRetired
  rw [hc, Bool.not_true, if_neg Bool.false_ne_true, if_neg (Nat.not_lt.2 hx)]
  exact mbDone_completed s s _ (by decide) rfl rfl

theorem clearRetired_die (hc : s.channel = true) (hx : x.toNat = d.code) :
    Completed s (exec (.clearRetired x) s) (if (s.die d).coresUp then 0xC else 0) := by
  change Completed s (execClearRetired x s) _
  unfold execClearRetired
  rw [hc, Bool.not_true, if_neg Bool.false_ne_true, hx, ofCode_code]
  dsimp only
  split
  · exact mbDone_completed s s _ (by decide) rfl rfl
  · exact mbDone_completed s _ _ (by decide) rfl rfl

theorem recover_reserved (hc : s.channel = true) (hx : 4 ≤ x.toNat) : Completed s (exec (.recover x y z) s) 1 := by
  change Completed s (execRecover x y z s) 1
  unfold execRecover
  rw [hc, Bool.not_true, if_neg Bool.false_ne_true, if_neg (Nat.not_lt.2 hx)]
  exact mbDone_completed s s _ (by decide) rfl rfl

theorem recover_idle (hc : s.channel = true) (hx : x.toNat = d.code) (hr : s.rhoath.recovering.contains d = false) :
    Completed s (exec (.recover x y z) s) (if (s.rhoathRead y.toNat z.toNat).isSome then 0xC else 1) := by
  change Completed s (execRecover x y z s) _
  unfold execRecover
  rw [hc, Bool.not_true, if_neg Bool.false_ne_true, hx, ofCode_code]
  dsimp only
  split
  · next e =>
    rw [e]
    exact mbDone_completed s s _ (by decide) rfl rfl
  · next e =>
    rw [e, hr, Bool.not_false, if_pos rfl]
    exact mbDone_completed s s _ (by decide) rfl rfl

theorem powerCap_reserved (hc : s.channel = true) (hx : x.toNat < 300 ∨ 1173 < x.toNat) :
    Completed s (exec (.powerCap x) s) 1 := by
  change Completed s (execPowerCap x s) 1
  unfold execPowerCap
  rw [hc, Bool.not_true, if_neg Bool.false_ne_true, if_pos (by simpa using hx)]
  exact mbDone_completed s s _ (by decide) rfl rfl

/-- A command ends with a status, and the core stays. -/
theorem mbDone_core (s u : State) (args : List Nat) (m : Nat) (hc : u.core = s.core) :
    ∃ t, (Host.Outcome.next (u.mbDone args m) : Out) = .next t ∧ t.core = s.core := by
  have set := List.foldlRecOn (motive := fun t : State => t.core = u.core) args.zipIdx
    (fun (s : State) x => s.setMb (8 + 8 * x.2) x.1) rfl fun _ h _ _ => h
  exact ⟨_, rfl, set.trans hc⟩

theorem powerCap_core (hc : s.channel = true) : ∃ t, exec (.powerCap x) s = .next t ∧ t.core = s.core := by
  change ∃ t, execPowerCap x s = .next t ∧ t.core = s.core
  unfold execPowerCap
  rw [hc, Bool.not_true, if_neg Bool.false_ne_true]
  split
  · exact mbDone_core s s _ _ rfl
  · exact mbDone_core s _ _ _ rfl

theorem powerCap_set (hc : s.channel = true) (hl : 300 ≤ x.toNat) (hh : x.toNat ≤ 1173) :
    ∃ t, exec (.powerCap x) s = .next t ∧ t.rhoath.powerCap = x.toNat := by
  change ∃ t, execPowerCap x s = .next t ∧ _
  unfold execPowerCap
  rw [hc, Bool.not_true, if_neg Bool.false_ne_true, if_neg (by simp only [Bool.or_eq_true, decide_eq_true_eq]; omega)]
  exact ⟨_, rfl, rfl⟩

theorem mbueRead_next (hc : s.channel = true) : exec .mbueRead s = .next { s with
    reply := some (if s.rhoath.ue then 1 else 0), rhoath := { s.rhoath with ue := false } } := by
  change execMbueRead s = _
  unfold execMbueRead
  rw [hc, Bool.not_true, if_neg Bool.false_ne_true]
  cases s.rhoath.ue <;> rfl

theorem ctxKey_core (hc : s.channel = true) : ∃ t, exec (.ctxKey x) s = .next t ∧ t.core = s.core := by
  rcases Nat.lt_or_ge x.toNat 16 with hx | hx
  · cases hb : s.busyCtx x.toNat with
    | true => exact (ctxKey_busy hc hx hb).core
    | false => exact (ctxKey_fresh hc hx hb).core
  · exact (ctxKey_reserved hc hx).core

theorem exists_code {n : Nat} (h : n < 4) : ∃ d : DieId, n = d.code := by
  rcases (by omega : n = 0 ∨ n = 1 ∨ n = 2 ∨ n = 3) with rfl | rfl | rfl | rfl
  · exact ⟨.cd0, rfl⟩
  · exact ⟨.cd1, rfl⟩
  · exact ⟨.md0, rfl⟩
  · exact ⟨.md1, rfl⟩

theorem clearRetired_core (hc : s.channel = true) : ∃ t, exec (.clearRetired x) s = .next t ∧ t.core = s.core := by
  rcases Nat.lt_or_ge x.toNat 4 with hx | hx
  · obtain ⟨d, hd⟩ := exists_code hx
    exact (clearRetired_die hc hd).core
  · exact (clearRetired_reserved hc hx).core

theorem recover_core (hc : s.channel = true) : ∃ t, exec (.recover x y z) s = .next t ∧ t.core = s.core := by
  change ∃ t, execRecover x y z s = .next t ∧ t.core = s.core
  unfold execRecover
  rw [hc, Bool.not_true, if_neg Bool.false_ne_true]
  split
  · exact mbDone_core s s _ _ rfl
  · split
    · exact mbDone_core s s _ _ rfl
    · split
      · exact mbDone_core s s _ _ rfl
      · split
        · exact mbDone_core s s _ _ rfl
        · exact mbDone_core s _ _ _ rfl

/-! ## SPDM requests -/

/-- An answer of the responder: nothing but the reply, the free values and Rhoath's record changes. -/
def Answers (s : State) (o : Out) : Prop :=
  ∃ t, o = .next t ∧ { t with replyData := s.replyData, free := s.free, rhoath := s.rhoath } = s

theorem Answers.ite {p : Prop} [Decidable p] {o q : Out} (ho : Answers s o) (hq : Answers s q) :
    Answers s (if p then o else q) := by
  split
  · exact ho
  · exact hq

theorem answer_answers (hc : s.spdmUp ch = true) : Answers s (s.answer row ch head phase) := by
  unfold State.answer
  rw [hc, Bool.not_true, if_neg Bool.false_ne_true]
  exact ⟨_, rfl, rfl⟩

theorem spdmError_answers (hc : s.spdmUp ch = true) : Answers s (s.spdmError row ch code req) := by
  unfold State.spdmError
  rw [hc, Bool.not_true, if_neg Bool.false_ne_true]
  exact ⟨_, rfl, rfl⟩

theorem getMeasurements_answers (hc : s.spdmUp ch = true) : Answers s (execGetMeasurements ch n s) := by
  unfold execGetMeasurements
  refine .ite (answer_answers hc) (.ite (answer_answers hc) ?_)
  split
  · exact answer_answers hc
  · exact spdmError_answers hc

/-- Every request is answered on a channel that is up. -/
theorem request_answers (hc : s.spdmUp ch = true) : ∀ i ∈ [Instr.getVersion ch, .getCapabilities ch, .negotiateAlgorithms ch,
    .getDigests ch, .getCertificate ch n, .challenge ch n, .getMeasurements ch n, .keyExchange (ch, n), .finish ch, .endSession
    ch, .unsupportedRequest ch code], Answers s (exec i s) := by
  intro i hi
  simp only [List.mem_cons, List.not_mem_nil, or_false] at hi
  rcases hi with rfl | rfl | rfl | rfl | rfl | rfl | rfl | rfl | rfl | rfl | rfl
  · change Answers s (execGetVersion ch s)
    exact answer_answers hc
  · change Answers s (execGetCapabilities ch s)
    exact answer_answers hc
  · change Answers s (execNegotiateAlgorithms ch s)
    exact answer_answers hc
  · change Answers s (execGetDigests ch s)
    exact answer_answers hc
  · exact .ite (answer_answers hc) (spdmError_answers hc)
  · exact .ite (answer_answers hc) (spdmError_answers hc)
  · exact getMeasurements_answers hc
  · exact .ite (answer_answers hc) (spdmError_answers hc)
  · exact .ite (answer_answers hc) (spdmError_answers hc)
  · exact .ite (answer_answers hc) (spdmError_answers hc)
  · exact spdmError_answers hc

theorem spdmServe_answers (hc : s.spdmUp ch = true) : Answers s (spdmServe ch l s) := by
  unfold spdmServe
  dsimp only
  split
  · exact answer_answers hc
  · exact .ite (answer_answers hc) (spdmError_answers hc)
  · exact .ite (answer_answers hc) (spdmError_answers hc)
  · exact answer_answers hc
  · exact getMeasurements_answers hc
  · exact answer_answers hc
  · exact answer_answers hc
  · exact .ite (answer_answers hc) (spdmError_answers hc)
  · exact .ite (answer_answers hc) (spdmError_answers hc)
  · exact .ite (answer_answers hc) (spdmError_answers hc)
  · exact spdmError_answers hc

/-- The reply to GET_MEASUREMENTS of a block begins with its 32 bytes. -/
theorem getMeasurements_block (hc : s.spdmUp ch = true) (h0 : n ≠ 0) (hf : n ≠ 0xFF) (hm : s.measurement n = some m) :
    ∃ t, exec (.getMeasurements ch n) s = .next t ∧ t.replyData.take 32 = natBytes m 32 := by
  change ∃ t, execGetMeasurements ch n s = .next t ∧ _
  unfold execGetMeasurements State.answer
  rw [if_neg h0, if_neg hf, hm]
  dsimp only
  rw [hc, Bool.not_true, if_neg Bool.false_ne_true]
  exact ⟨_, rfl, List.take_left' (natBytes_length m 32)⟩

theorem getMeasurements_image (hc : s.spdmUp ch = true) (h1 : 1 ≤ n) (h5 : n ≤ 5) :
    ∃ t, exec (.getMeasurements ch n) s = .next t ∧
      t.replyData.take 32 = natBytes (s.rhoath.measure ((none :: DieId.all.map some).getD (n - 1) none)) 32 := by
  refine getMeasurements_block hc (by omega) (by omega) ?_
  unfold State.measurement
  split
  · omega
  · omega
  · omega
  · omega
  · rw [if_pos (by simp only [Bool.and_eq_true, decide_eq_true_eq]; omega)]

theorem getMeasurements_directory (hc : s.spdmUp ch = true) (h6 : 6 ≤ n) (h9 : n ≤ 9) :
    ∃ t, exec (.getMeasurements ch n) s = .next t ∧
      t.replyData.take 32 = natBytes (Config.sm3 (s.die (DieId.all.getD (n - 6) .cd0)).directoryBytes) 32 := by
  refine getMeasurements_block hc (by omega) (by omega) ?_
  rcases (by omega : n = 6 ∨ n = 7 ∨ n = 8 ∨ n = 9) with rfl | rfl | rfl | rfl <;> rfl

theorem storeBytes_core (s : State) : (s.storeBytes ctx pa l).core = s.core := by
  unfold State.storeBytes
  dsimp only
  split <;> rfl

theorem spdm_core (hc : s.channel = true) : ∃ t, exec (.spdm x y z) s = .next t ∧ t.core = s.core := by
  change ∃ t, execSpdm x y z s = .next t ∧ t.core = s.core
  unfold execSpdm
  rw [hc, Bool.not_true, if_neg Bool.false_ne_true]
  split
  · exact mbDone_core s s _ _ rfl
  · next l e =>
    obtain ⟨t, served, same⟩ := spdmServe_answers (ch := .mailbox) (l := l) (s := s) hc
    have core : t.core = s.core := by
      have cores := congrArg State.core same
      exact cores
    rw [served]
    dsimp only
    split
    · exact mbDone_core s s _ _ rfl
    · exact mbDone_core s _ _ _ ((storeBytes_core t).trans core)

theorem command_next (hc : s.channel = true) :
    ∀ i ∈ [Instr.ctxKey x, .clearRetired x, .recover x y z, .spdm x y z, .powerCap x],
    ∃ t, exec i s = .next t ∧ t.core = s.core := by
  intro i hi
  simp only [List.mem_cons, List.not_mem_nil, or_false] at hi
  rcases hi with rfl | rfl | rfl | rfl | rfl
  · exact ctxKey_core hc
  · exact clearRetired_core hc
  · exact recover_core hc
  · exact spdm_core hc
  · exact powerCap_core hc

/-! ## Links and heat -/

/-- A width is applied only while no frequency request of the link stands (14 R421). -/
theorem no_freq_of_width {r : Rhoath} (h : r.nextChange n = some (.width w)) :
    ∀ x ∈ r.linkReqs, x.1 = n → isFreq x.2 = false := by
  intro x hx hn
  unfold Rhoath.nextChange at h
  dsimp only at h
  have mine : x.2 ∈ (r.linkReqs.filter (·.1 == n)).map (·.2) := List.mem_map_of_mem (List.mem_filter.2 ⟨hx, by simpa using hn⟩)
  cases f : ((r.linkReqs.filter (·.1 == n)).map (·.2)).find? isFreq with
  | none => simpa using List.find?_eq_none.1 f _ mine
  | some y =>
    rw [f, Option.some_or] at h
    have freq := List.find?_some f
    rw [Option.some.inj h] at freq
    cases freq

theorem setLink_getD {l : List Nat} (h : n < 4) : (setLink l n v).getD n 0 = v := by
  unfold setLink
  rw [List.getD_eq_getElem?_getD, List.getElem?_map, List.getElem?_range h]
  simp

theorem linkEnds_lt (h : (linkEnds n).find? p = some d) : n < 4 := by
  by_contra hn
  have none : linkEnds n = [] := by
    unfold linkEnds
    split
    case h_5 => rfl
    all_goals omega
  rw [none] at h
  cases h

/-- What a record of an event leaves of a state. -/
theorem State.faultRec_core (s : State) : (s.faultRec d ctx kind va pa detail master).core = s.core := by
  obtain ⟨v, m, fr, n, e⟩ := s.faultRec_eq (d := d) (ctx := ctx) (kind := kind)
    (va := va) (pa := pa) (detail := detail) (master := master)
  rw [e]
  rfl

theorem State.faultRec_rhoath (s : State) : (s.faultRec d ctx kind va pa detail master).rhoath = s.rhoath := by
  obtain ⟨v, m, fr, n, e⟩ := s.faultRec_eq (d := d) (ctx := ctx) (kind := kind)
    (va := va) (pa := pa) (detail := detail) (master := master)
  rw [e]
  rfl

theorem State.faultRec_clockStep (s : State) (ha : AllDies s) :
    ((s.faultRec d ctx kind va pa detail master).die d).clockStep = (s.die d).clockStep := by
  obtain ⟨v, m, fr, n, e⟩ := s.faultRec_eq (d := d) (ctx := ctx) (kind := kind)
    (va := va) (pa := pa) (detail := detail) (master := master)
  rw [e]
  have put := State.die_updDie (s := s) (d := d) (f := fun x => x.setReg 0xA118 (.ofNat 64 v)) ha fun _ => rfl
  exact (congrArg Die.clockStep put :)

theorem linkRetrain_next {reqs : List LinkChange}
    (hc : ({ s.rhoath with linkReqs := s.rhoath.linkReqs ++ reqs.map fun x => (n, x) } : Rhoath).nextChange n = some change)
    (hr : reqs.all (requestOk n) = true) (he : (linkEnds n).find? (fun d => !s.down d) = some e)
    (hn : n < s.rhoath.retrainFails.length) :
    ∃ t, exec (.linkRetrain n reqs failed) s = .next t ∧ t.core = s.core ∧
      (t.rhoath.retrainFails.getD n 0 = if failed then s.rhoath.retrainFails.getD n 0 + 1 else 0) ∧
      (failed = false → (∀ w, change = .width w → t.rhoath.widths.getD n 0 = w) ∧
        ∀ c f, change = .freq c f → t.rhoath.freqs.getD c.code 0 = f) := by
  have fails : ∀ v, (s.rhoath.retrainFails.set n v).getD n 0 = v := fun v => by
    rw [List.getD_eq_getElem?_getD, List.getElem?_set_self hn, Option.getD_some]
  have ran : exec (.linkRetrain n reqs failed) s = execLinkRetrain n reqs failed s := rfl
  have he' : (linkEnds n).find? (fun d => !State.down { s with
      rhoath := { s.rhoath with linkReqs := s.rhoath.linkReqs ++ reqs.map fun x => (n, x) } } d) = some e := he
  unfold execLinkRetrain at ran
  dsimp only at ran
  rw [hc, if_pos hr, he'] at ran
  refine ⟨_, ran, ?_, ?_, fun hf => ?_⟩
  · exact State.faultRec_core _
  · dsimp only
    cases failed with
    | true =>
      rw [if_pos rfl, if_pos rfl, State.faultRec_rhoath]
      exact fails _
    | false =>
      rw [if_neg Bool.false_ne_true, if_neg Bool.false_ne_true, State.faultRec_rhoath]
      cases change with
      | width w => exact fails _
      | freq c f => exact fails _
  · subst hf
    dsimp only
    rw [if_neg Bool.false_ne_true]
    refine ⟨fun w hw => ?_, fun c f hw => ?_⟩
    · subst hw
      exact setLink_getD (linkEnds_lt he)
    · subst hw
      exact setLink_getD (by cases c <;> decide)

/-- The clock step after a THERMAL (14 R422). -/
def State.stepAfter (s : State) (d : DieId) (h : HeatCause) : Nat :=
  match h with
  | .cool _ => if s.rhoath.powerCap < wattsOf h then (s.die d).clockStep else (s.die d).clockStep - 1
  | .overCap _ => if s.rhoath.powerCap < wattsOf h then (s.die d).clockStep + 1 else (s.die d).clockStep
  | _ => (s.die d).clockStep + 1

/-- The state a THERMAL leaves before it records its event. -/
def State.heated (s : State) (d : DieId) (h : HeatCause) : State :=
  ({ s with rhoath := { s.rhoath with power := wattsOf h } } : State).updDie d fun x => { x with clockStep := s.stepAfter d h }

theorem exec_thermal (s : State) : exec (.thermal d h) s =
    if s.down d || s.stepAfter d h = (s.die d).clockStep || 3 < s.stepAfter d h then .fault (.notEnabled "THERMAL") else
      .next ((s.heated d h).faultRec d 0 0x16 0 0 (s.stepAfter d h) (s.luMaster d)) := rfl

theorem thermal_next (ha : AllDies s) (hd : s.down d = false) (hm : s.stepAfter d h ≤ 3)
    (hn : s.stepAfter d h ≠ (s.die d).clockStep) :
    ∃ t, exec (.thermal d h) s = .next t ∧ (t.die d).clockStep = s.stepAfter d h ∧ t.rhoath.power = wattsOf h := by
  have put := State.die_updDie (s := { s with rhoath := { s.rhoath with power := wattsOf h } }) (d := d)
    (f := fun x => { x with clockStep := s.stepAfter d h }) ha fun _ => rfl
  have stand : AllDies { s with rhoath := { s.rhoath with power := wattsOf h } } := ha
  have moved : AllDies (s.heated d h) := (Kept.updDie (.refl _)).allDies stand
  refine ⟨_, (exec_thermal s).trans (if_neg ?_), ?_, ?_⟩
  · simp only [hd, Bool.false_or, Bool.or_eq_true, decide_eq_true_eq]
    omega
  · rw [State.faultRec_clockStep _ moved]
    exact (congrArg Die.clockStep put :)
  · exact congrArg Rhoath.power (State.faultRec_rhoath _)

/-- A die that is hot, or whose power is above the cap, slows by one step. -/
theorem thermal_slows (ha : AllDies s) (hd : s.down d = false) (hc : (s.die d).clockStep < 3)
    (hh : h = .hot w ∨ h = .hotter w ∨ (h = .overCap w ∧ s.rhoath.powerCap < w)) :
    ∃ t, exec (.thermal d h) s = .next t ∧ (t.die d).clockStep = (s.die d).clockStep + 1 ∧ t.rhoath.power = w := by
  have step : s.stepAfter d h = (s.die d).clockStep + 1 ∧ wattsOf h = w := by
    obtain rfl | rfl | ⟨rfl, above⟩ := hh
    · exact ⟨rfl, rfl⟩
    · exact ⟨rfl, rfl⟩
    · exact ⟨if_pos above, rfl⟩
  obtain ⟨t, ran, clock, power⟩ := thermal_next (h := h) ha hd (by omega) (by omega)
  exact ⟨t, ran, clock.trans step.1, power.trans step.2⟩

/-- A die that is cool and within the cap quickens by one step. -/
theorem thermal_quickens (ha : AllDies s) (hd : s.down d = false) (hp : 0 < (s.die d).clockStep) (hc : (s.die d).clockStep ≤ 4)
    (hw : w ≤ s.rhoath.powerCap) :
    ∃ t, exec (.thermal d (.cool w)) s = .next t ∧ (t.die d).clockStep = (s.die d).clockStep - 1 ∧ t.rhoath.power = w := by
  have step : s.stepAfter d (.cool w) = (s.die d).clockStep - 1 := if_neg (Nat.not_lt.2 hw)
  obtain ⟨t, ran, clock, power⟩ := thermal_next (h := .cool w) ha hd (by omega) (by omega)
  exact ⟨t, ran, clock.trans step, power⟩

/-! ## The queues, the tasks and the idle fabric through a failover (14 R404, R405) -/

/-- The name of a die, and the registers of its queues and of those it has adopted. -/
def Die.queues (d : Die) : DieId × (Nat → Word) := (d.id, fun k => d.reg (0x1000 + k % 0x2000))

/-- From `s` to `t` no queue register and no task has changed, and nothing is in flight where nothing was. -/
structure Quiet (s t : State) : Prop where
  flight : s.flight = [] → t.flight = []
  queues : AllDies s → t.dies.map Die.queues = s.dies.map Die.queues
  tasks : t.tasks = s.tasks

theorem Quiet.refl (s : State) : Quiet s s := ⟨id, fun _ => rfl, rfl⟩

theorem Quiet.allDies (h : Quiet s t) (ha : AllDies s) : AllDies t := by
  have names := congrArg (List.map Prod.fst) (h.queues ha)
  rw [List.map_map, List.map_map] at names
  exact Eq.trans names ha

theorem Quiet.trans {s t u : State} (h : Quiet s t) (k : Quiet t u) : Quiet s u :=
  ⟨k.flight ∘ h.flight, fun ha => (k.queues (h.allDies ha)).trans (h.queues ha), k.tasks.trans h.tasks⟩

theorem Quiet.foldl {α : Type} {l : List α} {f : State → α → State} (hs : Quiet s₀ s)
    (hf : ∀ t x, Quiet s₀ t → Quiet s₀ (f t x)) : Quiet s₀ (l.foldl f s) :=
  List.foldlRecOn l f hs fun t h x _ => hf t x h

/-- Fields that no queue is made of may take any value. -/
theorem Quiet.frame {c : Core} {pk : List Core} {rh : Rhoath} {m : List Host.Cell} {bs : List (Nat × Nat)}
    {ws : List Walk} {es : List Effect} {cr : List (DieId × DieId × List Nat)} {pe : List (DieId × Nat)}
    {re : List (Nat × Nat)} {fr : BitVec 48}
    {ni : Nat} {ins : List Instr} {fv : Nat} {rp : Option Word} {rd : List Byte} {po : Bool} {ar : List AppReq}
    {ad : List AppAnswer} {dr : List DmaReq} {du : List Nat} (hs : Quiet s₀ s) :
    Quiet s₀ ⟨c, pk, s.dies, rh, m, bs, s.flight, ws, es, cr, pe, re, s.tasks, fr, ni, ins, fv, rp, rd, po, ar, ad, dr, du⟩ :=
  ⟨hs.flight, hs.queues, hs.tasks⟩

theorem Quiet.drops (hs : Quiet s₀ s) : Quiet s₀ { s with flight := s.flight.filter p } :=
  ⟨fun h => by rw [hs.flight h]; rfl, hs.queues, hs.tasks⟩

theorem Quiet.maps {f : Access → Access} (hs : Quiet s₀ s) : Quiet s₀ { s with flight := s.flight.map f } :=
  ⟨fun h => by rw [hs.flight h]; rfl, hs.queues, hs.tasks⟩

theorem Quiet.changesDies {f : Die → Die} (hs : Quiet s₀ s) (hf : ∀ d, (f d).queues = d.queues) :
    Quiet s₀ { s with dies := s.dies.map f } :=
  ⟨hs.flight, fun ha => by
    rw [← hs.queues ha, List.map_map]
    exact List.map_congr_left fun d _ => hf d, hs.tasks⟩

theorem Quiet.updDie {f : Die → Die} (hs : Quiet s₀ s) (hf : ∀ x, (f x).queues = x.queues) : Quiet s₀ (s.updDie d f) :=
  ⟨hs.flight, fun ha => by
    have name : (f (s.die d)).id = d := (congrArg Prod.fst (hf (s.die d))).trans (s.die_id d)
    rw [← hs.queues ha, State.updDie, State.setDie_dies, List.map_map]
    refine List.map_congr_left fun e he => ?_
    simp only [Function.comp, name]
    split
    · next same => rw [hf, ← same, State.die_of_mem (hs.allDies ha) he]
    · rfl, hs.tasks⟩

theorem Die.queues_setReg (x : Die) (v : Word) (ho : 0x3000 ≤ off) : (x.setReg off v).queues = x.queues := by
  unfold Die.queues
  refine Prod.ext rfl (funext fun k => Die.reg_setReg_ne x v ?_)
  omega

theorem Quiet.faultRec (hs : Quiet s₀ s) : Quiet s₀ (s.faultRec d ctx kind va pa detail master) := by
  obtain ⟨v, m, fr, n, e⟩ := s.faultRec_eq (d := d) (ctx := ctx) (kind := kind)
    (va := va) (pa := pa) (detail := detail) (master := master)
  rw [e]
  exact (hs.updDie fun x => x.queues_setReg (off := 0xA118) _ (by decide)).frame

theorem Quiet.setCore (hs : Quiet s₀ s) : Quiet s₀ (s.setCore c) := by
  unfold State.setCore
  split
  · exact hs.frame
  · exact hs.frame

theorem Quiet.storeBytes (hs : Quiet s₀ s) : Quiet s₀ (s.storeBytes ctx pa l) := by
  unfold State.storeBytes
  dsimp only
  split
  · refine Quiet.updDie hs.frame ?_
    exact fun _ => rfl
  · exact hs.frame

theorem Quiet.closeHolds (hs : Quiet s₀ s) : Quiet s₀ (s.closeHolds t g) := by
  unfold State.closeHolds
  refine hs.foldl fun _ _ h => (h.foldl fun _ _ k => k.storeBytes).updDie ?_
  exact fun _ => rfl

theorem Quiet.stopStrand (hs : Quiet s₀ s) : Quiet s₀ (s.stopStrand i) := by
  unfold State.stopStrand State.discard
  exact hs.drops.frame.setCore.setCore

theorem Quiet.disown (hs : Quiet s₀ s) : Quiet s₀ (s.disown t) := by
  unfold State.disown
  exact hs.maps.frame

theorem Quiet.coresDown (hs : Quiet s₀ s) : Quiet s₀ (s.coresDown d) := by
  unfold State.coresDown
  dsimp only
  refine hs.drops.frame.updDie ?_
  exact fun _ => rfl

theorem Quiet.darken (hs : Quiet s₀ s) : Quiet s₀ (s.darken d) := by
  unfold State.darken
  dsimp only
  refine Quiet.updDie hs.coresDown.drops.maps.frame ?_
  exact fun _ => rfl

theorem Quiet.takenOut (hs : Quiet s₀ s) : Quiet s₀ (s.takenOut d) := by
  refine (hs.darken.updDie ?_).frame
  exact fun _ => rfl

/-- With nothing in flight a resynchronisation has nothing to discard or to deliver. -/
theorem Quiet.resync (hs : Quiet s₀ s) (he : s.flight = []) : Quiet s₀ (s.resync d) := by
  have nothing : ∀ n, s.discardStuck d (n + 1) = s := fun n => by
    unfold State.discardStuck
    rw [he]
    rfl
  have none : ∀ n, s.deliverRest (n + 1) = s := fun n => by
    unfold State.deliverRest
    rw [he]
    rfl
  unfold State.resync
  dsimp only
  rw [nothing, none]
  refine (hs.changesDies fun x => ?_).maps.frame
  split
  · rfl
  · rfl

theorem Quiet.remapVdies (hs : Quiet s₀ s) : Quiet s₀ (s.remapVdies d) := by
  unfold State.remapVdies
  refine hs.foldl fun _ _ h => ?_
  dsimp only
  split
  · exact h
  · exact h.frame

theorem State.pump_idle (he : s.flight = []) : s.pump = s := by
  unfold State.pump
  rw [he]
  rfl

/-! ## What a stop and a settlement leave of a task (14 R406) -/

/-- A stopped task: what its strands have logged is no longer counted. -/
def Task.unlogged (x : Task) : Task :=
  { x with gangs := x.gangs.map fun g => { g with counts := g.counts.map fun k => (k.1, { k.2 with logged := [] }) } }

theorem Quiet.stopTask (hs : Quiet s₀ (s.updTask t Task.unlogged)) : Quiet s₀ (s.stopTask t) := by
  unfold State.stopTask
  refine Quiet.foldl ?_ fun _ _ h => h.stopStrand
  have unbound := hs.changesDies (f := fun d => { d with
    ports := d.ports.map (fun x => { x with bind := x.bind.filter (!(fun b : Binding => b.task = t) ·) })
    chans := d.chans.filter fun x => !(fun b : Binding => b.task = t) x.2 }) fun _ => rfl
  exact unbound.drops.maps.frame

theorem Quiet.stopAll (hs : Quiet s₀ (s.updTask t Task.unlogged)) : Quiet s₀ (s.stopAll t) :=
  (hs.stopTask.foldl fun _ _ h => h.closeHolds).disown

/-- A task whose gangs wait on die `home` for their admission. -/
def Task.again (home : DieId) (x : Task) : Task :=
  { x with
    gangs := x.gangs.map (·.again home), image := none, layout := none, released := false, ready := none, spells := []
    asks := none, yielding := none, yields := [] }

/-- A task that has ended with DIE_LOST. -/
def Task.lostWith (d : DieId) (x : Task) : Task :=
  { x with
    status := if x.status = 0 then 6 else x.status
    detail := if x.status = 0 then d.code else x.detail
    statusGang := if x.status = 0 then 0 else x.statusGang
    gangs := x.gangs.map fun g => { g with state := .done, ended := List.range 24 } }

/-- What TASK_SETTLE makes of a task, by the case of Table 14-2 that is the task's `t`. -/
def Task.settledAs (d : DieId) (x t : Task) : Task :=
  if t.status != 0 then x
  else if !t.admitted then x.again (homeOf t.id)
  else if bitAt (t.q 2) 63 && bitAt (t.q 4) 10 then
    { x.unlogged.again (homeOf t.id) with admitted := false, restarted := true }
  else (x.lostWith d).unlogged

theorem Task.settledAs_id (d : DieId) (x t : Task) : (x.settledAs d t).id = x.id := by
  unfold Task.settledAs
  split
  · rfl
  · split
    · rfl
    · split
      · rfl
      · rfl

theorem State.updTask_updTask (s : State) {f g : Task → Task} (hf : ∀ x, (f x).id = x.id) :
    (s.updTask i f).updTask i g = s.updTask i (g ∘ f) := by
  unfold State.updTask
  simp only [List.map_map]
  refine congrArg (fun l => { s with tasks := l }) (List.map_congr_left fun x _ => ?_)
  simp only [Function.comp]
  split
  · rw [if_pos ((hf x).trans ‹_›)]
  · rfl

theorem State.findTask_updTask (s : State) {f : Task → Task} (hf : ∀ x, (f x).id = x.id) (i j : TaskId) :
    (s.updTask i f).findTask j = (s.findTask j).map fun x => if x.id = i then f x else x := by
  unfold State.updTask State.findTask
  rw [List.find?_map]
  refine congrArg (Option.map _) (congrArg (List.find? · s.tasks) (funext fun x => ?_))
  simp only [Function.comp]
  split
  · rw [hf]
  · rfl

theorem Quiet.updTask {f : Task → Task} (hs : Quiet s t) : Quiet (s.updTask i f) (t.updTask i f) :=
  ⟨hs.flight, hs.queues, by simp only [State.updTask, hs.tasks]⟩

section
variable {t : Task}

theorem Task.settledAs_of_ended (hs : t.status ≠ 0) : Task.settledAs d x t = x := if_pos (bne_iff_ne.2 hs)

theorem Task.settledAs_of_waiting (hs : t.status = 0) (ha : t.admitted = false) :
    Task.settledAs d x t = x.again (homeOf t.id) := by
  unfold Task.settledAs
  rw [hs, ha, if_neg (by decide), if_pos (by decide)]

theorem Task.settledAs_of_restartable (hs : t.status = 0) (ha : t.admitted = true)
    (hr : (bitAt (t.q 2) 63 && bitAt (t.q 4) 10) = true) :
    Task.settledAs d x t = { x.unlogged.again (homeOf t.id) with admitted := false, restarted := true } := by
  unfold Task.settledAs
  rw [hs, ha, hr, if_neg (by decide), if_neg (by decide), if_pos rfl]

theorem Task.settledAs_of_lost (hs : t.status = 0) (ha : t.admitted = true)
    (hr : (bitAt (t.q 2) 63 && bitAt (t.q 4) 10) = false) :
    Task.settledAs d x t = (x.lostWith d).unlogged := by
  unfold Task.settledAs
  rw [hs, ha, hr, if_neg (by decide), if_neg (by decide), if_neg (by decide)]

/-- TASK_SETTLE changes its task alone, and no queue. -/
theorem State.settleTask_quiet (s : State) : Quiet (s.updTask t.id (Task.settledAs d · t)) (s.settleTask d t) := by
  unfold State.settleTask
  by_cases hs : t.status = 0
  · rw [hs, if_neg (by decide)]
    cases ha : t.admitted with
    | false =>
      simp only [Task.settledAs_of_waiting hs ha]
      exact .refl _
    | true =>
      dsimp only
      rw [if_neg (by decide)]
      cases hr : bitAt (t.q 2) 63 && bitAt (t.q 4) 10 with
      | true =>
        simp only [Task.settledAs_of_restartable hs ha hr]
        have stopped : Quiet _ (s.stopAll t.id) := .stopAll (.refl _)
        have cleaned := stopped.updTask (i := t.id) (f := Task.again (homeOf t.id))
        have started := cleaned.updTask (i := t.id) (f := fun x => { x with admitted := false, restarted := true })
        rw [State.updTask_updTask (f := Task.unlogged) _ fun _ => rfl,
          State.updTask_updTask (f := Task.again (homeOf t.id) ∘ Task.unlogged) _ fun _ => rfl] at started
        exact started.changesDies (f := fun y => { y with slots := y.slots.filter (·.2.1 != t.id) }) fun _ => rfl
      | false =>
        simp only [Task.settledAs_of_lost hs ha hr]
        refine Quiet.stopTask (s := s.updTask t.id (Task.lostWith d)) ?_
        rw [State.updTask_updTask (f := Task.lostWith d) _ fun _ => rfl]
        exact .refl _
  · rw [if_pos (bne_iff_ne.2 hs)]
    simp only [Task.settledAs_of_ended hs]
    exact ⟨id, fun _ => rfl, by simp [State.updTask]⟩

end

/-- The tasks named in `l` settle. -/
def State.settleTasks (s : State) (d : DieId) (l : List TaskId) : State :=
  l.foldl (fun s t => match s.findTask t with
    | some x => s.settleTask d x
    | none => s) s

theorem Quiet.findTask (h : Quiet s t) : t.findTask i = s.findTask i := by
  unfold State.findTask
  rw [h.tasks]

theorem State.findTask_id (h : s.findTask i = some x) : x.id = i := by simpa using List.find?_some h

theorem State.findTask_settleTask (s : State) {t : Task} (i : TaskId) :
    (s.settleTask d t).findTask i = (s.findTask i).map fun x => if x.id = t.id then x.settledAs d t else x :=
  s.settleTask_quiet.findTask.trans (s.findTask_updTask (fun x => x.settledAs_id d t) _ _)

/-- The task that is named settles as it stands; no other one does. -/
theorem State.findTask_settleTasks_one (s : State) (i j : TaskId) :
    (s.settleTasks d [j]).findTask i = if i = j then (s.findTask i).map fun x => x.settledAs d x else s.findTask i := by
  unfold State.settleTasks
  rw [List.foldl_cons, List.foldl_nil]
  cases hj : s.findTask j with
  | none =>
    by_cases h : i = j
    · subst h
      rw [if_pos rfl, hj, Option.map_none]
    · rw [if_neg h]
  | some t =>
    have name := State.findTask_id hj
    dsimp only
    rw [State.findTask_settleTask, name]
    by_cases h : i = j
    · subst h
      rw [if_pos rfl, hj, Option.map_some, Option.map_some, if_pos name]
    · rw [if_neg h]
      cases hi : s.findTask i with
      | none => rfl
      | some x => rw [Option.map_some, if_neg (State.findTask_id hi ▸ h)]

/-- A task that is not named stays; one that is, once, settles as it stands. -/
theorem State.findTask_settleTasks (s : State) (hl : l.Nodup) (i : TaskId) :
    (s.settleTasks d l).findTask i = if i ∈ l then (s.findTask i).map fun x => x.settledAs d x else s.findTask i := by
  induction l generalizing s with
  | nil => rfl
  | cons j r ih =>
    obtain ⟨hj, hr⟩ := List.nodup_cons.1 hl
    have rest := ih (s.settleTasks d [j]) hr
    rw [State.findTask_settleTasks_one] at rest
    refine rest.trans ?_
    by_cases h : i = j
    · subst h
      rw [if_neg hj, if_pos rfl, if_pos List.mem_cons_self]
    · rw [if_neg h]
      simp only [List.mem_cons, h, false_or]

/-- A settlement changes no queue, and starts nothing. -/
theorem State.settleTasks_quiet (s : State) : ∃ l', Quiet { s with tasks := l' } (s.settleTasks d l) := by
  unfold State.settleTasks
  refine List.foldlRecOn (motive := fun t : State => ∃ l', Quiet { s with tasks := l' } t) l _ ⟨_, .refl s⟩ fun t h i _ => ?_
  split
  · next x _ =>
    obtain ⟨l', h⟩ := h
    have same : Quiet { s with tasks := (t.updTask x.id (Task.settledAs d · x)).tasks }
        (t.updTask x.id (Task.settledAs d · x)) :=
      ⟨h.flight, h.queues, rfl⟩
    exact ⟨_, same.trans t.settleTask_quiet⟩
  · exact h

/-! ## What the twin adopts (14 R405) -/

/-- The registers that die `d` exposes for the queues of its twin, from the list `l` of the twin's. -/
def adoptedRegs (l : List (Nat × Word)) : List (Nat × Word) :=
  l.filterMap fun r => if 0x1000 ≤ r.1 && r.1 < 0x2000 then some (r.1 + 0x1000, r.2) else none

theorem regReset_adopted (d e : DieId) (hk : k < 0x1000) : regReset e (0x2000 + k) = regReset d (0x1000 + k) := by
  have own : (0x1000 ≤ 0x1000 + k && 0x1000 + k < 0x3000) = true := by simp; omega
  have other : (0x1000 ≤ 0x2000 + k && 0x2000 + k < 0x3000) = true := by simp; omega
  have same : (0x2000 + k) % 0x40 = (0x1000 + k) % 0x40 := by omega
  have far : ∀ o, 0x1000 ≤ o → o < 0x3000 → (0xA408 ≤ o && o < 0xA488) = false := fun o _ _ => by simp; omega
  unfold regReset
  simp only [own, other, same, far _ (Nat.le_add_right _ k) (by omega), far (0x2000 + k) (by omega) (by omega)]
  rw [if_neg (by omega), if_neg (by omega : ¬ (0x1000 + k = 0)), if_neg (by omega : ¬ (0x2000 + k = 0xA508)),
    if_neg (by omega : ¬ (0x1000 + k = 0xA508))]

theorem regGet_adopted (d e : DieId) (l r : List (Nat × Word)) (hk : k < 0x1000) :
    regGet e (adoptedRegs l ++ r.filter fun x => !(0x2000 ≤ x.1 && x.1 < 0x3000)) (0x2000 + k) = regGet d l (0x1000 + k) := by
  induction l with
  | nil =>
    refine Eq.trans ?_ (regReset_adopted d e hk)
    change regGet e (r.filter _) _ = _
    induction r with
    | nil => rfl
    | cons x r ih =>
      rw [List.filter_cons]
      split
      · next out =>
        refine (if_neg fun h => ?_).trans ih
        simp only [h, Bool.not_eq_true', Bool.and_eq_false_iff, decide_eq_false_iff_not] at out
        omega
      · exact ih
  | cons x l ih =>
    unfold adoptedRegs
    rw [List.filterMap_cons]
    by_cases h : (0x1000 ≤ x.1 && x.1 < 0x2000) = true
    · rw [if_pos h]
      dsimp only [List.cons_append, regGet]
      by_cases at' : x.1 = 0x1000 + k
      · rw [if_pos at', if_pos (by omega)]
      · rw [if_neg at', if_neg (by omega)]
        exact ih
    · rw [if_neg h]
      dsimp only [regGet]
      rw [if_neg fun e => h (by simp [e]; omega)]
      exact ih

/-- The name of a task once its queue is adopted from die `d`. -/
def adoptedId (d : DieId) (i : TaskId) : TaskId := if i.die = d && !i.adopted then { i with adopted := true } else i

theorem State.adopt_tasks (s : State) : (s.adopt d).tasks = s.tasks.map fun t => { t with id := adoptedId d t.id } := rfl

theorem State.adopt_flight (h : s.flight = []) : (s.adopt d).flight = [] := by
  change (s.flight.map _) = []
  rw [h]
  rfl

theorem State.adopt_allDies (ha : AllDies s) : AllDies (s.adopt d) := (Kept.refl (up := false) s).adopt.allDies ha

theorem State.die_of_map {t : State} {f : Die → Die} (ha : AllDies s) (hf : ∀ x, (f x).id = x.id) (ht : t.dies = s.dies.map f) :
    t.die d = f (s.die d) := by
  rw [← State.die_map ha hf]
  unfold State.die
  rw [ht]

/-- Renaming tasks leaves the registers of a die. -/
theorem State.rename_regs (ha : AllDies s) : ((s.rename f).die d).regs = (s.die d).regs := by
  have mapped : (s.rename f).dies = s.dies.map _ := rfl
  refine (congrArg Die.regs (State.die_of_map ha ?_ mapped)).trans ?_
  · exact fun _ => rfl
  · rfl

theorem State.adopt_regs (ha : AllDies s) :
    ((s.adopt d).die d.twin).regs = adoptedRegs (s.die d).regs ++
      (s.die d.twin).regs.filter fun r => !(0x2000 ≤ r.1 && r.1 < 0x3000) := by
  unfold State.adopt
  dsimp only
  rw [State.rename_regs ((Kept.updDie (.refl s)).allDies ha)]
  refine (congrArg Die.regs (State.die_updDie ha ?_)).trans ?_
  · exact fun _ => rfl
  · rfl

/-- The twin has the registers of the queues of die `d`. -/
theorem State.adopt_reg (ha : AllDies s) (hk : k < 0x1000) : (s.adopt d).reg d.twin (0x2000 + k) = s.reg d (0x1000 + k) := by
  unfold State.reg Die.nat Die.reg
  rw [State.die_id, State.adopt_regs ha, regGet_adopted d _ _ _ hk, State.die_id]

/-- A task of an adopted queue is found under its new name. -/
theorem State.findTask_adopt (s : State) (hn : (s.tasks.map fun v => adoptedId d v.id).Nodup) (hu : u ∈ s.tasks) :
    (s.adopt d).findTask (adoptedId d u.id) = some { u with id := adoptedId d u.id } := by
  unfold State.findTask
  rw [State.adopt_tasks, List.find?_map]
  cases h : s.tasks.find? ((·.id == adoptedId d u.id) ∘ fun t => { t with id := adoptedId d t.id }) with
  | none => exact absurd (List.find?_eq_none.1 h u hu) (by simp)
  | some x =>
    have same : adoptedId d x.id = adoptedId d u.id := by simpa using List.find?_some h
    rw [List.inj_on_of_nodup_map hn (List.mem_of_find?_eq_some h) hu same]
    rfl

/-! ## A failover with nothing in flight -/

/-- The tasks that die `d` takes with it: those of its queues, and superstep tasks with a gang on it. -/
def Task.goneWith (d : DieId) (t : Task) : Bool := homeOf t.id == d || (t.isSuper && t.gangs.any (·.die == d))

/-- What the survivors have once die `d` is out and they have agreed. -/
def State.survived (s : State) (d : DieId) : State := ((s.takenOut d).resync d).remapVdies d

theorem State.survived_quiet (hf : s.flight = []) : Quiet s (s.survived d) := by
  have out : Quiet s (s.takenOut d) := (Quiet.refl s).takenOut
  exact (out.resync (out.flight hf)).remapVdies

/-- The twin adopts the queues, settles their tasks, and nothing moves after that. -/
theorem execDieFailover_idle (hr : (s.die d).removed = false) (hd : s.down d = false) (hp : (s.die d.twin).removed = false)
    (hf : s.flight = []) :
    ∃ t, execDieFailover d s = .next t ∧ Quiet (((s.survived d).adopt d).settleTasks d
      ((s.tasks.filter (Task.goneWith d)).map fun t => adoptedId d t.id)) t := by
  obtain ⟨l', settled⟩ := ((s.survived d).adopt d).settleTasks_quiet (d := d)
    (l := (s.tasks.filter (Task.goneWith d)).map fun t => adoptedId d t.id)
  have idle : (((s.survived d).adopt d).settleTasks d
      ((s.tasks.filter (Task.goneWith d)).map fun t => adoptedId d t.id)).flight = [] :=
    settled.flight (State.adopt_flight ((State.survived_quiet hf).flight hf))
  have reported : ∀ (k : Die → Die) (l : List Die) (p : Prop) (_ : Decidable p) (u : State), u.flight = [] →
      (∀ x, (k x).queues = x.queues) →
      let v := l.foldl (fun s x => s.faultRec x.id 0 0x11 0 0 d.code (s.luMaster x.id)) (u.updDie d.twin k)
      Quiet u (if p then { v with rhoath := { v.rhoath with faultN := true } } else v.pump) := by
    intro k l p _ u he hk v
    have told : Quiet u v := ((Quiet.refl u).updDie hk).foldl fun _ _ h => h.faultRec
    split
    · exact told.frame
    · rw [State.pump_idle (told.flight he)]
      exact told
  unfold execDieFailover
  rw [hr, hd, Bool.or_false, if_neg Bool.false_ne_true, hp]
  dsimp only
  rw [if_neg Bool.false_ne_true]
  refine ⟨_, rfl, reported _ _ _ _ _ idle ?_⟩
  exact fun _ => rfl

theorem Quiet.reg_eq (h : Quiet s t) (ha : AllDies s) (e : DieId) (hk : k < 0x2000) :
    t.reg e (0x1000 + k) = s.reg e (0x1000 + k) := by
  obtain ⟨x, hx, same⟩ := List.mem_map.1 (h.queues ha ▸ List.mem_map_of_mem (f := Die.queues) (State.die_mem ha e))
  have name : x.id = e := (congrArg Prod.fst same).trans (s.die_id e)
  have value := congrFun (congrArg Prod.snd same) k
  simp only [Die.queues, Nat.mod_eq_of_lt hk] at value
  rw [State.reg, State.die_eq (h.allDies ha) hx name]
  exact congrArg BitVec.toNat value

theorem qOff_own (hq : q < 64) : qOff q = 0x1000 + q * 0x40 := by
  unfold qOff queueOff
  rw [decide_eq_false (by omega), if_neg Bool.false_ne_true, Nat.mod_eq_of_lt hq]

theorem qOff_adopted (hq : q < 64) : qOff (q + 64) = 0x2000 + q * 0x40 := by
  unfold qOff queueOff
  rw [decide_eq_true (by omega), if_pos rfl, Nat.add_mod_right, Nat.mod_eq_of_lt hq]

/-- A settled task as Table 14-2 has it. -/
theorem Task.settledAs_outcome {x : Task} (hs : x.status = 0) :
    (x.settledAs d x).pkt = x.pkt ∧
      let v := x.settledAs d x
      let again := v.status = 0 ∧ v.admitted = false ∧
        ∀ g ∈ v.gangs, g.state = .waiting ∧ g.cores = [] ∧ g.die = homeOf x.id
      let restart := bitAt (x.q 2) 63 = true ∧ bitAt (x.q 4) 10 = true
      (x.admitted = false → again) ∧ (x.admitted = true → restart → again ∧ v.restarted = true) ∧
        (x.admitted = true → ¬ restart → v.status = 6 ∧ v.detail = d.code) := by
  have waits : ∀ y : Task, ∀ g ∈ (y.again (homeOf x.id)).gangs, g.state = .waiting ∧ g.cores = [] ∧ g.die = homeOf x.id := by
    intro y g hg
    obtain ⟨g', -, rfl⟩ := List.mem_map.1 hg
    exact ⟨rfl, rfl, rfl⟩
  cases ha : x.admitted with
  | false =>
    rw [Task.settledAs_of_waiting hs ha]
    exact ⟨rfl, fun _ => ⟨hs, ha, waits x⟩, fun h => absurd h (by decide), fun h => absurd h (by decide)⟩
  | true =>
    cases hr : bitAt (x.q 2) 63 && bitAt (x.q 4) 10 with
    | true =>
      rw [Task.settledAs_of_restartable hs ha hr]
      rw [Bool.and_eq_true] at hr
      exact ⟨rfl, fun h => absurd h (by decide), fun _ _ => ⟨⟨hs, rfl, waits _⟩, rfl⟩, fun _ h => absurd hr h⟩
    | false =>
      rw [Task.settledAs_of_lost hs ha hr]
      have lost : ¬ (bitAt (x.q 2) 63 = true ∧ bitAt (x.q 4) 10 = true) := by rw [← Bool.and_eq_true, hr]; decide
      exact ⟨rfl, fun h => absurd h (by decide), fun _ h => absurd h lost, fun _ _ => ⟨if_pos hs, if_pos hs⟩⟩

theorem dieFailover_settles (ha : AllDies s) (hd : s.down d = false) (hr : (s.die d).removed = false)
    (hp : (s.die d.twin).removed = false) (hf : s.flight = []) (hn : (s.tasks.map fun v => adoptedId d v.id).Nodup) :
    ∃ t, exec (.dieFailover d) s = .next t ∧ (∀ q o, q < 64 → o < 0x40 → t.qreg d.twin (q + 64) o = s.qreg d q o) ∧
      ∀ u ∈ s.tasks, (homeOf u.id = d ∨ (u.isSuper = true ∧ ∃ g ∈ u.gangs, g.die = d)) →
        t.findTask (adoptedId d u.id) =
          some ({ u with id := adoptedId d u.id }.settledAs d { u with id := adoptedId d u.id }) := by
  obtain ⟨t, ran, last⟩ := execDieFailover_idle hr hd hp hf
  have survived := State.survived_quiet (d := d) hf
  have stand : AllDies (s.survived d) := survived.allDies ha
  obtain ⟨l', settled⟩ := ((s.survived d).adopt d).settleTasks_quiet (d := d)
    (l := (s.tasks.filter (Task.goneWith d)).map fun t => adoptedId d t.id)
  have moved : AllDies { (s.survived d).adopt d with tasks := l' } := State.adopt_allDies stand
  refine ⟨t, ran, fun q o hq ho => ?_, fun u hu gone => ?_⟩
  · have tail := (settled.trans ⟨last.flight, last.queues, last.tasks⟩).reg_eq moved d.twin
      (k := 0x1000 + (q * 0x40 + o)) (by omega)
    have own := survived.reg_eq ha d (k := q * 0x40 + o) (by omega)
    have adopted := State.adopt_reg (d := d) stand (k := q * 0x40 + o) (by omega)
    unfold State.qreg Die.qreg
    rw [qOff_own hq, qOff_adopted hq, Nat.add_assoc, Nat.add_assoc]
    simp only [← Nat.add_assoc 0x1000 0x1000] at tail
    exact tail.trans (adopted.trans own)
  · have named : u.goneWith d = true := by
      simp only [Task.goneWith, Bool.or_eq_true, beq_iff_eq, Bool.and_eq_true, List.any_eq_true]
      exact gone
    have once : ((s.tasks.filter (Task.goneWith d)).map fun t => adoptedId d t.id).Nodup :=
      hn.sublist (List.filter_sublist.map _)
    have there : adoptedId d u.id ∈ (s.tasks.filter (Task.goneWith d)).map fun t => adoptedId d t.id :=
      List.mem_map_of_mem (f := fun t : Task => adoptedId d t.id) (List.mem_filter.2 ⟨hu, named⟩)
    have same : (s.survived d).tasks = s.tasks := survived.tasks
    rw [last.findTask, State.findTask_settleTasks _ once, if_pos there,
      (s.survived d).findTask_adopt (u := u) (same.symm ▸ hn) (same.symm ▸ hu), Option.map_some]

end

/-! ## What a step keeps -/

/-- Settles O59: the memory part of what every operation of a step keeps. -/
theorem stepKeepsMemoryCanonical : Obligations.StepKeepsMemoryCanonical := by
  unfold Obligations.StepKeepsMemoryCanonical
  intro s t canonical stepped
  exact ((Kept.refl s).step.of_next stepped).mem canonical

/-- Settles O60: the parts about the dies and about the numbers of accesses. -/
theorem stepKeepsDiesAndNumbers : Obligations.StepKeepsDiesAndNumbers := by
  unfold Obligations.StepKeepsDiesAndNumbers
  intro s t stepped
  have kept := (Kept.refl s).step.of_next stepped
  exact ⟨kept.allDies, kept.fresh⟩

/-! ## The events of Rhoath -/

/-- Settles O53, a clause for each of Rhoath's events. -/
theorem rhoathEvents : Obligations.RhoathEvents := by
  unfold Obligations.RhoathEvents
  intro s d flash x y z n ch code ha board bad dead status
  refine ⟨powerGoodBoot_next s flash, uncoreLeaveReset_next ha, coreDomainLeaveReset_next ha, uncoreResetRequest_next ha,
    allDown_next ha, dieFailover_next ha, ?failover, fun up => ?mailbox,
    fun up => ⟨request_answers up, getMeasurements_image up, getMeasurements_directory up⟩,
    ?links, fun up w => ⟨fun slow h hot => thermal_slows ha up slow hot,
      fun fast most cool => thermal_quickens ha up fast most cool⟩⟩
  case failover =>
    intro hd hr hp hf f once
    obtain ⟨t, ran, queues, settled⟩ := dieFailover_settles ha hd hr hp hf once
    refine ⟨t, ran, queues, fun u hu status gone => ?_⟩
    exact ⟨_, settled u hu gone, Task.settledAs_outcome (x := { u with id := adoptedId d u.id }) status⟩
  case mailbox =>
    exact ⟨command_next up, ctxKey_reserved up, ctxKey_busy up, ctxKey_fresh up,
      fun reserved => ⟨clearRetired_reserved up reserved, recover_reserved up reserved⟩, clearRetired_die up, recover_idle up,
      powerCap_reserved up, powerCap_set up, mbueRead_next up⟩
  case links =>
    intro e reqs change failed board first allowed near known
    exact ⟨fun w width => no_freq_of_width (width ▸ first), linkRetrain_next first allowed near known⟩

end Sys2Proof.Machine

/-! # What the launch unit leaves of a die

From one state to another the core in focus and one register of a die are left as they are: said of each operation of the launch unit
that reads packets and timetables, records and retires. -/

namespace Sys2Proof.Machine

open Sys2Proof.Terms

section
variable {d e : DieId} {o off q n : Nat} {s t u : State}

/-- From `s` to `t` the core in focus and register `o` of die `d` have not changed, and the four dies stand. -/
structure Steady (d : DieId) (o : Nat) (s t : State) : Prop where
  core : t.core = s.core
  allDies : AllDies s → AllDies t
  reg : AllDies s → t.reg d o = s.reg d o

theorem Steady.refl (s : State) : Steady d o s s := ⟨rfl, id, fun _ => rfl⟩

theorem Steady.trans (h : Steady d o s t) (k : Steady d o t u) : Steady d o s u :=
  ⟨k.core.trans h.core, k.allDies ∘ h.allDies, fun ha => (k.reg (h.allDies ha)).trans (h.reg ha)⟩

theorem Steady.qreg {k : Nat} (h : Steady d (qOff q + k) s t) (ha : AllDies s) : t.qreg d q k = s.qreg d q k := h.reg ha

/-- The fields beside the core and the dies are free. -/
theorem Steady.frame {pk : List Core} {rh : Rhoath} {m : List Host.Cell} {bs : List (Nat × Nat)} {fl : List Access}
    {ws : List Walk} {es : List Effect} {cr : List (DieId × DieId × List Nat)} {pe : List (DieId × Nat)} {re : List (Nat × Nat)}
    {ts : List Task} {fr : BitVec 48} {ni : Nat} {ins : List Instr} {fv : Nat} {rp : Option Word} {rd : List Byte} {po : Bool}
    {ar : List AppReq} {ad : List AppAnswer} {dr : List DmaReq} {du : List Nat} (h : Steady d o s t) :
    Steady d o s ⟨t.core, pk, t.dies, rh, m, bs, fl, ws, es, cr, pe, re, ts, fr, ni, ins, fv, rp, rd, po, ar, ad, dr, du⟩ :=
  ⟨h.core, h.allDies, h.reg⟩

theorem Steady.ite {p : Prop} [Decidable p] (h : Steady d o s t) (k : Steady d o s u) : Steady d o s (if p then t else u) := by
  split
  · exact h
  · exact k

theorem Steady.foldl {α : Type} {l : List α} {f : State → α → State} (h : Steady d o s t)
    (hf : ∀ u x, Steady d o s u → Steady d o s (f u x)) : Steady d o s (l.foldl f t) :=
  List.foldlRecOn l f h fun u hu x _ => hf u x hu

/-- A change of the dies that leaves their names and registers. -/
theorem Steady.changesDies {f : Die → Die} (h : Steady d o s t) (hf : ∀ x, (f x).id = x.id ∧ (f x).regs = x.regs) :
    Steady d o s { t with dies := t.dies.map f } := by
  refine ⟨h.core, fun ha => ?_, fun ha => ?_⟩
  · have names : (t.dies.map f).map (·.id) = t.dies.map (·.id) := by
      rw [List.map_map]
      exact List.map_congr_left fun x _ => (hf x).1
    exact names.trans (h.allDies ha)
  · rw [← h.reg ha, State.reg, State.die_map (h.allDies ha) fun x => (hf x).1]
    unfold Die.nat Die.reg
    rw [(hf _).1, (hf _).2]
    rfl

/-- A die replaced by one with the same name and registers. -/
theorem Steady.setDie {x : Die} (h : Steady d o s t) (hx : x.id = e) (hr : x.regs = (t.die e).regs) :
    Steady d o s (t.setDie x) := by
  refine ⟨h.core, fun ha => (t.setDie_ids x).trans (h.allDies ha), fun ha => ?_⟩
  rw [← h.reg ha]
  by_cases same : d = e
  · subst same
    unfold State.reg Die.nat Die.reg
    rw [State.die_setDie (h.allDies ha) hx, hx, hr, t.die_id]
  · rw [State.reg, State.die_setDie_ne t x (hx ▸ same)]
    rfl

theorem Steady.updDie {f : Die → Die} (h : Steady d o s t) (hf : ∀ x, (f x).id = x.id ∧ (f x).regs = x.regs) :
    Steady d o s (t.updDie e f) :=
  h.setDie ((hf _).1.trans (t.die_id e)) (hf _).2

/-- A write of another register, or of a register of another die. -/
theorem Steady.setReg {v : Nat} (h : Steady d o s t) (ho : d ≠ e ∨ o ≠ off) : Steady d o s (t.setReg e off v) :=
  ⟨h.core, fun ha => (t.setDie_ids _).trans (h.allDies ha), fun ha => (t.reg_setReg_ne v ho).trans (h.reg ha)⟩

theorem Steady.setQreg {k j v : Nat} (h : Steady d (qOff q + k) s t) (hk : k ≠ j) : Steady d (qOff q + k) s (t.setQreg e q j v) :=
  h.setReg (off := qOff q + j) (.inr fun same => hk (Nat.add_left_cancel same))

/-! ## Records -/

theorem Steady.ringPut {ring cnt q0 q1 q2 q3 : Nat} (h : Steady d o s t) (ho : o ≠ cnt) :
    Steady d o s (t.ringPut e ring cnt q0 q1 q2 q3) := by
  obtain ⟨v, m, eq⟩ := t.ringPut_eq (d := e) (ring := ring) (cnt := cnt) (q0 := q0) (q1 := q1) (q2 := q2) (q3 := q3)
  rw [eq]
  exact (h.setReg (off := cnt) (.inr ho)).frame

theorem Steady.faultRec {ctx kind va pa detail master : Nat} (h : Steady d o s t) (ho : o < 0x3000) :
    Steady d o s (t.faultRec e ctx kind va pa detail master) :=
  (h.frame : Steady d o s t.now).ringPut (by omega)

theorem Steady.slip {cause reason seq overrun ctx ref : Nat} (h : Steady d o s t) (ho : 0x1000 ≤ o) :
    Steady d o s (t.slip e q cause reason seq overrun ctx ref) :=
  (h.frame : Steady d o s t.now).ringPut (by omega)

theorem Steady.wrRec {pa v : Nat} (h : Steady d o s t) : Steady d o s (t.wrRec pa v) := by
  obtain ⟨m, eq⟩ := t.wrRec_eq pa v
  rw [eq]
  exact h.frame

theorem Steady.badPteRec {ctx va master : Nat} {w : WalkRes} (h : Steady d o s t) (ho : o < 0x3000) :
    Steady d o s (t.badPteRec e ctx va w master) := by
  unfold State.badPteRec
  split
  · exact h.faultRec ho
  · exact h

theorem Steady.luRec {ctx va what cause : Nat} (h : Steady d o s t) (ho : o < 0x3000) :
    Steady d o s (t.luRec e ctx va what cause) :=
  (h.badPteRec ho).faultRec ho

/-! ## Queues and timetables -/

theorem Steady.qfault {k status seq at' : Nat} (h : Steady d (qOff q + k) s t) (hk : k ≠ 0x38) :
    Steady d (qOff q + k) s (t.qfault e q status seq at') := h.setQreg hk

theorem Steady.dropWaiting {k : Nat} (h : Steady d (qOff q + k) s t) (hk : k ≠ 0x38) :
    Steady d (qOff q + k) s (t.dropWaiting e q) :=
  Steady.foldl (h.updDie fun _ => ⟨rfl, rfl⟩) fun _ _ hu => hu.qfault hk

theorem Steady.orderBad {ctx va last k : Nat} (h : Steady d o s t) (ho : o < 0x3000) :
    Steady d o s (t.orderBad e ctx va n k last).1 := by
  induction n generalizing t k last with
  | zero => exact h
  | succ n ih =>
    unfold State.orderBad
    split
    · exact ih (h.luRec ho)
    · dsimp only
      split
      · exact h
      · exact ih h

/-- The state that a read of a timetable leaves, whether it fails or not. -/
def leftBy : Except State (State × List Byte) → State
  | .error t => t
  | .ok x => x.1

theorem Steady.readTt {k va : Nat} (h : Steady d (qOff q + k) s t) (hk : k ≠ 0x38) (ho : qOff q + k < 0x3000) :
    Steady d (qOff q + k) s (leftBy (t.readTt e q va)) := by
  unfold State.readTt
  dsimp only
  split
  · exact (h.luRec ho).qfault hk
  · split
    · exact h.qfault hk
    · next hd _ _ _ =>
      have read := h.orderBad (e := e) (ctx := cfgCtx (t.qreg e q 0)) (va := va) (n := bitsAt (byteWord hd 1) 32 16) (k := 0)
        (last := 0) ho
      split
      · next eq =>
        rw [eq] at read
        exact read.qfault hk
      · next eq =>
        rw [eq] at read
        exact read

theorem Steady.putTt {x : TTable} (h : Steady d o s t) : Steady d o s (t.updDie e (·.putTt x)) :=
  h.updDie fun _ => ⟨rfl, rfl⟩

theorem Steady.bindTt {k va : Nat} (h : Steady d (qOff q + k) s t) (hk : k ≠ 0x38 ∧ k ≠ 0x20) (lo : 0x1000 ≤ qOff q + k)
    (hi : qOff q + k < 0x3000) : Steady d (qOff q + k) s (t.bindTt e q va) := by
  have read := h.readTt (e := e) (va := canonVa va) hk.1 hi
  unfold State.bindTt
  split
  · next u eq =>
    rw [eq] at read
    exact Steady.setQreg (Steady.updDie read fun _ => ⟨rfl, rfl⟩) hk.2
  · next u hd eq =>
    rw [eq] at read
    have stored {x : TTable} : Steady d (qOff q + k) s ((u.now.setQreg e q 0x20 (va % 2 ^ 56)).updDie e (·.putTt x)) :=
      Steady.putTt (Steady.setQreg (Steady.frame read) hk.2)
    exact .ite (stored.slip lo) stored

end
end Sys2Proof.Machine

/-! # The registers of the launch queues (O48) -/

namespace Sys2Proof.Machine

open Sys2Proof.Terms

section
variable {d : DieId} {q o off n : Nat} {v : Word} {app : AppCore} {s : State}

/-- The register blocks of the queues that a die may have lie in their window (03 R63, 14 R405). -/
theorem qOff_bounds (q : Nat) : 0x1000 ≤ qOff q ∧ qOff q + 0x40 ≤ 0x3000 := by
  unfold qOff queueOff
  split <;> omega

/-- A queue register that is written reads as written. -/
theorem State.qreg_setQreg_self (ha : AllDies s) : (s.setQreg d q o n).qreg d q o = n % 2 ^ 64 :=
  s.reg_setReg_self d (qOff q + o) n (State.name_mem ha d)

/-! ## Registers that are not there, and writers that are not there -/

theorem State.byApp_of_up {k : Out} (h : s.appUp app = true) : s.byApp app k = k := if_pos h
theorem State.byApp_of_down {k : Out} (h : s.appUp app = false) : s.byApp app k = .next s := if_neg (by rw [h]; decide)

/-- The test with which every one of these meanings begins. -/
theorem absent_iff : (s.down d || !s.queueThere d q) = true ↔ ¬ (s.down d = false ∧ s.queueThere d q = true) := by
  cases s.down d <;> cases s.queueThere d q <;> decide

theorem exec_queue_absent (h : ¬ (s.down d = false ∧ s.queueThere d q = true)) :
    ∀ i ∈ [Instr.qtailWrite d q v, .qttWrite d q v app, .qcfgWrite d q v app, .qtraceWrite d q v app, .qfaultRead d q],
      exec i s = .next s := by
  have absent {k : Out} : (if s.down d || !s.queueThere d q then .next s else k) = .next s := if_pos (absent_iff.2 h)
  have byAbsent {k : Out} : s.byApp app (if s.down d || !s.queueThere d q then .next s else k) = .next s := by
    rw [absent]
    exact ite_self _
  simp only [List.forall_mem_cons, List.not_mem_nil, false_imp_iff, implies_true, and_true]
  exact ⟨absent, byAbsent, byAbsent, byAbsent, absent⟩

theorem exec_queue_app_absent (h : s.appUp app = false) :
    ∀ i ∈ [Instr.qttWrite d q v app, .qcfgWrite d q v app, .qtraceWrite d q v app], exec i s = .next s := by
  simp only [List.forall_mem_cons, List.not_mem_nil, false_imp_iff, implies_true, and_true]
  exact ⟨State.byApp_of_down h, State.byApp_of_down h, State.byApp_of_down h⟩

/-- What a queue register's instruction does at a queue that is there. -/
theorem exec_queue_there {k : Out} (h : s.down d = false ∧ s.queueThere d q = true) :
    (if s.down d || !s.queueThere d q then .next s else k) = k :=
  if_neg fun bad => absent_iff.1 bad h

/-! ## Writes that are ignored -/

theorem masterOf_lt (chip die kind unit : Nat) : masterOf chip die kind unit < 2 ^ 17 := by
  unfold masterOf
  omega

theorem satTo_eq_min (m n : Nat) : satTo m n = min m n := by
  unfold satTo
  split <;> omega

/-- ACCVIOL after one more violation (01 R44). -/
theorem State.accViol_reg (ha : AllDies s) : (s.accViol d off app).reg d 0x3F10 =
    min 0xFFFF (bitsAt (s.reg d 0x3F10) 48 16 + 1) * 2 ^ 48 + masterOf s.rhoath.chip app.die.code 3 app.num * 2 ^ 24 +
      off % 2 ^ 24 := by
  unfold State.accViol
  rw [State.reg_setReg_self _ _ _ _ (State.name_mem ha d), satTo_eq_min]
  refine Nat.mod_eq_of_lt ?_
  have master := masterOf_lt s.rhoath.chip app.die.code 3 app.num
  omega

theorem Steady.accViol {e : DieId} {t : State} (h : Steady d o s t) (ho : o < 0x3000) : Steady d o s (t.accViol e off app) :=
  h.setReg (.inr (by omega))

/-! ## QCFG -/

theorem cfgEn_iff (c : Nat) : cfgEn c = true ↔ c % 2 = 1 := by simp [cfgEn, bitAt]
theorem b2n_cfgEn (c : Nat) : b2n (cfgEn c) = c % 2 := by
  unfold b2n
  split
  · next h => exact ((cfgEn_iff c).1 h).symm
  · next h => rw [cfgEn_iff] at h; omega

/-- QCFG takes the value it is given, whatever starts or stops with it. -/
theorem State.setQcfg_qreg (ha : AllDies s) (hn : n < 2 ^ 64) :
    (s.setQcfg d q n).qreg d q 0 = n ∧ (s.setQcfg d q n).core = s.core := by
  have all : AllDies (s.setQreg d q 0 n) := (State.setDie_ids _ _).trans ha
  have written : (s.setQreg d q 0 n).qreg d q 0 = n := (State.qreg_setQreg_self ha).trans (Nat.mod_eq_of_lt hn)
  obtain ⟨lo, hi⟩ := qOff_bounds q
  have steady : ∀ t, Steady d (qOff q + 0) (s.setQreg d q 0 n) t → t.qreg d q 0 = n ∧ t.core = s.core := fun t h =>
    ⟨(h.qreg all).trans written, h.core⟩
  have start := Steady.refl (d := d) (o := qOff q + 0) (s.setQreg d q 0 n)
  unfold State.setQcfg
  dsimp only
  split
  · exact steady _ (start.dropWaiting (by decide)).frame
  · split
    · have started {f : Die → Die} (hf : ∀ x, (f x).id = x.id ∧ (f x).regs = x.regs) := start.updDie (e := d) hf
      split
      · exact steady _ (Steady.bindTt (started fun _ => ⟨rfl, rfl⟩) (by decide) lo (by omega))
      · exact steady _ (started fun _ => ⟨rfl, rfl⟩)
    · exact steady _ start

/-- QCFG_WRITE: whether it is refused, and what it does where it is not. -/
theorem execQcfgWrite_of_up (hx : s.appUp app = true) (h : s.down d = false ∧ s.queueThere d q = true) :
    exec (.qcfgWrite d q v app) s =
      let old := s.qreg d q 0
      let w := v.toNat &&& qcfgMask
      if cfgTrace w == 3 || cfgLog w < 4 || 12 < cfgLog w then .next (s.accViol d (qOff q) app)
      else if cfgEn old then
        .next ((if w / 2 ≠ old / 2 then s.accViol d (qOff q) app else s).setQcfg d q (old - b2n (cfgEn old) + b2n (cfgEn w)))
      else .next (s.setQcfg d q w) :=
  (State.byApp_of_up hx).trans (exec_queue_there h)

/-- The values that QCFG takes: TRACE is not 3, and the ring has 16 to 4,096 slots (03 R63). -/
theorem qcfg_legal_iff (w : Nat) : ¬ (cfgTrace w == 3 || cfgLog w < 4 || 12 < cfgLog w) = true ↔
    cfgTrace w ≠ 3 ∧ 4 ≤ cfgLog w ∧ cfgLog w ≤ 12 := by
  simp only [Bool.or_eq_true, beq_iff_eq, decide_eq_true_eq]
  omega

section
variable (hx : s.appUp app = true) (h : s.down d = false ∧ s.queueThere d q = true) (ha : AllDies s)
include hx h ha

/-- A stopped queue takes the writable bits. -/
theorem qcfgWrite_stopped {w : Nat} (hw : w = v.toNat &&& qcfgMask) (legal : cfgTrace w ≠ 3 ∧ 4 ≤ cfgLog w ∧ cfgLog w ≤ 12)
    (stopped : cfgEn (s.qreg d q 0) = false) : ∃ t, exec (.qcfgWrite d q v app) s = .next t ∧ t.qreg d q 0 = w ∧ t.core = s.core := by
  have small : w < 2 ^ 64 := hw ▸ Nat.lt_of_le_of_lt Nat.and_le_left v.isLt
  refine ⟨s.setQcfg d q w, ?_, State.setQcfg_qreg ha small⟩
  rw [execQcfgWrite_of_up hx h, ← hw]
  dsimp only
  rw [if_neg ((qcfg_legal_iff w).2 legal), stopped, if_neg Bool.false_ne_true]

/-- A running one takes EN alone. -/
theorem qcfgWrite_running {w : Nat} (hw : w = v.toNat &&& qcfgMask) (legal : cfgTrace w ≠ 3 ∧ 4 ≤ cfgLog w ∧ cfgLog w ≤ 12)
    (running : cfgEn (s.qreg d q 0) = true) :
    ∃ t, exec (.qcfgWrite d q v app) s = .next t ∧ t.qreg d q 0 = s.qreg d q 0 - 1 + w % 2 ∧ t.core = s.core := by
  have odd := (cfgEn_iff _).1 running
  have word : s.qreg d q 0 < 2 ^ 64 := BitVec.isLt _
  obtain ⟨lo, hi⟩ := qOff_bounds q
  have noted : Steady d (qOff q + 0) s (if w / 2 ≠ s.qreg d q 0 / 2 then s.accViol d (qOff q) app else s) :=
    .ite ((Steady.refl s).accViol (by omega)) (.refl s)
  obtain ⟨value, core⟩ := State.setQcfg_qreg (d := d) (q := q) (n := s.qreg d q 0 - 1 + w % 2) (noted.allDies ha) (by omega)
  refine ⟨_, ?_, value, core.trans noted.core⟩
  rw [execQcfgWrite_of_up hx h, ← hw]
  dsimp only
  rw [if_neg ((qcfg_legal_iff w).2 legal), if_pos running, b2n_cfgEn, b2n_cfgEn, odd]

end

/-- An illegal value is counted, and changes nothing else. -/
theorem qcfgWrite_illegal (hx : s.appUp app = true) (h : s.down d = false ∧ s.queueThere d q = true) {w : Nat}
    (hw : w = v.toNat &&& qcfgMask) (illegal : ¬ (cfgTrace w ≠ 3 ∧ 4 ≤ cfgLog w ∧ cfgLog w ≤ 12)) :
    exec (.qcfgWrite d q v app) s = .next (s.accViol d (qOff q) app) := by
  rw [execQcfgWrite_of_up hx h, ← hw]
  dsimp only
  rw [if_pos (not_not.1 fun k => illegal ((qcfg_legal_iff w).1 k))]

theorem qcfgWrite_core (hx : s.appUp app = true) (h : s.down d = false ∧ s.queueThere d q = true) (ha : AllDies s) :
    ∃ t, exec (.qcfgWrite d q v app) s = .next t ∧ t.core = s.core := by
  by_cases legal : cfgTrace (v.toNat &&& qcfgMask) ≠ 3 ∧ 4 ≤ cfgLog (v.toNat &&& qcfgMask) ∧ cfgLog (v.toNat &&& qcfgMask) ≤ 12
  · cases en : cfgEn (s.qreg d q 0) with
    | false =>
      obtain ⟨t, ran, -, core⟩ := qcfgWrite_stopped hx h ha rfl legal en
      exact ⟨t, ran, core⟩
    | true =>
      obtain ⟨t, ran, -, core⟩ := qcfgWrite_running hx h ha rfl legal en
      exact ⟨t, ran, core⟩
  · exact ⟨_, qcfgWrite_illegal hx h rfl legal, rfl⟩

/-! ## QTAIL, QTT, QTRACE and QFAULT -/

theorem qtailWrite_core (h : s.down d = false ∧ s.queueThere d q = true) :
    ∃ t, exec (.qtailWrite d q v) s = .next t ∧ t.core = s.core := by
  change ∃ t, execQtailWrite d q v s = .next t ∧ t.core = s.core
  unfold execQtailWrite
  rw [exec_queue_there h]
  dsimp only
  split
  · exact ⟨_, rfl, rfl⟩
  · split
    · exact ⟨_, rfl, rfl⟩
    · exact ⟨_, rfl, rfl⟩

/-- A tail that leaves no more than the ring holds is taken (03 R65). -/
theorem qtailWrite_fits (h : s.down d = false ∧ s.queueThere d q = true) (edf : cfgEdf (s.qreg d q 0) = true)
    (fits : (v.toNat % 2 ^ 32 + 2 ^ 32 - s.qreg d q 0x18 % 2 ^ 32) % 2 ^ 32 ≤ 2 ^ cfgLog (s.qreg d q 0)) :
    exec (.qtailWrite d q v) s = .next (s.setQreg d q 0x10 (v.toNat % 2 ^ 32)) := by
  have low (x : Nat) : bitsAt x 0 32 = x % 2 ^ 32 := by rw [bitsAt, pow_zero, Nat.div_one]
  change execQtailWrite d q v s = _
  unfold execQtailWrite
  rw [exec_queue_there h]
  dsimp only
  rw [edf, low, low, if_neg (by decide), if_neg (Nat.not_lt.2 fits)]

/-- A die has the timetable that it was given last. -/
theorem Die.tt_putTt (x : Die) (y : TTable) (hy : y.queue + 64 * b2n y.adopted = q) : (x.putTt y).tt q = some y := by
  subst hy
  unfold Die.putTt Die.tt
  exact List.find?_cons_of_pos (beq_self_eq_true _)

/-- A timetable is bound under the number of its queue. -/
theorem Die.tt_queue {x : Die} {y : TTable} (hy : x.tt q = some y) : y.queue + 64 * b2n y.adopted = q := by
  simpa using List.find?_some hy

theorem State.tt_setQreg {p : Nat} (ha : AllDies s) : ((s.setQreg d q o n).die d).tt p = (s.die d).tt p := by
  have set := congrArg (Die.tt · p) (State.die_updDie (d := d) (f := (·.setQreg q o n)) ha fun _ => rfl)
  exact set

/-- A write of QTT names the timetable to be bound at the end of the frame of the one that is bound (log 60). -/
theorem qttWrite_bound {y : TTable} (hx : s.appUp app = true) (h : s.down d = false ∧ s.queueThere d q = true) (ha : AllDies s)
    (hy : (s.die d).tt q = some y) : ∃ t, exec (.qttWrite d q v app) s = .next t ∧
      (t.die d).tt q = some { y with next := some (v.toNat % 2 ^ 56) } := by
  have all : AllDies (s.setQreg d q 0x20 (bitsAt v.toNat 0 56)) := (State.setDie_ids _ _).trans ha
  have low : bitsAt v.toNat 0 56 = v.toNat % 2 ^ 56 := by rw [bitsAt, pow_zero, Nat.div_one]
  have ran : exec (.qttWrite d q v app) s = _ := (State.byApp_of_up hx).trans (exec_queue_there h)
  rw [ran]
  dsimp only
  split
  · next z hz =>
    rw [State.tt_setQreg ha, hy] at hz
    cases hz
    refine ⟨_, rfl, ?_⟩
    rw [State.die_updDie (f := (·.putTt { y with next := some (bitsAt v.toNat 0 56) })) all fun _ => rfl, low]
    exact Die.tt_putTt _ _ (show y.queue + 64 * b2n y.adopted = q from Die.tt_queue hy)
  · next hz =>
    rw [State.tt_setQreg ha, hy] at hz
    cases hz

theorem qttWrite_core (hx : s.appUp app = true) (h : s.down d = false ∧ s.queueThere d q = true) :
    ∃ t, exec (.qttWrite d q v app) s = .next t ∧ t.core = s.core := by
  obtain ⟨lo, hi⟩ := qOff_bounds q
  have written : Steady d (qOff q + 0) s (s.setQreg d q 0x20 (bitsAt v.toNat 0 56)) := (Steady.refl s).setQreg (by decide)
  have ran : exec (.qttWrite d q v app) s = _ := (State.byApp_of_up hx).trans (exec_queue_there h)
  rw [ran]
  dsimp only
  split
  · exact ⟨_, rfl, rfl⟩
  · split
    · exact ⟨_, rfl, (written.bindTt (by decide) lo (by omega)).core⟩
    · exact ⟨_, rfl, rfl⟩

theorem execQtraceWrite_of_up (hx : s.appUp app = true) (h : s.down d = false ∧ s.queueThere d q = true) :
    exec (.qtraceWrite d q v app) s =
      if cfgEn (s.qreg d q 0) = true ∨ v.toNat % 32 < 4 ∨ 11 < v.toNat % 32 then .next (s.accViol d (qOff q + 0x30) app)
      else .next (s.setQreg d q 0x30 (v.toNat % 2 ^ 52 &&& 0xFFFFFFFFFF01F)) := by
  have size : (v.toNat % 2 ^ 52 &&& 0xFFFFFFFFFF01F) % 32 = v.toNat % 32 := by
    rw [show (32 : Nat) = 2 ^ 5 from rfl, Nat.and_mod_two_pow, Nat.mod_mod_of_dvd _ (by decide)]
    exact Nat.and_two_pow_sub_one_of_lt_two_pow (Nat.mod_lt _ (by decide))
  refine (State.byApp_of_up hx).trans ((exec_queue_there h).trans ?_)
  dsimp only
  rw [size]
  simp only [Bool.or_eq_true, decide_eq_true_eq, or_assoc]

/-- A write that is ignored leaves the registers of the queues. -/
theorem State.accViol_qreg {k : Nat} (ha : AllDies s) (hk : k < 0x40) : (s.accViol d off app).qreg d q k = s.qreg d q k := by
  obtain ⟨lo, hi⟩ := qOff_bounds q
  exact ((Steady.refl s).accViol (by omega)).qreg ha

/-- Every write completes, and the core in focus goes on as it was. -/
theorem exec_queue_core (ha : AllDies s) :
    ∀ i ∈ [Instr.qtailWrite d q v, .qttWrite d q v app, .qcfgWrite d q v app, .qtraceWrite d q v app, .qfaultRead d q],
      ∃ t, exec i s = .next t ∧ t.core = s.core := by
  by_cases h : s.down d = false ∧ s.queueThere d q = true
  · have byApp {i : Instr} (hi : i ∈ [Instr.qttWrite d q v app, .qcfgWrite d q v app, .qtraceWrite d q v app])
        (up : s.appUp app = true → ∃ t, exec i s = .next t ∧ t.core = s.core) : ∃ t, exec i s = .next t ∧ t.core = s.core := by
      cases hx : s.appUp app with
      | true => exact up hx
      | false => exact ⟨s, exec_queue_app_absent hx i hi, rfl⟩
    have trace (hx : s.appUp app = true) : ∃ t, exec (.qtraceWrite d q v app) s = .next t ∧ t.core = s.core := by
      rw [execQtraceWrite_of_up hx h]
      split
      · exact ⟨_, rfl, rfl⟩
      · exact ⟨_, rfl, rfl⟩
    simp only [List.forall_mem_cons, List.not_mem_nil, false_imp_iff, implies_true, and_true]
    exact ⟨qtailWrite_core h, byApp (by simp) fun hx => qttWrite_core hx h, byApp (by simp) fun hx => qcfgWrite_core hx h ha,
      byApp (by simp) trace, _, exec_queue_there h, rfl⟩
  · exact fun i hi => ⟨s, exec_queue_absent h i hi, rfl⟩

end

/-- Settles O48, register by register. -/
theorem queueRegisters : Obligations.QueueRegisters := by
  unfold Obligations.QueueRegisters
  intro s d q v app ha there cfg
  refine ⟨fun i hi => ⟨exec_queue_core ha i hi, fun h => exec_queue_absent h i hi⟩, exec_queue_app_absent, fun h hx => ?_⟩
  intro counted
  refine ⟨qtailWrite_fits h, fun y => qttWrite_bound hx h ha, ?config, ?trace, fun stopped lo hi => ?_, exec_queue_there h⟩
  case config =>
    intro w legal
    refine ⟨fun ok stopped => ?_, fun ok running => ?_, fun bad => ?_⟩
    · obtain ⟨t, ran, value, -⟩ := qcfgWrite_stopped hx h ha (w := w) rfl ok stopped
      exact ⟨t, ran, value⟩
    · obtain ⟨t, ran, value, -⟩ := qcfgWrite_running hx h ha (w := w) rfl ok running
      exact ⟨t, ran, value⟩
    · exact ⟨_, qcfgWrite_illegal hx h (w := w) rfl bad, State.accViol_qreg ha (by decide), rfl, rfl, State.accViol_reg ha⟩
  case trace =>
    intro bad
    exact ⟨_, (execQtraceWrite_of_up hx h).trans (if_pos bad), State.accViol_qreg ha (by decide), State.accViol_reg ha⟩
  · refine (execQtraceWrite_of_up hx h).trans (if_neg ?_)
    rintro (running | low | high)
    · exact Bool.false_ne_true (stopped.symm.trans running)
    · omega
    · omega

end Sys2Proof.Machine

/-! # The events of a task (O46) -/

namespace Sys2Proof.Machine

open Sys2Proof.Terms

section
variable {d e i j : DieId} {o : Nat} {s t u : State}

/-! ## Reads and writes of a unit that are answered in one step, and stores -/

theorem Steady.directRead (h : Steady d o s t) (hr : t.directRead i j = some u) : Steady d o s u := by
  unfold State.directRead at hr
  dsimp only at hr
  split at hr
  · cases hr
    exact h
  · split at hr
    · split at hr
      · cases hr
      · cases hr
        exact h
    · next other =>
      split at hr
      · cases hr
      · cases hr
        refine Steady.setDie (Steady.setDie h (t.die_id i) rfl) (t.die_id j) ?_
        rw [State.die_setDie_ne]
        · rfl
        · exact fun same => other (same.trans (t.die_id i)).symm

theorem Steady.directReads {l : List DieId} (h : Steady d o s t) (hr : t.directReads i l = some u) : Steady d o s u := by
  suffices folded : ∀ (l : List DieId) (x : Option State), (∀ v, x = some v → Steady d o s v) → ∀ u,
      l.foldl (fun x j => x.bind fun v => v.directRead i j) x = some u → Steady d o s u from
    folded _ _ (fun v eq => Option.some.inj eq ▸ h) u hr
  intro l
  induction l with
  | nil => exact fun _ hx => hx
  | cons j r ih =>
    refine fun x hx => ih _ fun v hv => ?_
    obtain ⟨w, hw, read⟩ := Option.bind_eq_some_iff.1 hv
    exact (hx w hw).directRead read

theorem Steady.localDlv (h : Steady d o s t) : Steady d o s (t.localDlv i) := h.setDie (t.die_id i) rfl

theorem Steady.directWrite (h : Steady d o s t) (hw : t.directWrite i j = some u) : Steady d o s u := by
  unfold State.directWrite at hw
  dsimp only at hw
  split at hw
  · cases hw
    exact h
  · split at hw
    · split at hw
      · cases hw
        exact Steady.localDlv (Steady.setDie h (t.die_id i) rfl)
      · cases hw
    · next other =>
      split at hw
      · cases hw
        refine Steady.setDie (Steady.setDie h (t.die_id i) rfl) (t.die_id j) ?_
        rw [State.die_setDie_ne]
        · rfl
        · exact fun same => other (same.trans (t.die_id i)).symm
      · cases hw

theorem Steady.directWrites {l : List DieId} (h : Steady d o s t) (hw : t.directWrites i l = some u) : Steady d o s u := by
  induction l generalizing t with
  | nil =>
    cases hw
    exact h
  | cons j r ih =>
    unfold State.directWrites at hw
    split at hw
    · next v eq => exact ih (h.directWrite eq) hw
    · cases hw

theorem Steady.getD {x : Option State} (h : Steady d o s t) (hx : ∀ u, x = some u → Steady d o s u) : Steady d o s (x.getD t) := by
  cases x with
  | none => exact h
  | some u => exact hx u rfl

theorem Steady.storeBytes {ctx pa : Nat} {l : List Byte} (h : Steady d o s t) : Steady d o s (t.storeBytes ctx pa l) := by
  unfold State.storeBytes
  dsimp only
  split
  · exact Steady.updDie h.frame fun _ => ⟨rfl, rfl⟩
  · exact h.frame

theorem Steady.decrement {ctx pa n : Nat} (h : Steady d o s t) : Steady d o s (t.decrement ctx pa n).1 := by
  unfold State.decrement
  dsimp only
  split
  · exact h.storeBytes
  · exact h.storeBytes

/-! ## Retirement, step by step -/

variable {x : Task} {f : Nat}

theorem Steady.luHold {ctx va : Nat} {r : Leaf → Bool} {read : Bool} (h : Steady d o s t)
    (hh : t.luHold e ctx va r read = some u) : Steady d o s u := by
  unfold State.luHold at hh
  split at hh
  · exact h.directReads hh
  · split at hh
    · cases hh
    · exact h.directReads hh

theorem Steady.completionHold (h : Steady d o s t) (hh : t.completionHold e x = some u) : Steady d o s u := by
  unfold State.completionHold at hh
  split at hh
  · cases hh
    exact h
  · exact h.luHold hh

theorem Steady.complete (h : Steady d o s t) (hi : o < 0x3000) : Steady d o s (t.complete e x).1 := by
  have held : Steady d o s ((t.completionHold e x).getD t) := h.getD fun _ => h.completionHold
  unfold State.complete
  dsimp only
  split
  · exact held
  · exact held.luRec hi
  · exact (held.getD fun _ => held.directWrites).decrement

theorem Steady.demote (h : Steady d o s t) (lo : 0x1000 ≤ o) : Steady d o s (t.demote x) := (h.slip lo).frame

theorem Steady.forget {n : TaskId} (h : Steady d o s t) : Steady d o s (t.forget n) := by
  refine Steady.frame (t := { t with dies := _ }) (h.changesDies ?_)
  exact fun _ => ⟨rfl, rfl⟩

theorem Steady.endFrame (h : Steady d o s t) (lo : 0x1000 ≤ o) : Steady d o s (t.endFrame e x f) := by
  unfold State.endFrame
  split
  · split
    · exact h
    · exact .ite h.putTt (h.putTt.slip lo)
  · exact h

theorem State.slip_tasks (s : State) {q cause reason seq overrun ctx ref : Nat} :
    (s.slip d q cause reason seq overrun ctx ref).tasks = s.tasks := by
  unfold State.slip
  dsimp only
  obtain ⟨v, m, eq⟩ := s.now.ringPut_eq (d := d) (ring := 0x100) (cnt := 0x108) (q0 := s.now.frame.toNat)
    (q1 := b2n (64 ≤ q) * 2 ^ 63 + q % 64 * 2 ^ 52 + cause * 2 ^ 48 + reason * 2 ^ 44 + seq % 2 ^ 32) (q2 := overrun % 2 ^ 48)
    (q3 := ctx % 16 * 2 ^ 48 + ref % 2 ^ 48)
  rw [eq]
  rfl

theorem State.endFrame_tasks (s : State) : (s.endFrame d x f).tasks = s.tasks := by
  unfold State.endFrame
  split
  · split
    · rfl
    · dsimp only
      split
      · rfl
      · exact State.slip_tasks _
  · rfl

/-- The retirement of a task once its completion counter is decremented: the record, and what follows it (03 R75 to R78). -/
def State.recorded (s : State) (d : DieId) (x : Task) (sat fail : Bool) (f : Nat) : State :=
  let t := (s.completion d (qnOf x.id) x sat fail f).forget x.id
  let u := if x.timed then t.endFrame d x f else t
  if x.demoted then u.slip d (qnOf x.id) 3 (x.phaseAt x.deadline) x.id.seq (f - x.deadline) x.ctx x.deadline else u

theorem State.retire_eq (lo : 0x1000 ≤ o) (hi : o < 0x3000) : ∃ u y sat fail f, s.retire d x = State.recorded u d y sat fail f ∧
    y.id = x.id ∧ Steady d o s u := by
  have now : Steady d o s s.now := (Steady.refl s).frame
  unfold State.retire
  refine ⟨_, _, _, _, _, rfl, rfl, ?_⟩
  refine Steady.complete ?_ hi
  have late : Steady d o s (if s.now.missed x then s.now.demote x else s.now) := .ite (now.demote lo) now
  exact .ite (late.updDie fun _ => ⟨rfl, rfl⟩) late

/-- The record takes the next place of its ring. -/
theorem State.completion_done {q : Nat} {sat fail : Bool} (ha : AllDies s) :
    (s.completion d q x sat fail f).qreg d q 0x18 / 2 ^ 32 = (s.qreg d q 0x18 / 2 ^ 32 + 1) % 2 ^ 32 ∧
      AllDies (s.completion d q x sat fail f) ∧ (s.completion d q x sat fail f).core = s.core := by
  have put {t : State} {v : Nat} (h : Steady d (qOff q + 0x18) s t) :
      (t.setQreg d q 0x18 v).qreg d q 0x18 = v % 2 ^ 64 ∧ AllDies (t.setQreg d q 0x18 v) ∧ (t.setQreg d q 0x18 v).core = s.core :=
    ⟨State.qreg_setQreg_self (h.allDies ha), (State.setDie_ids _ _).trans (h.allDies ha), h.core⟩
  obtain ⟨value, all, core⟩ := put (v := (s.qreg d q 0x18 / 2 ^ 32 + 1) % 2 ^ 32 * 2 ^ 32 + s.qreg d q 0x18 % 2 ^ 32)
    (Steady.refl s).wrRec.wrRec.wrRec.wrRec
  refine ⟨?_, all, core⟩
  unfold State.completion
  dsimp only
  rw [value]
  omega

theorem State.findTask_forget (s : State) (n : TaskId) : (s.forget n).findTask n = none := by
  unfold State.findTask State.forget
  simp

theorem State.recorded_done {sat fail : Bool} (ha : AllDies s) : (s.recorded d x sat fail f).findTask x.id = none ∧
    (s.recorded d x sat fail f).qreg d (qnOf x.id) 0x18 / 2 ^ 32 = (s.qreg d (qnOf x.id) 0x18 / 2 ^ 32 + 1) % 2 ^ 32 ∧
    (s.recorded d x sat fail f).core = s.core := by
  obtain ⟨value, all, core⟩ := s.completion_done (d := d) (x := x) (f := f) (q := qnOf x.id) (sat := sat) (fail := fail) ha
  obtain ⟨lo, hi⟩ := qOff_bounds (qnOf x.id)
  have rest : Steady d (qOff (qnOf x.id) + 0x18) (s.completion d (qnOf x.id) x sat fail f) (s.recorded d x sat fail f) := by
    have gone := (Steady.refl (d := d) (o := qOff (qnOf x.id) + 0x18) (s.completion d (qnOf x.id) x sat fail f)).forget (n := x.id)
    have ended := Steady.ite (p := x.timed = true) (gone.endFrame (e := d) (x := x) (f := f) (by omega)) gone
    exact .ite (ended.slip (by omega)) ended
  refine ⟨?_, by rw [rest.qreg all, value], rest.core.trans core⟩
  have tasks : (s.recorded d x sat fail f).tasks = ((s.completion d (qnOf x.id) x sat fail f).forget x.id).tasks := by
    unfold State.recorded
    dsimp only
    split
    · rw [State.slip_tasks]
      split
      · exact State.endFrame_tasks _
      · rfl
    · split
      · exact State.endFrame_tasks _
      · rfl
  unfold State.findTask
  rw [tasks]
  exact State.findTask_forget _ _

end
end Sys2Proof.Machine

namespace Sys2Proof.Machine

open Sys2Proof.Terms

section
variable {d : DieId} {i : TaskId} {t x : Task} {s u : State}

/-! ## A task that ends early -/

theorem State.findTask_updTask_self {f : Task → Task} (hf : s.findTask i = some x) (hid : ∀ y, (f y).id = y.id) :
    (s.updTask i f).findTask i = some (f x) := by
  rw [State.findTask_updTask s hid, hf, Option.map_some, if_pos (State.findTask_id hf)]

/-- A task that ends early has the status and detail of its end: what stops its strands leaves them. -/
theorem State.findTask_endTask (s : State) {n detail g : Nat} (hf : s.findTask i = some x) (hs : x.status = 0) :
    ∃ y, (s.endTask i n detail g).findTask i = some y ∧ y.status = n ∧ y.detail = detail := by
  have stopped (r : State) : (r.stopTask i).findTask i = (r.updTask i Task.unlogged).findTask i :=
    (Quiet.stopTask (.refl _)).findTask
  refine ⟨_, (stopped _).trans (State.findTask_updTask_self (State.findTask_updTask_self hf ?_) ?_), if_pos hs, if_pos hs⟩
  · exact fun _ => rfl
  · exact fun _ => rfl

/-! ## Release and samples -/

/-- The sample of a task without wait conditions leaves it ready, since now if it was not. -/
theorem State.sampleTask_no_conds (s : State) (h0 : t.cond 0 = none) (h1 : t.cond 1 = none) : ∃ spells : Task → List (Nat × Nat),
    s.sampleTask t = s.updTask t.id fun x => { x with ready := some (x.ready.getD s.frame.toNat), spells := spells x } := by
  have sampled {k : Nat} (h : t.cond k = none) : s.sample t k = .ok (some true) := by
    unfold State.sample
    rw [h]
  have held {k : Nat} (h : t.cond k = none) : s.sampleHold t k = some s := by
    unfold State.sampleHold
    rw [h]
  have hears : (List.range 2).foldl (fun r k => (State.sampleHold r t k).getD r) s = s := by
    change ((((s.sampleHold t 0).getD s).sampleHold t 1).getD ((s.sampleHold t 0).getD s)) = s
    rw [held h0, Option.getD_some, held h1, Option.getD_some]
  unfold State.sampleTask
  rw [sampled h0, sampled h1]
  dsimp only [bothHold]
  rw [hears]
  exact ⟨_, rfl⟩

theorem taskRelease_next (hf : s.findTask t.id = some t) (hr : t.released = false) (hs : t.status = 0)
    (up : s.launchUp (homeOf t.id) = true) (due : t.release ≤ s.frame.toNat) : exec (.taskRelease t.id) s =
      .next ((s.updTask t.id fun x => { x with released := true }).sampleTask { t with released := true }) := by
  change execTaskRelease t.id s = _
  unfold execTaskRelease
  rw [hf]
  dsimp only
  rw [hr, hs, up, if_neg (by simpa using due)]

theorem taskRelease_no_conds (hf : s.findTask t.id = some t) (hr : t.released = false) (hs : t.status = 0)
    (up : s.launchUp (homeOf t.id) = true) (due : t.release ≤ s.frame.toNat) (h0 : t.cond 0 = none) (h1 : t.cond 1 = none) :
    ∃ u v, exec (.taskRelease t.id) s = .next u ∧ u.findTask t.id = some v ∧ v.released = true ∧
      (t.ready = none → v.ready = some s.frame.toNat) ∧ u.mem = s.mem ∧ u.dies = s.dies ∧ u.core = s.core := by
  obtain ⟨spells, sampled⟩ := (s.updTask t.id fun x => { x with released := true }).sampleTask_no_conds
    (t := { t with released := true }) h0 h1
  have released : (s.updTask t.id fun x => { x with released := true }).findTask t.id = some { t with released := true } :=
    State.findTask_updTask_self hf fun _ => rfl
  refine ⟨_, _, (taskRelease_next hf hr hs up due).trans (congrArg _ sampled), State.findTask_updTask_self released fun _ => rfl,
    rfl, fun none => ?_, rfl, rfl, rfl⟩
  change some (t.ready.getD s.frame.toNat) = _
  rw [none, Option.getD_none]

theorem counterWatch_next (up : s.launchUp d = true) (news : t ∈ s.newsOf ((s.conds d).take 256)) :
    ∃ u, exec (.counterWatch d) s = .next u := by
  change ∃ u, execCounterWatch d s = .next u
  unfold execCounterWatch
  split
  · next none => exact absurd (none ▸ news) List.not_mem_nil
  · exact ⟨_, if_pos up⟩

theorem counterPoll_next (up : s.launchUp d = true) (news : t ∈ s.newsOf ((s.conds d).drop 256)) :
    ∃ u, exec (.counterPoll d) s = .next u := by
  change ∃ u, execCounterPoll d s = .next u
  unfold execCounterPoll
  split
  · next none => exact absurd (none ▸ news) List.not_mem_nil
  · exact ⟨_, if_pos up⟩

/-! ## The signature check -/

theorem State.badPteRec_tasks (s : State) {ctx va master : Nat} {w : WalkRes} : (s.badPteRec d ctx va w master).tasks = s.tasks := by
  unfold State.badPteRec
  split
  · next l _ =>
    obtain ⟨v, m, fr, n, eq⟩ := s.faultRec_eq (d := d) (ctx := ctx) (kind := 3) (va := va) (pa := 0) (detail := l) (master := master)
    rw [eq]
    rfl
  · rfl

theorem signatureCheck_next {im : Image} {o n : Nat} (hf : s.findTask t.id = some t) (hi : t.image = some im)
    (hsig : im.sign = some (o, n)) (hv : im.verified = false) (hs : t.status = 0) :
    ∃ u v, exec (.signatureCheck t.id) s = .next u ∧ u.findTask t.id = some v ∧
      (v.status = 4 ∨ (v.status = 0 ∧ v.image = some { im with verified := true })) := by
  change ∃ u v, execSignatureCheck t.id s = .next u ∧ _
  unfold execSignatureCheck
  rw [hf]
  dsimp only
  rw [hi]
  dsimp only
  rw [hsig]
  dsimp only
  rw [hv, hs, if_neg (by decide)]
  have verified := State.findTask_updTask_self (f := fun x => { x with image := some { im with sign := some (o, n), verified := true } })
    hf fun _ => rfl
  have ends (r : State) (hr : r.tasks = s.tasks) : ∃ v, (r.endTask t.id 4 0 0).findTask t.id = some v ∧ v.status = 4 := by
    have found : r.findTask t.id = some t := by
      unfold State.findTask
      rw [hr]
      exact hf
    obtain ⟨v, after, status, -⟩ := r.findTask_endTask (n := 4) (detail := 0) (g := 0) found hs
    exact ⟨v, after, status⟩
  cases s.luRead t.ctx im.va im.size with
  | error e =>
    obtain ⟨v, after, status⟩ := ends _ (s.badPteRec_tasks (d := homeOf t.id) (ctx := t.ctx) (va := e.1)
      (master := s.luMaster (homeOf t.id)) (w := s.walkVa t.ctx e.1))
    exact ⟨_, v, rfl, after, .inl status⟩
  | ok l =>
    obtain ⟨v, after, status⟩ := ends s rfl
    dsimp only
    split
    · refine ⟨_, _, rfl, verified, .inr ⟨hs, ?_⟩⟩
      rw [← hsig]
    · exact ⟨_, v, rfl, after, .inl status⟩

/-! ## Deadlines and retirement -/

theorem deadlineMiss_next (hf : s.findTask t.id = some t) (up : s.launchUp (homeOf t.id) = true) (late : s.missed t = true) :
    ∃ u v, exec (.deadlineMiss t.id) s = .next u ∧ u.findTask t.id = some v ∧ v.demoted = true ∧ u.core = s.core := by
  have ran : exec (.deadlineMiss t.id) s = .next (s.demote t) := by
    change execDeadlineMiss t.id s = _
    unfold execDeadlineMiss
    rw [hf]
    dsimp only
    rw [late, up, if_neg (by decide)]
  have found : (s.slip (homeOf t.id) (qnOf t.id) 2 (t.phaseAt t.deadline) t.id.seq 0 t.ctx t.deadline).findTask t.id = some t := by
    unfold State.findTask
    rw [State.slip_tasks]
    exact hf
  refine ⟨_, _, ran, State.findTask_updTask_self found fun _ => rfl, rfl, ?_⟩
  exact ((Steady.refl (d := .cd0) (o := 0x1000) s).demote (by decide)).core

theorem taskRetire_next (ha : AllDies s) (hf : s.findTask t.id = some t) (up : s.launchUp (homeOf t.id) = true)
    (done : s.canRetire t = true) (free : s.completionHeld (homeOf t.id) t = false) :
    ∃ u, exec (.taskRetire t.id) s = .next u ∧ u.findTask t.id = none ∧
      u.qreg (homeOf t.id) (qnOf t.id) 0x18 / 2 ^ 32 = (s.qreg (homeOf t.id) (qnOf t.id) 0x18 / 2 ^ 32 + 1) % 2 ^ 32 ∧
      u.core = s.core := by
  have ran : exec (.taskRetire t.id) s = .next (s.retire (homeOf t.id) t) := by
    change execTaskRetire t.id s = _
    unfold execTaskRetire
    rw [hf]
    dsimp only
    rw [up, done, free, if_pos (by simp)]
  obtain ⟨lo, hi⟩ := qOff_bounds (qnOf t.id)
  obtain ⟨u, y, sat, fail, f, eq, name, steady⟩ := s.retire_eq (d := homeOf t.id) (x := t) (o := qOff (qnOf t.id) + 0x18)
    (by omega) (by omega)
  obtain ⟨gone, counted, core⟩ := u.recorded_done (d := homeOf t.id) (x := y) (f := f) (sat := sat) (fail := fail) (steady.allDies ha)
  rw [name] at gone counted
  rw [steady.qreg ha] at counted
  rw [ran, eq]
  exact ⟨_, rfl, gone, counted, core.trans steady.core⟩

end

/-- Settles O46, event by event. -/
theorem taskEvents : Obligations.TaskEvents := by
  unfold Obligations.TaskEvents
  intro s t d ha hf
  refine ⟨fun hr hs up due => ⟨⟨_, taskRelease_next hf hr hs up due⟩, fun h0 h1 => taskRelease_no_conds hf hr hs up due h0 h1⟩,
    counterWatch_next, counterPoll_next, fun im o n hi hsig hv hs => signatureCheck_next hf hi hsig hv hs,
    fun up => ⟨deadlineMiss_next hf up, fun done free _ => taskRetire_next ha hf up done free⟩⟩

end Sys2Proof.Machine

/-! # Detection, the save area and the loader (O45) -/

namespace Sys2Proof.Machine

open Sys2Proof.Terms

section
variable {s t u : State} {c k : Core} {id : CoreId}

/-! ## Cores by name -/

@[simp] theorem State.focus_self (s : State) : s.focus s.core.id = s := if_pos rfl
@[simp] theorem State.getCore_self (s : State) : s.getCore s.core.id = s.core := if_pos rfl

theorem findCore_id (l : List Core) (id : CoreId) : (findCore l id).id = id := by
  unfold findCore
  cases h : l.find? (·.id == id) with
  | none => rfl
  | some k => simpa using List.find?_some h

theorem findCore_cons_self (c : Core) (l : List Core) : findCore (c :: l) c.id = c := by
  unfold findCore
  rw [List.find?_cons, beq_self_eq_true]
  rfl

@[simp] theorem State.getCore_id (s : State) (id : CoreId) : (s.getCore id).id = id := by
  unfold State.getCore
  split
  · next h => exact h
  · exact findCore_id _ _

@[simp] theorem State.focus_core (s : State) (id : CoreId) : (s.focus id).core = s.getCore id := by
  unfold State.focus State.getCore
  split
  · rfl
  · rfl

/-- A core that is set is the core of its name. -/
theorem State.getCore_setCore (s : State) (hc : c.id = id) : (s.setCore c).getCore id = c := by
  subst hc
  unfold State.setCore State.getCore
  split
  · exact if_pos rfl
  · next other =>
    exact findCore_cons_self _ _

theorem State.getCore_updCore (s : State) {f : Core → Core} (hf : ∀ c, (f c).id = c.id) :
    (s.updCore id f).getCore id = f (s.getCore id) :=
  s.getCore_setCore ((hf _).trans (s.getCore_id id))

/-! ## What a discarded core goes back to (13 R387) -/

/-- The part of a core that a replay starts from, and the count of its retries. -/
def Core.anchor (c : Core) : CoreId × Nat × Vector (BitVec 32) 16 × Word := (c.id, c.inst.id, c.inst.k, c.rcvstat)

/-- No step of a routine moves the anchor of the core in focus. -/
def Anchored (s t : State) : Prop := t.core.anchor = s.core.anchor

theorem Anchored.parts (h : Anchored s t) : t.core.id = s.core.id ∧ t.core.inst.id = s.core.inst.id ∧
    t.core.inst.k = s.core.inst.k ∧ t.core.rcvstat = s.core.rcvstat := by
  simpa only [Anchored, Core.anchor, Prod.mk.injEq] using h

theorem Anchored.updCore {f : Core → Core} (h : Anchored s t) (hf : ∀ c, (f c).anchor = c.anchor) : Anchored s (t.updCore id f) := by
  have name : ∀ c, (f c).id = c.id := fun c => congrArg Prod.fst (hf c)
  unfold State.updCore State.setCore
  split
  · next same =>
    rw [name, t.getCore_id] at same
    subst same
    rw [State.getCore_self]
    exact (hf _).trans h
  · exact h

theorem Anchored.inject {n : Nat} (h : Anchored s t) : Anchored s (t.inject id n) := by
  have moved : Anchored s (t.updCore id fun c =>
    { c with errInj := c.errInj &&& ~~~(BitVec.ofNat 64 (2 ^ 63)), injected := c.injected ++ [n] }) := h.updCore fun _ => rfl
  exact moved

theorem Anchored.injReads {l : List Nat} (h : Anchored s t) : Anchored s (t.injReads id l) := by
  unfold State.injReads
  dsimp only
  split
  · exact h.inject
  · exact h

theorem Anchored.setAccEntry {e v : Nat} (h : Anchored s t) : Anchored s (t.setAccEntry id e v) := h

theorem Anchored.routineEntry {e v : Nat} (h : Anchored s t) : Anchored s (t.routineEntry id e v) := by
  unfold State.routineEntry State.signedEntry
  refine Anchored.setAccEntry (Anchored.updCore (Anchored.updCore h ?_) ?_)
  · exact fun _ => rfl
  · exact fun _ => rfl

theorem Anchored.foldl_mm {α : Type} {l : List α} {f : MmSt → α → MmSt} {m : MmSt} (hm : Anchored s m.s)
    (hf : ∀ m x, Anchored s m.s → Anchored s (f m x).s) : Anchored s (l.foldl f m).s :=
  List.foldlRecOn (motive := fun m : MmSt => Anchored s m.s) _ _ hm fun m h x _ => hf m x h

theorem Anchored.mmBlock {p : RtParam} {float skip : Bool} {rows : Array (Array Opnd)} {tiles : Array BTile} {sA : Nat → Nat}
    {m : MmSt} (hm : Anchored s m.s) : Anchored s (mmBlock id p float skip rows tiles sA m).s := by
  have noted {f : Core → Core} (hf : ∀ c, (f c).anchor = c.anchor) : Anchored s (m.s.updCore id f) := hm.updCore hf
  refine .foldl_mm ?_ fun m x h => ?_
  · dsimp only
    split
    · exact Anchored.inject (noted fun _ => rfl)
    · exact noted fun _ => rfl
  · exact h.routineEntry

theorem Anchored.runMm {r n : Nat} {e : QEntry} (h : Anchored s t) : Anchored s (runMm t id r e n).s :=
  .foldl_mm h fun _ _ hm => Anchored.mmBlock hm.injReads

theorem Anchored.partialRoutine {n : Nat} (h : Anchored s t) : Anchored s (t.partialRoutine n) := by
  unfold State.partialRoutine
  split
  · split
    · split
      · exact h.runMm
      · exact h
    · exact h
  · exact h

theorem Anchored.wallNow (h : Anchored s t) : Anchored s t.wallNow := by
  unfold State.wallNow
  split
  · exact h
  · exact h

/-- What is uncommitted at the core in focus discarded: the core goes back, and no effect that it holds remains. -/
theorem State.discard_self (s : State) : (s.discard s.core.id).core = s.core.rewind ∧
    ∀ e ∈ (s.discard s.core.id).effects, ¬ (e.core = s.core.id ∧ e.inst = s.core.inst.id ∧ e.committed = false) := by
  unfold State.discard State.setCore
  dsimp only
  rw [State.getCore_self, if_pos (show s.core.id = s.core.rewind.id from rfl)]
  refine ⟨rfl, fun e he => ?_⟩
  have kept := (List.mem_filter.1 he).2
  rintro ⟨core, inst, held⟩
  simp [core, inst, held] at kept

/-! ## DETECTOR_EVENT -/

variable {st : Strand} {num blocks : Nat}

/-- The state in which a detector of the core in focus has reported its event (13 R388). -/
def State.reported (s : State) (num : Nat) : State :=
  s.wallNow.onCore fun c =>
    { c with injected := c.injected.erase num, events := if s.core.injected.contains num then c.events else c.wall :: c.events }

theorem State.wallNow_events (s : State) : s.wallNow.core.events = s.core.events := by
  unfold State.wallNow
  split
  · rfl
  · rfl

theorem State.wallNow_tasks (s : State) : s.wallNow.tasks = s.tasks := by
  unfold State.wallNow
  split
  · rfl
  · rfl

/-- A detector 1 to 7 of a running strand reports: its task ends, its core retires, or its work since the last commit is replayed. -/
theorem exec_detectorEvent (hst : s.core.strand = some st) (he : s.core.ended = false) (hstop : s.core.stopping = none)
    (h1 : 1 ≤ num) (h7 : num ≤ 7) : exec (.detectorEvent s.core.id num blocks) s =
      if !s.core.recovEn then .next ((s.reported num).endTask st.task 7 num st.gang)
      else if bitsAt s.core.rcvstat.toNat 0 2 == s.core.retryLimit || (!s.core.injected.contains num && s.wallNow.core.sixteenth) then
        .next ((((s.reported num).partialRoutine blocks).discard s.core.id).retireCore st num)
      else .next ((((s.reported num).partialRoutine blocks).discard s.core.id).onCore fun c =>
        { c with rcvstat := c.rcvstat + 1 + .ofNat 64 (2 ^ 32) }) := by
  have guard : (s.core.ended || s.core.stopping.isSome || decide (num = 0) || decide (7 < num)) = false := by
    rw [he, hstop]
    simp only [Option.isSome_none, Bool.false_or, Bool.or_eq_false_iff, decide_eq_false_iff_not]
    omega
  change execDetectorEvent s.core.id num blocks s = _
  unfold execDetectorEvent
  rw [State.focus_self]
  dsimp only
  rw [hst]
  dsimp only
  rw [guard]
  rfl

/-- With recovery off the task ends with status 7 and the detector's number. -/
theorem detectorEvent_ends {x : Task} (hst : s.core.strand = some st) (he : s.core.ended = false) (hstop : s.core.stopping = none)
    (h1 : 1 ≤ num) (h7 : num ≤ 7) (off : s.core.recovEn = false) (hf : s.findTask st.task = some x) (hx : x.status = 0) :
    ∃ t y, exec (.detectorEvent s.core.id num blocks) s = .next t ∧ t.findTask st.task = some y ∧ y.status = 7 ∧ y.detail = num := by
  have found : (s.reported num).findTask st.task = some x := by
    change s.wallNow.tasks.find? _ = _
    rw [State.wallNow_tasks]
    exact hf
  obtain ⟨y, ends⟩ := State.findTask_endTask _ (n := 7) (detail := num) (g := st.gang) found hx
  rw [exec_detectorEvent hst he hstop h1 h7, off, if_pos (by rfl)]
  exact ⟨_, y, rfl, ends⟩

theorem Core.rewind_rcvstat (c : Core) : c.rewind.rcvstat = c.rcvstat := rfl
theorem Core.rewind_kreg (c : Core) : c.rewind.kreg = c.inst.k := rfl
theorem Core.k_of_kreg (h : c.kreg = k.kreg) : c.k = k.k := by
  unfold Core.k
  rw [h]

/-- Fewer than 15 events on record make no sixteenth (13 R388). -/
theorem Core.sixteenth_of_few (h : c.events.length < 15) : c.sixteenth = false := by
  unfold Core.sixteenth
  exact decide_eq_false (Nat.not_le.2 (Nat.lt_of_le_of_lt (List.length_filter_le _ _) h))

/-- With recovery on and retries left, the work since the last commit is discarded and one retry is counted. -/
theorem detectorEvent_replays (hst : s.core.strand = some st) (he : s.core.ended = false) (hstop : s.core.stopping = none)
    (h1 : 1 ≤ num) (h7 : num ≤ 7) (on : s.core.recovEn = true) (left : bitsAt s.core.rcvstat.toNat 0 2 ≠ s.core.retryLimit)
    (few : s.core.events.length < 15) : ∃ t, exec (.detectorEvent s.core.id num blocks) s = .next t ∧
      t.core.rcvstat = s.core.rcvstat + 1 + BitVec.ofNat 64 (2 ^ 32) ∧ t.core.k = s.core.rewind.k ∧
      ∀ e ∈ t.effects, ¬ (e.core = s.core.id ∧ e.inst = s.core.inst.id ∧ e.committed = false) := by
  have anchored : Anchored s ((s.reported num).partialRoutine blocks) :=
    Anchored.partialRoutine (t := s.reported num) (Anchored.wallNow (s := s) rfl)
  obtain ⟨name, inst, record, count⟩ := anchored.parts
  obtain ⟨core, effects⟩ := ((s.reported num).partialRoutine blocks).discard_self
  rw [name] at core effects
  rw [inst] at effects
  rw [exec_detectorEvent hst he hstop h1 h7, on, if_neg (by decide), Core.sixteenth_of_few (s.wallNow_events ▸ few), Bool.and_false,
    Bool.or_false, if_neg (by simpa using left)]
  generalize State.discard _ s.core.id = after at core effects
  refine ⟨_, rfl, ?_, Core.k_of_kreg ?_, ?_⟩
  · rw [State.onCore_core]
    dsimp only
    rw [core, Core.rewind_rcvstat, count]
  · rw [State.onCore_core]
    dsimp only
    rw [core, Core.rewind_kreg, Core.rewind_kreg, record]
  · rw [State.onCore_effects]
    exact effects

end
end Sys2Proof.Machine

/-! ## The save area (13 R391 to R393) -/

namespace Sys2Proof.Machine

open Sys2Proof.Terms

section
variable {s t u : State} {c k : Core} {id : CoreId} {b n : Nat}

/-- Every value of `l` ends at or below offset `n`. -/
def Within (n : Nat) (l : List (Nat × Nat × Nat)) : Prop := ∀ x ∈ l, x.1 + x.2.1 ≤ n

theorem Within.nil : Within n [] := fun _ h => absurd h List.not_mem_nil

theorem Within.cons {o m v : Nat} {l : List (Nat × Nat × Nat)} (h : o + m ≤ n) (hl : Within n l) : Within n ((o, m, v) :: l) :=
  List.forall_mem_cons.2 ⟨h, hl⟩

theorem Within.append {l m : List (Nat × Nat × Nat)} (hl : Within n l) (hm : Within n m) : Within n (l ++ m) :=
  List.forall_mem_append.2 ⟨hl, hm⟩

/-- Records one after the other. -/
theorem Within.records {α : Type} {l : List α} {f : α × Nat → List (Nat × Nat × Nat)}
    (hf : ∀ x i, i < l.length → Within n (f (x, i))) : Within n (l.zipIdx.flatMap f) := by
  intro x hx
  obtain ⟨⟨y, i⟩, hy, hx⟩ := List.mem_flatMap.1 hx
  exact hf y i (List.snd_lt_of_mem_zipIdx hy) x hx

theorem Within.liveRegs {o m mask : Nat} {l : List Nat} (h : o + m * l.length ≤ n) : Within n (liveRegs o m mask l) := by
  intro x hx
  unfold Machine.liveRegs at hx
  obtain ⟨⟨y, i⟩, hy, hx⟩ := List.mem_filterMap.1 hx
  have place : m * (i + 1) ≤ m * l.length := Nat.mul_le_mul_left m (List.snd_lt_of_mem_zipIdx hy)
  dsimp only at hx
  split at hx
  · cases hx
    rw [Nat.mul_add, Nat.mul_one] at place
    dsimp only
    omega
  · cases hx

theorem copyRec_within {o : Nat} {e : QEntry} {landed : Option Nat} (h : o + 512 ≤ n) : Within n (copyRec o e landed) := by
  unfold copyRec
  exact .cons (by omega) (.cons (by omega) (.cons (by omega) (.cons (by omega) (.cons (by omega) (.cons (by omega) .nil)))))

theorem landingRec_within {now o : Nat} {l : Landing} (h : o + 512 ≤ n) : Within n (landingRec now o l) := by
  unfold landingRec
  exact .cons (by omega) (.cons (by omega) (.cons (by omega) (.cons (by omega) .nil)))

theorem trelRec_within {i : Nat} {x : Trel} (h : 0x660000 + 32 * i + 32 ≤ n) (hi : i < 256) : Within n (trelRec i x) := by
  unfold trelRec
  exact .cons (by omega) (.cons (by omega) (.cons (by omega) (.cons (by omega) (.cons (by omega) .nil))))

/-- A save area lies within its slot of 2^23 bytes (Table 13-6). -/
theorem saveWords_within {st : Strand} {d : Die} {reason : Nat} {live : Pause} {lands : List Landing}
    (ht : c.trellis.length ≤ 256) (hl : lands.length ≤ 64) (hr : c.ceRun.length + c.ceq.length ≤ 20) :
    Within (2 ^ 23) (saveWords c st d reason live lands) := by
  have depth (q m : Nat) : min (bitsAt q 32 3) m < 8 := Nat.lt_of_le_of_lt (Nat.min_le_left _ _) (bitsAt_lt q 32 3)
  unfold saveWords
  dsimp only
  refine .append (.append (.append (.append (.append (.append (.append (.append (.append (.append (.append ?header ?loops)
    ?counters) ?mps) ?scalars) ?predicates) ?handles) ?endpoints) ?vectors) ?copies) ?landings) ?log
  case header => simp [Within]
  case loops =>
    refine .records fun x i hi => ?_
    have few : i < 8 := Nat.lt_trans (Nat.lt_of_lt_of_le hi (List.length_take_le _ _)) (depth _ _)
    exact .cons (by omega) (.cons (by omega) (.cons (by omega) (.cons (by omega) .nil)))
  case counters | mps | scalars | predicates | handles | vectors => exact .liveRegs (by simp)
  case endpoints =>
    intro x hx
    obtain ⟨i, hi, rfl⟩ := List.mem_map.1 hx
    have place := List.mem_range.1 hi
    dsimp only
    omega
  case copies =>
    refine .records fun x i hi => copyRec_within ?_
    rw [List.length_append, List.length_map, List.length_map] at hi
    omega
  case landings => exact .records fun x i hi => landingRec_within (by omega)
  case log => exact .records fun x i hi => trelRec_within (by omega) (by omega)

/-- Values written beside an address leave its byte. -/
theorem memGet_putAt {l : List (Nat × Nat × Nat)} (hl : Within n l) {a : Nat} (ha : a < b ∨ b + n ≤ a) :
    memGet (s.putAt b l).mem a = memGet s.mem a := by
  change memGet (l.foldl (fun m x => memPut m (b + x.1) x.2.2 x.2.1) s.mem) a = _
  refine List.foldlRecOn (motive := fun m => memGet m a = memGet s.mem a) l _ rfl fun m hm x hx => ?_
  have ends := hl x hx
  rw [memGet_memPut_out _ _ _ _ _ (by omega), hm]

/-! ## The near scratchpad in its area -/

theorem memGet_foldl_memSet_above {l : List (Nat × Byte)} {m : List Host.Cell} {a o : Nat} (ha : a < o) :
    memGet (l.foldl (fun m x => memSet m (x.1 + b + o) x.2) m) (b + a) = memGet m (b + a) := by
  refine List.foldlRecOn (motive := fun m' => memGet m' (b + a) = memGet m (b + a)) l _ rfl fun m' hm x _ => ?_
  rw [memGet_memSet_ne _ _ _ _ (by omega), hm]

/-- The memory after core `id` has been saved at `b`: the values `l`, its scratchpad, its accumulators and its write buffer. -/
def State.areaMem (s : State) (id : CoreId) (b : Nat) (l : List (Nat × Nat × Nat)) (wb : List (Nat × Byte)) : List Host.Cell :=
  let m := memMove (memMove (s.putAt b l).mem (nspBase id) (nspSize id) (b + 0x20000)) (accBase id) (10 * accEntries id) (b + 0x420000)
  wb.foldl (fun m x => memSet m (x.1 + b + 0x560000) x.2) (memZero m (b + 0x560000) 0x100000)

theorem nspSize_le (id : CoreId) : nspSize id ≤ 0x400000 := by
  unfold nspSize
  split
  · exact Nat.le_refl _
  · decide

/-- The scratchpad stands at 0x20000 of the area, when the slot ends below it. -/
theorem State.memGet_areaMem {l : List (Nat × Nat × Nat)} {wb : List (Nat × Byte)} {i : Nat} (hl : Within (2 ^ 23) l)
    (hb : b + 2 ^ 23 ≤ nspBase id) (hi : i < nspSize id) :
    memGet (s.areaMem id b l wb) (b + 0x20000 + i) = memGet s.mem (nspBase id + i) := by
  have size := nspSize_le id
  have place : b + (0x20000 + i) - (b + 0x20000) = i := by omega
  unfold State.areaMem
  dsimp only
  rw [Nat.add_assoc, memGet_foldl_memSet_above (by omega), memGet_memZero, if_neg (by omega), memGet_memMove, if_neg (by omega),
    memGet_memMove, if_pos (by omega), memGet_putAt hl (by omega), place]

/-- A slot lies on a multiple of its size. -/
theorem State.slotBase_aligned {d : DieId} {i : TaskId} {g l : Nat} (h : s.slotBase d i g l = some b) : b % 2 ^ 23 = 0 := by
  unfold State.slotBase at h
  obtain ⟨x, _, rfl⟩ := Option.map_eq_some_iff.1 h
  exact Nat.mul_mod_left _ _

theorem code_of_ofCode {k : Nat} {d : DieId} (h : DieId.ofCode k = some d) : d.code = k := by
  unfold DieId.ofCode at h
  obtain ⟨hk, rfl⟩ := List.getElem?_eq_some_iff.1 h
  match k, hk with
  | 0, _ | 1, _ | 2, _ | 3, _ => rfl

theorem paDie_code {a : Nat} {d : DieId} (h : paDie a = some d) : a / 2 ^ 49 = d.code := by
  unfold paDie at h
  split at h
  · exact (code_of_ofCode h).symm
  · cases h

theorem twin_code_ne (d : DieId) : d.twin.code ≠ d.code := by
  cases d <;> decide

/-- No address is in a slot and in the copy of the slot on the die's twin. -/
theorem twin_apart {d : DieId} {o i : Nat} (hd : paDie b = some d) (hb : b % 2 ^ 23 = 0) (ho : o + 2 ^ 23 ≤ 2 ^ 49) (hi : i < 2 ^ 23) :
    ¬ (dieBase d.twin + o ≤ b + i ∧ b + i < dieBase d.twin + o + 2 ^ 23) := by
  have code := paDie_code hd
  have other := twin_code_ne d
  unfold dieBase
  omega

/-- A slot none of whose pages refuses an access holds what was written to it. -/
theorem State.memGet_slotMem {m : List Host.Cell} {i : Nat} (hb : b % 2 ^ 23 = 0) (hi : i < 2 ^ 23)
    (hm : ∀ d x, paDie b = some d → (s.die d).mirror (b % 2 ^ 49) = some x → x.2 + (b % 2 ^ 49 - x.1) + 2 ^ 23 ≤ 2 ^ 49) :
    memGet (s.slotMem b [] m).mem (b + i) = memGet m (b + i) := by
  unfold State.slotMem
  dsimp only [List.foldl_nil]
  split
  · next d hd =>
    split
    · next base dest hx =>
      have range := hm d _ hd hx
      split
      · rfl
      · rw [memGet_memMove, Nat.add_assoc, if_neg (twin_apart hd hb range hi)]
    · rfl
  · rfl

/-! ## SAVE_AREA_WRITE -/

variable {st : Strand} {r : Nat}

/-- The state in which the area of a stopped strand has been written and its core freed (13 R391). -/
def State.areaWritten (s : State) (st : Strand) (r b : Nat) : State :=
  let c := s.core
  let v := (s.slotRecs c.id st.ctx needW (s.slotBad b)).draw.2
  let live := liveEntry c st r (Config.freeWord (s.slotRecs c.id st.ctx needW (s.slotBad b)).free)
  let words := saveWords c st (v.die c.id.die) r live (c.arb.map (v.fixLanding c.id))
  { v.slotMem b ((s.slotBad b).map (·.2)) (v.areaMem c.id b words c.wb) with
    core := { c.free with trellis := [], ceq := [], ceRun := [], stale := [] } }

/-- SAVE_AREA_WRITE leaves the memory and the core of the written area. -/
theorem exec_saveAreaWrite (hst : s.core.strand = some st) (hstop : s.core.stopping = some r)
    (hb : s.slotBase s.core.id.die st.task st.gang st.lcore = some b) (quiet : s.core.quiet = true) (he : s.core.ended = false)
    (still : s.slotSwitching b = false) : ∃ t, exec (.saveAreaWrite s.core.id) s = .next t ∧ t.core = (s.areaWritten st r b).core ∧
      t.mem = (s.areaWritten st r b).mem := by
  change ∃ t, execSaveAreaWrite s.core.id s = _ ∧ _
  unfold execSaveAreaWrite
  rw [State.focus_self]
  dsimp only
  rw [hst, hstop]
  dsimp only
  rw [hb]
  dsimp only
  rw [quiet, he, still, if_neg (by decide)]
  split
  · exact ⟨_, rfl, rfl, rfl⟩
  · exact ⟨_, rfl, rfl, rfl⟩

/-- A slot that refuses nothing: the scratchpad of the core stands in it. -/
theorem State.memGet_areaWritten {i : Nat} (hb : s.slotBase s.core.id.die st.task st.gang st.lcore = some b)
    (few : s.core.trellis.length ≤ 256 ∧ s.core.arb.length ≤ 64 ∧ s.core.ceRun.length + s.core.ceq.length ≤ 20)
    (below : b + 2 ^ 23 ≤ nspBase s.core.id) (good : s.slotBad b = [])
    (hm : ∀ d x, paDie b = some d → (s.die d).mirror (b % 2 ^ 49) = some x → x.2 + (b % 2 ^ 49 - x.1) + 2 ^ 23 ≤ 2 ^ 49)
    (hi : i < nspSize s.core.id) :
    memGet (s.areaWritten st r b).mem (b + 0x20000 + i) = memGet s.mem (nspBase s.core.id + i) := by
  have size := nspSize_le s.core.id
  obtain ⟨log, lands, copies⟩ := few
  have words := saveWords_within (st := st) (d := s.draw.2.die s.core.id.die) (reason := r)
    (live := liveEntry s.core st r (Config.freeWord s.free)) log
    (lands := s.core.arb.map (s.draw.2.fixLanding s.core.id)) (by rwa [List.length_map]) copies
  have silent : s.slotRecs s.core.id st.ctx needW [] = s := rfl
  unfold State.areaWritten
  dsimp only
  rw [good, silent]
  change memGet (s.draw.2.slotMem b [] (s.draw.2.areaMem s.core.id b _ s.core.wb)).mem _ = _
  rw [Nat.add_assoc, State.memGet_slotMem (s := s.draw.2) (s.slotBase_aligned hb) (by omega) hm, ← Nat.add_assoc,
    State.memGet_areaMem (s := s.draw.2) words below hi]
  rfl

end
end Sys2Proof.Machine

/-! ## The strands a loader sets on their cores (13 R395, R396) -/

namespace Sys2Proof.Machine

open Sys2Proof.Terms

section
variable {s t u : State} {c k : Core} {id : CoreId} {b n : Nat} {tid : TaskId} {g l : Nat} {x : Task} {im : Image} {y : Gang}

/-- The core's name, its strand, the bundle it is at and its scalar registers. -/
def Core.placed (c : Core) : CoreId × Option Strand × Nat × Vector Word 64 := (c.id, c.strand, c.pc, c.sreg)

theorem Core.id_of_placed {p : Option Strand × Nat × Vector Word 64} (h : c.placed = (id, p)) : c.id = id := congrArg Prod.fst h

theorem State.updTask_core (s : State) (i : TaskId) (f : Task → Task) : (s.updTask i f).core = s.core := rfl

theorem State.beginInst_placed (s : State) (a : Bool) : (s.beginInst a).core.placed = s.core.placed := rfl

theorem State.getCore_resign_placed (s : State) (id : CoreId) : ((s.resign id).getCore id).placed = (s.getCore id).placed := by
  unfold State.resign
  dsimp only
  rw [State.getCore_updCore]
  · rfl
  · exact fun _ => rfl

/-- A core that is set, its rows signed and its work begun is where it was set. -/
theorem State.started_placed {p : Option Strand × Nat × Vector Word 64} (s : State) (hc : c.placed = (id, p)) :
    ((((s.setCore c).resign id).focus id).beginInst false).core.placed = (id, p) := by
  rw [State.beginInst_placed, State.focus_core, State.getCore_resign_placed, State.getCore_setCore s (Core.id_of_placed hc), hc]

theorem Core.foldl_placed {α : Type} {m : List α} {f : Core → α → Core} (hf : ∀ c a, (f c a).placed = c.placed) :
    (m.foldl f c).placed = c.placed :=
  List.foldlRecOn (motive := fun k : Core => k.placed = c.placed) m f rfl fun k h a _ => (hf k a).trans h

theorem Core.cleared_placed (c : Core) (zero : Bool) : (if zero then { c with wb := [], stale := [] } else c).placed = c.placed := by
  split
  · rfl
  · rfl

/-- What a core so placed shows. -/
theorem Core.of_placed {st : Option Strand} {pc : Nat} {v : Vector Word 64} (h : c.placed = (id, st, pc, v)) :
    c.id = id ∧ c.strand = st ∧ c.pc = pc ∧ ∀ r, c.s r = if r = 0 then 0 else v.get r.toFin := by
  simp only [Core.placed, Prod.mk.injEq] at h
  obtain ⟨name, strand, pc, regs⟩ := h
  exact ⟨name, strand, pc, fun r => by rw [Core.s, regs]⟩

/-- STRAND_LOAD sets the strand at the entry of its packet, every register zero. -/
theorem strandLoad_sets (hl : s.toLoad id tid g l = some (x, im, y)) (fresh : y.saved.contains l = false) :
    ∃ t, exec (.strandLoad id tid g l) s = .next t ∧ t.core.placed =
      (id, some (strandOf s x im y l), bitsAt (x.pkt.getD 1 0).toNat 0 32, .replicate 64 0) := by
  change ∃ t, execStrandLoad id tid g l s = _ ∧ _
  unfold execStrandLoad
  rw [hl]
  dsimp only
  rw [fresh, if_neg (by decide)]
  refine ⟨_, rfl, ?_⟩
  rw [State.updTask_core]
  exact State.started_placed _ (Core.cleared_placed _ _)

theorem State.waiting_placed (s : State) (z : Bool) (w : Option Wait) :
    (if z then s.onCore fun c => { c with wait := w, frozen := true } else s).core.placed = s.core.placed := by
  split
  · rfl
  · rfl

theorem Core.committing_placed (c : Core) (a : Bool) : { c with atCommit := a }.placed = c.placed := rfl

/-- The memory a strand resumes from: the pages of its slot that refuse an access read as zeros. -/
def State.slotImage (s : State) (b : Nat) : State :=
  { s with mem := (s.slotBad b).foldl (fun m x => memZero m x.2 0x8000) s.mem }

/-- STRAND_RESUME sets the strand with the pc and the scalar registers of its slot. -/
theorem strandResume_sets {k : Nat × Counts} (hl : s.toLoad id tid g l = some (x, im, y))
    (hb : s.slotBase id.die tid g l = some b) (hk : y.counts.find? (·.1 == l) = some k) (still : s.slotSwitching b = false) :
    ∃ t, exec (.strandResume id tid g l) s = .next t ∧ t.core.placed =
      (id, some (strandOf s x im y l), bitsAt ((s.slotImage b).rd (b + 8 * 1) 8) 0 32, .ofFn fun i : Fin 64 =>
        .ofNat 64 (liveVal (s.slotImage b) b 0x200 8 ((s.slotImage b).rd (b + 8 * 4) 8) i.val)) := by
  change ∃ t, execStrandResume id tid g l s = _ ∧ _
  unfold execStrandResume
  rw [hl, hb]
  dsimp only
  rw [hk]
  dsimp only
  rw [still, if_neg (by decide)]
  refine ⟨_, rfl, ?_⟩
  rw [(State.pump_frame _).core, State.updTask_core, State.waiting_placed, State.onCore_core, Core.committing_placed]
  refine State.started_placed _ ((Core.foldl_placed fun c e => ?_).trans rfl)
  split
  · rfl
  · rfl

/-- The low bytes of a word in memory. -/
theorem memNat_low (m : List Host.Cell) (a n k : Nat) : memNat m a (n + k) % 2 ^ (8 * n) = memNat m a n := by
  induction n generalizing a with
  | zero => exact Nat.mod_one _
  | succ n ih =>
    have byte : (memGet m a).toNat < 256 := (memGet m a).isLt
    rw [Nat.succ_add, memNat, memNat, ← ih (a + 1), show 2 ^ (8 * (n + 1)) = 256 * 2 ^ (8 * n) by rw [Nat.mul_succ, Nat.pow_add]; omega,
      Nat.mod_mul, Nat.add_mul_mod_self_left, Nat.add_mul_div_left _ _ (by decide), Nat.mod_eq_of_lt byte, Nat.div_eq_of_lt byte,
      Nat.zero_add]

theorem State.slotImage_good (good : s.slotBad b = []) : s.slotImage b = s := by
  unfold State.slotImage
  rw [good]
  rfl

/-- A register saved where the mask names it, zero where it does not. -/
theorem liveVal_word (s : State) (b o mask i : Nat) : BitVec.ofNat 64 (liveVal s b o 8 mask i) =
    if bitAt mask i then BitVec.ofNat 64 (memNat s.mem (b + o + 8 * i) 8) else 0 := by
  unfold liveVal
  split
  · rfl
  · rfl

end

/-- Settles O45, detector, save area and the two ways to set a strand each by the lemma of its instruction. -/
theorem detectionAndStrands : Obligations.DetectionAndStrands := by
  unfold Obligations.DetectionAndStrands
  intro s st _ c
  refine ⟨fun num blocks hst he hstop h1 h7 => ⟨fun off x hf hx => ?_, fun on left few => ?_⟩,
    fun r b hst hstop hb quiet he log lands copies below still => ?_,
    fun id tid g l x im y hl => ⟨fun fresh => ?_, fun b k hb hk still => ?_⟩⟩
  · exact detectorEvent_ends hst he hstop h1 h7 off hf hx
  · exact detectorEvent_replays hst he hstop h1 h7 on left few
  · obtain ⟨t, step, core, mem⟩ := exec_saveAreaWrite hst hstop hb quiet he still
    refine ⟨t, step, ?_, fun good _ range i hi => ?_⟩
    · rw [core]
      rfl
    · rw [mem]
      exact State.memGet_areaWritten hb ⟨log, lands, copies⟩ below good range hi
  · obtain ⟨t, step, placed⟩ := strandLoad_sets hl fresh
    obtain ⟨name, strand, pc, regs⟩ := Core.of_placed placed
    refine ⟨t, step, name, strand, pc, fun r => ?_⟩
    have zero : (Vector.replicate 64 (0 : Word)).get r.toFin = 0 := Vector.getElem_replicate r.toFin.isLt
    rw [regs, zero, ite_self]
  · obtain ⟨t, step, placed⟩ := strandResume_sets hl hb hk still
    obtain ⟨name, strand, pc, regs⟩ := Core.of_placed placed
    refine ⟨t, step, name, strand, fun good => ⟨?_, fun r hr => ?_⟩⟩
    · rw [pc, State.slotImage_good good, bitsAt, Nat.pow_zero, Nat.div_one]
      exact memNat_low s.mem (b + 8) 4 4
    · have saved : (Vector.ofFn fun i : Fin 64 => BitVec.ofNat 64 (liveVal s b 0x200 8 (s.rd (b + 8 * 4) 8) i.val)).get r.toFin =
          BitVec.ofNat 64 (liveVal s b 0x200 8 (s.rd (b + 8 * 4) 8) r.toNat) := Vector.getElem_ofFn _
      rw [regs, if_neg hr, State.slotImage_good good, saved, liveVal_word]
      rfl

end Sys2Proof.Machine

/-! # The events of admission (O47) -/

namespace Sys2Proof.Machine

open Sys2Proof.Terms

section
variable {d : DieId} {t : Task} {g : Nat} {s : State}

/-! ## Passes and superstep requests -/

theorem admissionPass_next (bind : s.admits d = true)
    (news : (s.pass d fun _ => true).tasks ≠ s.tasks ∨ ((s.pass d fun _ => true).die d).reserve ≠ (s.die d).reserve) :
    exec (.admissionPass d) s = .next (s.pass d fun _ => true) := by
  change execAdmissionPass d s = _
  unfold execAdmissionPass
  rw [bind, if_neg (by decide)]
  refine if_neg fun same => ?_
  obtain ⟨tasks, reserve⟩ := Bool.and_eq_true_iff.1 same
  exact news.elim (absurd (of_decide_eq_true tasks)) (absurd (of_decide_eq_true reserve))

/-- The next die asked, which admits and serves what ranks higher, grants or refuses. -/
theorem superstepBindRequest_next (hf : s.findTask t.id = some t) (asked : t.nextAsk = some d) (hs : t.status = 0)
    (up : s.launchUp (homeOf t.id) = true) (bind : s.admits d = true)
    (turn : (s.pass d fun x => x.1.id != t.id && rankLt (x.1.rank x.2) (t.rank t.head)).askedAbove d t t.head = false) :
    ∃ u, exec (.superstepBindRequest d t.id) s = .next u := by
  change ∃ u, execSuperstepBindRequest d t.id s = .next u
  unfold execSuperstepBindRequest
  rw [hf]
  dsimp only
  rw [asked, hs, up, if_neg (by simp), if_pos bind, turn, Bool.and_false, if_neg Bool.false_ne_true]
  split
  · exact ⟨_, rfl⟩
  · split
    · split
      · exact ⟨_, rfl⟩
      · exact ⟨_, rfl⟩
    · exact ⟨_, rfl⟩

theorem State.takeReserve_tasks (s : State) : (s.takeReserve d t g).tasks = s.tasks := by
  unfold State.takeReserve
  dsimp only
  split
  · rfl
  · split
    · rfl
    · rfl

/-- What a refusal leaves of a superstep task: no answers, and no core bound to a gang that waits (03 R79). -/
def Task.unbound (x : Task) : Task :=
  { x with asks := none, gangs := x.gangs.map fun y : Gang => if y.state == .waiting then { y with cores := [] } else y }

theorem Task.unbound_cores {x : Task} {y : Gang} (hy : y ∈ x.unbound.gangs) (waits : y.state = .waiting) : y.cores = [] := by
  obtain ⟨z, -, rfl⟩ := List.mem_map.1 hy
  cases hz : z.state == .waiting with
  | true => rw [if_pos rfl]
  | false =>
    rw [hz, if_neg Bool.false_ne_true] at waits
    rw [waits] at hz
    cases hz

/-- A die that does not admit refuses. -/
theorem superstepBindRequest_refused (hf : s.findTask t.id = some t) (asked : t.nextAsk = some d) (hs : t.status = 0)
    (up : s.launchUp (homeOf t.id) = true) (closed : s.admits d = false) :
    ∃ w : State, exec (.superstepBindRequest d t.id) s = .next (w.passBelow t) ∧ w.findTask t.id = some t.unbound := by
  change ∃ w : State, execSuperstepBindRequest d t.id s = .next (w.passBelow t) ∧ _
  unfold execSuperstepBindRequest
  rw [hf]
  dsimp only
  rw [asked, hs, up, closed, if_neg (by simp), if_neg Bool.false_ne_true, closed, Bool.false_and, if_neg Bool.false_ne_true,
    Bool.false_and, Bool.false_and, if_neg Bool.false_ne_true]
  refine ⟨_, rfl, ?_⟩
  unfold State.findTask
  rw [State.takeReserve_tasks]
  exact State.findTask_updTask_self (f := Task.unbound) hf fun _ => rfl

/-! ## Reservations -/

theorem agingReservation_next {x : Gang} {f : Nat} (ha : AllDies s) (hf : s.findTask t.id = some t)
    (hx : t.gangs.find? (·.idx == g) = some x) (die : x.die = d) (waits : x.state = .waiting) (edf : t.rankClass = 1)
    (ok : s.admissible t = true) (up : s.launchUp d = true) (since : x.since = some f) (old : f + 65536 ≤ s.frame.toNat)
    (first : ∀ r ∈ (s.die d).reserve, ¬ (r.1 = true ∧ r.2.1 = t.id ∧ r.2.2.1 = g)) :
    ∃ u, exec (.agingReservation d t.id g) s = .next u ∧
      (u.die d).reserve = (s.die d).reserve ++ [(true, t.id, g, s.frame.toNat)] ∧ u.tasks = s.tasks ∧ u.core = s.core := by
  have none : ((s.die d).reserve.any fun r => r.1 && r.2.1 == t.id && r.2.2.1 == g) = false := by
    refine List.any_eq_false.2 fun r hr => ?_
    simpa [and_assoc] using first r hr
  have ran : exec (.agingReservation d t.id g) s =
      .next (s.updDie d fun y => { y with reserve := y.reserve ++ [(true, t.id, g, s.frame.toNat)] }) := by
    change execAgingReservation d t.id g s = _
    unfold execAgingReservation
    rw [hf]
    dsimp only
    rw [hx]
    dsimp only
    rw [die, waits, edf, ok, up, since, none]
    exact if_pos (by simpa using old)
  refine ⟨_, ran, ?_, rfl, rfl⟩
  rw [State.die_updDie (f := fun y => { y with reserve := y.reserve ++ [(true, t.id, g, s.frame.toNat)] }) ha fun _ => rfl]

theorem reservationPreempt_next {y : Task} {h : Nat} (up : s.launchUp d = true) (stands : s.preemptFor d = some (t, g))
    (last : lowest ((s.gangsOn d .running).filter fun x => x.1.rankClass != 0) = some (y, h))
    (room : s.fitsWith t g ((s.gangsOn d .stopping).flatMap fun x => x.1.coresOf x.2) = false) :
    exec (.reservationPreempt d d.isMem) s = .next (s.stopWith y.id h) := by
  change execReservationPreempt d d.isMem s = _
  unfold execReservationPreempt
  rw [up, stands, if_pos (by simp)]
  dsimp only
  rw [last]
  dsimp only
  rw [room, if_neg Bool.false_ne_true]

/-! ## The starvation yield -/

/-- A gang that settles does not run, where it did not. -/
theorem Gang.settle_not_running {y : Gang} {n : Nat} (h : y.state ≠ .running) : (y.settle n).state ≠ .running := by
  unfold Gang.settle
  split
  · exact fun e => nomatch e
  · split
    · exact fun e => nomatch e
    · exact h

/-- What a stop asked of a gang leaves of the task. -/
def Task.askedStop (x : Task) (g : Nat) : Task :=
  x.updGang g fun y =>
    if y.state = .running then Gang.settle { y with state := .stopping } (bitsAt (x.pkt.getD 1 0).toNat 43 5) else y

theorem State.findTask_askStop {i : TaskId} (hf : s.findTask i = some t) : (s.askStop i g).findTask i = some (t.askedStop g) :=
  State.findTask_updTask_self (f := (Task.askedStop · g)) hf fun _ => rfl

theorem Task.askedStop_state {x : Task} {z : Gang} (hz : z ∈ (x.askedStop g).gangs) (hi : z.idx = g) : z.state ≠ .running := by
  obtain ⟨y, -, rfl⟩ := List.mem_map.1 hz
  by_cases same : y.idx = g
  · rw [if_pos same]
    dsimp only
    split
    · exact Gang.settle_not_running fun e => nomatch e
    · assumption
  · rw [if_neg same] at hi
    exact absurd hi same

/-- A yield in progress: the highest resident gang is asked to stop, or the task ends. -/
theorem starvationYield_ran {w : Nat} {x : Gang} (hf : s.findTask t.id = some t) (single : t.isSuper = false) (hx : x ∈ t.gangs)
    (hw : x.idx = w) (waits : x.state = .waiting) (ok : s.admissible t = true) (laid : t.layout.isSome = true)
    (quiet : ∀ y ∈ t.gangs, y.state ≠ .stopping) (bind : s.admits (homeOf t.id) = true) (room : s.fitsWith t w [] = false)
    (on : t.yielding = some w) : exec (.starvationYield t.id w) s =
      .next (t.resident.getLast?.elim (s.endTask t.id 5 w 0)
        fun y => (s.updTask t.id fun x => { x with yielding := some w }).askStop t.id y.idx) := by
  have there : (t.gangs.any fun y => y.idx == w && y.state == .waiting) = true :=
    List.any_eq_true.2 ⟨x, hx, by rw [hw, waits]; simp⟩
  have none : (t.gangs.any (·.state == .stopping)) = false := List.any_eq_false.2 fun y hy => by simpa using quiet y hy
  change execStarvationYield t.id w s = _
  unfold execStarvationYield
  rw [hf]
  dsimp only
  rw [single, there, ok, none, bind, room, ← Option.not_isSome, laid, if_neg (by decide), if_pos on]
  cases t.resident.getLast? with
  | none => rfl
  | some y => rfl

end

/-- Settles O47, event by event. -/
theorem admissionEvents : Obligations.AdmissionEvents := by
  unfold Obligations.AdmissionEvents
  intro s d t g ha
  refine ⟨admissionPass_next, fun hf asked hs up => ⟨superstepBindRequest_next hf asked hs up, fun closed => ?_⟩,
    fun x f hf hx die waits edf ok up => agingReservation_next ha hf hx die waits edf ok up,
    fun y h => reservationPreempt_next, fun w x hf single hx hw waits ok laid quiet bind room on => ?_⟩
  · obtain ⟨w, ran, found⟩ := superstepBindRequest_refused hf asked hs up closed
    exact ⟨w, _, ran, found, rfl, fun y => Task.unbound_cores⟩
  · have ran := starvationYield_ran hf single hx hw waits ok laid quiet bind room on
    refine ⟨fun none => ?_, fun y last => ?_⟩
    · rw [none] at ran
      have live : t.status = 0 := by
        unfold State.admissible at ok
        simp only [Bool.and_eq_true, beq_iff_eq] at ok
        exact ok.1.1.1
      obtain ⟨v, found, status, detail⟩ := s.findTask_endTask (n := 5) (detail := w) (g := 0) hf live
      exact ⟨_, v, ran, found, status, detail⟩
    · rw [last] at ran
      exact ⟨_, _, ran, State.findTask_askStop (State.findTask_updTask_self hf fun _ => rfl), fun z => Task.askedStop_state⟩

end Sys2Proof.Machine

/-! # The events of a launch queue (O49) -/

namespace Sys2Proof.Machine

open Sys2Proof.Terms

section
variable {d e i j : DieId} {q o n m : Nat} {s t u : State}

/-! ## What the launch unit hears as it reads

An answered read moves the counts that the dies tell one another, and no check of an access looks at those. -/

/-- A die without what it knows and has told of the counts of the fabric (12 R347, R348). -/
def Die.unheard (x : Die) : Die := { x with know := [], told := [] }
def State.unheard (s : State) : State := { s with dies := s.dies.map Die.unheard }

theorem State.die_unheard (ha : AllDies s) (d : DieId) : s.unheard.die d = (s.die d).unheard :=
  State.die_map ha fun _ => rfl

theorem State.allDies_of_unheard (ha : AllDies s) (h : t.unheard = s.unheard) : AllDies t := by
  have names (r : State) : r.unheard.dies.map (·.id) = r.dies.map (·.id) := List.map_map
  exact (names t).symm.trans ((congrArg (fun r : State => r.dies.map (·.id)) h).trans ((names s).trans ha))

/-- All else is as it was. -/
theorem State.core_of_unheard (h : t.unheard = s.unheard) : t.core = s.core := by
  have same := congrArg State.core h
  exact same

theorem State.mem_of_unheard (h : t.unheard = s.unheard) : t.mem = s.mem := by
  have same := congrArg State.mem h
  exact same

theorem State.setDie_unheard {x : Die} (ha : AllDies s) (hx : x.unheard = (s.die x.id).unheard) :
    (s.setDie x).unheard = s.unheard := by
  unfold State.unheard
  rw [State.setDie_dies, List.map_map]
  refine congrArg (fun l => { s with dies := l }) (List.map_congr_left fun y hy => ?_)
  by_cases name : y.id = x.id
  · rw [Function.comp_apply, if_pos name, hx, ← name, State.die_of_mem ha hy]
  · rw [Function.comp_apply, if_neg name]

theorem State.directRead_unheard (ha : AllDies s) (h : s.directRead i j = some t) : t.unheard = s.unheard := by
  unfold State.directRead at h
  dsimp only at h
  split at h
  · cases h
    rfl
  · split at h
    · split at h
      · cases h
      · cases h
        rfl
    · next other =>
      split at h
      · cases h
      · cases h
        have told : (s.setDie { (s.die i).tell j.code with know := mergeKnow (s.die i).know (s.die j).know i.code }).unheard =
            s.unheard := State.setDie_unheard ha (congrArg (fun k => (s.die k).unheard) (s.die_id i).symm)
        refine (State.setDie_unheard (State.allDies_of_unheard ha told) ?_).trans told
        change (s.die j).unheard = (State.die _ (s.die j).id).unheard
        rw [s.die_id j, State.die_setDie_ne]
        exact fun same => other (same.trans (s.die_id i)).symm

theorem State.directReads_unheard {l : List DieId} (ha : AllDies s) (h : s.directReads i l = some t) : t.unheard = s.unheard := by
  suffices folded : ∀ (l : List DieId) (x : Option State), (∀ v, x = some v → v.unheard = s.unheard) → ∀ u,
      l.foldl (fun x j => x.bind fun v => v.directRead i j) x = some u → u.unheard = s.unheard from
    folded _ _ (fun v eq => Option.some.inj eq ▸ rfl) t h
  intro l
  induction l with
  | nil => exact fun _ hx => hx
  | cons j r ih =>
    refine fun x hx => ih _ fun v hv => ?_
    obtain ⟨w, hw, read⟩ := Option.bind_eq_some_iff.1 hv
    exact (State.directRead_unheard (State.allDies_of_unheard ha (hx w hw)) read).trans (hx w hw)

theorem State.packetHold_unheard {pa : Nat} (ha : AllDies s) (h : s.packetHold d pa = some t) : t.unheard = s.unheard := by
  unfold State.packetHold at h
  dsimp only at h
  split at h
  · cases h
  · exact State.directReads_unheard ha h

theorem State.judge_unheard {w : Who} {k : Need} {pa : Nat} (ha : AllDies s) : s.unheard.judge w k pa = s.judge w k pa := by
  simp only [State.judge, State.down, State.isReserved, State.mirrorLive, State.inMirror, State.retired, State.die_unheard ha]
  rfl

theorem State.firstBad_unheard (ha : AllDies s) (a : Access) : s.unheard.firstBad a = s.firstBad a := by
  unfold State.firstBad
  simp only [State.judge_unheard ha]
  rfl

/-- What was heard changes no verdict on an access. -/
theorem State.firstBad_eq (ha : AllDies s) (h : t.unheard = s.unheard) (a : Access) : t.firstBad a = s.firstBad a := by
  rw [← State.firstBad_unheard (State.allDies_of_unheard ha h), h, State.firstBad_unheard ha]

theorem State.failedSector_eq {pa k : Nat} {part : Bool} (h : t.unheard = s.unheard) :
    t.failedSector pa k part = s.failedSector pa k part := by
  have seals : t.unheard.failedSector pa k part = s.unheard.failedSector pa k part := by rw [h]
  exact seals

/-! ## An access that has left the machine -/

/-- Number `n` has been given, and no access in flight bears it. -/
def Gone (n : Nat) (s : State) : Prop := n < s.nextId ∧ ∀ x ∈ s.flight, x.id ≠ n

theorem Gone.of_ids (h : Gone n s) (hn : s.nextId ≤ t.nextId) (ids : t.flight.map (·.id) = s.flight.map (·.id)) : Gone n t := by
  refine ⟨Nat.lt_of_lt_of_le h.1 hn, fun x hx => ?_⟩
  obtain ⟨y, hy, same⟩ := List.mem_map.1 (ids ▸ List.mem_map_of_mem (f := Access.id) hx)
  exact same ▸ h.2 y hy

/-- Sending moves an access on its way: each keeps its number. -/
theorem State.sendOne_ids (s : State) (a : Access) : (s.sendOne a).flight.map (·.id) = s.flight.map (·.id) := by
  have moved (go : Access) (hg : go.id = a.id) :
      (s.flight.map fun x => if x.id = a.id then go else x).map (·.id) = s.flight.map (·.id) := by
    rw [List.map_map]
    refine List.map_congr_left fun x _ => ?_
    by_cases same : x.id = a.id
    · rw [Function.comp_apply, if_pos same, hg, same]
    · rw [Function.comp_apply, if_neg same]
  unfold State.sendOne
  dsimp only
  split
  · exact moved _ rfl
  · split
    · exact moved _ rfl
    · exact moved _ rfl

theorem State.sendOne_nextId (s : State) (a : Access) : (s.sendOne a).nextId = s.nextId + 1 := by
  unfold State.sendOne
  dsimp only
  split
  · rfl
  · rfl

theorem Gone.sendOne {a : Access} (h : Gone n s) : Gone n (s.sendOne a) :=
  h.of_ids (by rw [State.sendOne_nextId]; exact Nat.le_succ _) (s.sendOne_ids a)

/-- Every further transfer of an access takes a number of its own. -/
theorem Gone.sendAccess {a : Access} (h : Gone n s) : Gone n (s.sendAccess a) := by
  unfold State.sendAccess
  split
  · exact h.sendOne
  · next g r _ =>
    suffices sent : ∀ (r : List (List Part)) (t : State), Gone n t → Gone n (r.foldl (fun s g =>
        let b := { a with id := s.nextId, parts := g }
        State.sendOne { s with nextId := s.nextId + 1, flight := s.flight ++ [b] } b) t) from sent r _ h.sendOne
    intro r
    induction r with
    | nil => exact fun _ ht => ht
    | cons g r ih =>
      intro t ht
      refine ih _ (Gone.sendOne ⟨Nat.lt_succ_of_lt ht.1, fun x hx => ?_⟩)
      obtain old | new := List.mem_append.1 hx
      · exact ht.2 x old
      · rw [List.mem_singleton.1 new]
        exact Nat.ne_of_gt ht.1

theorem Gone.pump (h : Gone n s) : Gone n s.pump := by
  suffices sent : ∀ (l : List Nat) (t : State), Gone n t → Gone n (t.pumpList l) from sent _ s h
  intro l
  induction l with
  | nil => exact fun _ ht => ht
  | cons k r ih =>
    intro t ht
    unfold State.pumpList
    split
    · exact ih t ht
    · split
      · exact ih t ht
      · exact ih _ ht.sendAccess

/-- An access that has performed without an answer is gone, and leaves the core and the memory to the others. -/
theorem State.performedAccess_leaves {a : Access} (ha : a.id < s.nextId) : (s.performedAccess a).mem = s.mem ∧
    (s.performedAccess a).core = s.core ∧ ∀ x ∈ (s.performedAccess a).flight, x.id ≠ a.id := by
  have sent := ((s.dropAccess a.id).localDlv a.core.die).pump_frame
  have dropped : Gone a.id ((s.dropAccess a.id).localDlv a.core.die) :=
    ⟨ha, fun x hx => bne_iff_ne.1 (List.mem_filter.1 hx).2⟩
  exact ⟨sent.mem, sent.core, dropped.pump.2⟩

/-! ## Packets -/

variable {p : List Word}

theorem Steady.accept {k : Nat} (h : Steady d (qOff q + k) s t) (hk : k ≠ 0x38) : Steady d (qOff q + k) s (t.accept e q p) := by
  have numbered {x : Nat × Nat} : Steady d (qOff q + k) s (t.updDie e (·.setSeq q x)) := h.updDie fun _ => ⟨rfl, rfl⟩
  unfold State.accept
  dsimp only
  split
  · exact numbered.qfault hk
  · exact numbered.frame

theorem State.accept_leaves (s : State) : (s.accept d q p).mem = s.mem ∧ (s.accept d q p).core = s.core := by
  unfold State.accept
  dsimp only
  split
  · exact ⟨rfl, rfl⟩
  · exact ⟨rfl, rfl⟩

theorem State.allDies_updDie {f : Die → Die} (ha : AllDies s) : AllDies (s.updDie d f) := (State.setDie_ids _ _).trans ha

theorem State.allDies_setQreg (ha : AllDies s) : AllDies (s.setQreg d q o n) := State.allDies_updDie ha

/-- Acceptance leaves the head and the count of records of its ring. -/
theorem State.head_accept (ha : AllDies s) : (s.accept d q p).qreg d q 0x18 = s.qreg d q 0x18 :=
  ((Steady.refl s).accept (by decide)).qreg ha

theorem State.accept_launchWait (ha : AllDies s) : ((s.accept d q p).die d).launchWait = (s.die d).launchWait := by
  have numbered (x : Nat × Nat) : ((s.updDie d (·.setSeq q x)).die d).launchWait = (s.die d).launchWait := by
    rw [State.die_updDie (f := (·.setSeq q x)) ha fun _ => rfl]
    rfl
  unfold State.accept
  dsimp only
  split
  · refine (congrArg Die.launchWait (State.die_updDie (f := (·.setQreg q 0x38 _)) ?_ fun _ => rfl)).trans (numbered _)
    exact State.allDies_updDie ha
  · exact numbered _

theorem State.arrivePacket_leaves {ctx : Nat} (s : State) : (s.arrivePacket d q ctx p).mem = s.mem ∧
    (s.arrivePacket d q ctx p).core = s.core := by
  have refused {r : Prop} [Decidable r] {t u : State} (ht : t.mem = s.mem ∧ t.core = s.core) (hu : u.mem = s.mem ∧ u.core = s.core) :
      (if r then t else u).mem = s.mem ∧ (if r then t else u).core = s.core := by
    split
    · exact ht
    · exact hu
  exact refused ⟨rfl, rfl⟩ (refused ⟨rfl, rfl⟩ (refused ⟨rfl, rfl⟩ (refused (refused ⟨rfl, rfl⟩ ⟨rfl, rfl⟩) s.accept_leaves)))

/-- What a read waits for leaves the core and the registers. -/
theorem Steady.packetHold {pa : Nat} (h : Steady d o s t) (hh : t.packetHold e pa = some u) : Steady d o s u := by
  unfold State.packetHold at hh
  dsimp only at hh
  split at hh
  · cases hh
  · exact h.directReads hh

theorem ringSlotRead_next (ha : AllDies s) (ready : s.ringReady d q = true)
    (free : (s.packetHold d (s.ringSlot d q)).isSome = true) : ∃ t, exec (.ringSlotRead d q) s = .next t ∧ t.core = s.core ∧
      t.qreg d q 0x18 % 2 ^ 32 = (s.qreg d q 0x18 % 2 ^ 32 + 1) % 2 ^ 32 := by
  obtain ⟨u, held⟩ := Option.isSome_iff_exists.1 free
  obtain ⟨lo, hi⟩ := qOff_bounds q
  have heard : Steady d (qOff q + 0x18) s u := (Steady.refl s).packetHold held
  have noted {c : Bool} {ctx pa m : Nat} : Steady d (qOff q + 0x18) s (if c then u.faultRec d ctx 5 0 pa 0 m else u) :=
    .ite (heard.faultRec (by omega)) heard
  change ∃ t, execRingSlotRead d q s = .next t ∧ _
  unfold execRingSlotRead
  rw [if_pos ready, held]
  dsimp only
  rw [heard.qreg ha]
  refine ⟨_, rfl, ?_, ?_⟩
  · obtain ⟨-, core⟩ := State.accept_leaves (State.setQreg _ _ _ _ _)
    exact core.trans noted.core
  · rw [State.head_accept (State.allDies_setQreg (noted.allDies ha)), State.qreg_setQreg_self (noted.allDies ha), bitsAt]
    omega

/-- The packet of a permitted LAUNCH is read, and its access is gone. -/
theorem launchPacketArrive_next {a : Access} {r vd : Nat} {x : Part} {l : List Part} (ha : AllDies s) (fresh : Fresh s)
    (hf : s.flight.find? (·.id == a.id) = some a) (turn : s.launchTurn a = true) (act : a.act = .launch r vd)
    (parts : a.parts = x :: l) (new : a.checked = false) (permitted : s.firstBad a = none)
    (sealed : s.failedSector x.pa 64 false = none) (free : (s.packetHold a.home x.pa).isSome = true) :
    ∃ t, exec (.launchPacketArrive a.id) s = .next t ∧ t.mem = s.mem ∧ t.core = s.core ∧ ∀ x ∈ t.flight, x.id ≠ a.id := by
  obtain ⟨u, held⟩ := Option.isSome_iff_exists.1 free
  have heard := State.packetHold_unheard ha held
  have kept : Kept false s u := KeptSome.of_some (Kept.packetHold (.refl s)) held
  have given : a.id < (u.arrivePacket a.home r a.ctx (u.packetAt x.pa)).nextId :=
    Nat.lt_of_lt_of_le (fresh a (List.mem_of_find?_eq_some hf)).1 kept.arrivePacket.next
  have ran : exec (.launchPacketArrive a.id) s =
      .next ((u.arrivePacket a.home r a.ctx (u.packetAt x.pa)).performedAccess a) := by
    change execLaunchPacketArrive a.id s = _
    unfold execLaunchPacketArrive
    rw [hf]
    dsimp only
    rw [if_pos turn, parts, List.map_cons, List.headD_cons, held]
    dsimp only
    rw [act]
    dsimp only
    unfold State.checkWhole
    rw [new, Bool.false_and, if_neg Bool.false_ne_true, State.firstBad_eq ha heard, permitted, State.failedSector_eq heard, sealed]
  obtain ⟨mem, core, gone⟩ := State.performedAccess_leaves given
  obtain ⟨mem', core'⟩ := u.arrivePacket_leaves (d := a.home) (q := r) (ctx := a.ctx) (p := u.packetAt x.pa)
  exact ⟨_, ran, (mem.trans mem').trans (State.mem_of_unheard heard), (core.trans core').trans (State.core_of_unheard heard), gone⟩

theorem waitingPacketAccept_next {x : Nat × List Word} (ha : AllDies s) (hx : (s.die d).launchWait.find? (·.1 == q) = some x)
    (up : s.launchUp d = true) (room : s.queueLoad d q < 64) : ∃ t, exec (.waitingPacketAccept d q) s = .next t ∧
      (t.die d).launchWait = (s.die d).launchWait.erase x ∧ t.mem = s.mem ∧ t.core = s.core := by
  have ran : exec (.waitingPacketAccept d q) s =
      .next ((s.updDie d fun y => { y with launchWait := y.launchWait.erase x }).accept d q x.2) := by
    change execWaitingPacketAccept d q s = _
    unfold execWaitingPacketAccept
    rw [hx]
    dsimp only
    rw [up, if_pos (by simpa using room)]
  obtain ⟨mem, core⟩ := (s.updDie d fun y => { y with launchWait := y.launchWait.erase x }).accept_leaves (d := d) (q := q) (p := x.2)
  refine ⟨_, ran, (State.accept_launchWait (State.allDies_updDie ha)).trans ?_, mem, core⟩
  rw [State.die_updDie (f := fun y => { y with launchWait := y.launchWait.erase x }) ha fun _ => rfl]

/-! ## Timetables -/

variable {x : TTable}

theorem Die.tt_dropTt (y : Die) : (y.dropTt q).tt q = none := by
  unfold Die.dropTt Die.tt
  refine List.find?_eq_none.2 fun z hz => ?_
  simpa using (List.mem_filter.1 hz).2

theorem State.tt_dropTt (ha : AllDies s) : ((s.updDie d (·.dropTt q)).die d).tt q = none := by
  rw [State.die_updDie (f := (·.dropTt q)) ha fun _ => rfl, Die.tt_dropTt]

theorem State.tt_putTt (ha : AllDies s) (hx : x.queue + 64 * b2n x.adopted = q) :
    ((s.updDie d (·.putTt x)).die d).tt q = some x := by
  rw [State.die_updDie (f := (·.putTt x)) ha fun _ => rfl, Die.tt_putTt _ _ hx]

/-- A timetable that leaves its queue leaves it without one, where no other is to be bound. -/
theorem timetableUnbind_next (ha : AllDies s) (hx : (s.die d).tt q = some x) (up : s.launchUp d = true)
    (due : s.unbindDue x = true) : ∃ t, exec (.timetableUnbind d q) s = .next t ∧
      (x.next.getD 0 = 0 → (t.die d).tt q = none ∧ t.qreg d q 0x20 = 0) := by
  have dropped : AllDies (s.updDie d (·.dropTt q)) := State.allDies_updDie ha
  change ∃ t, execTimetableUnbind d q s = .next t ∧ _
  unfold execTimetableUnbind
  rw [hx]
  dsimp only
  rw [up, due, if_neg (by decide)]
  split
  · refine ⟨_, rfl, fun _ => ⟨?_, State.qreg_setQreg_self dropped⟩⟩
    rw [State.tt_setQreg dropped, State.tt_dropTt ha]
  · next other =>
    split
    · exact ⟨_, rfl, fun none => absurd none other⟩
    · exact ⟨_, rfl, fun none => absurd none other⟩

theorem State.tt_of_frameDue (due : s.frameDue d q = some x) : (s.die d).tt q = some x := by
  unfold State.frameDue at due
  split at due
  · next y hy =>
    split at due
    · exact hy.trans due
    · cases due
  · cases due

theorem Steady.readEntries {k : Nat} (h : Steady d (qOff q + k) s t) (hk : k ≠ 0x38) (ho : qOff q + k < 0x3000) :
    Steady d (qOff q + k) s (t.readEntries e q x n m) := by
  induction n generalizing t m with
  | zero => exact h
  | succ n ih =>
    unfold State.readEntries
    refine ih ?_
    split
    · exact (h.luRec ho).qfault hk
    · dsimp only
      split
      · exact h.qfault hk
      · exact h.frame

/-- A frame begins, or is over at once where none of its entries is accepted (log 67). -/
theorem frameStart_next (ha : AllDies s) (due : s.frameDue d q = some x) (whole : x.degraded = false) :
    ∃ t y, exec (.frameStart d q) s = .next t ∧ (t.die d).tt q = some y ∧ t.core = s.core ∧
      (y.began = true ∨ (y.frame = x.frame + 1 ∧ y.s = x.s + x.frameLen)) := by
  obtain ⟨lo, hi⟩ := qOff_bounds q
  have read : Steady d (qOff q + 0) s (s.readEntries d q x x.entries 0) := (Steady.refl s).readEntries (by decide) (by omega)
  have named := Die.tt_queue (State.tt_of_frameDue due)
  change ∃ t y, execFrameStart d q s = .next t ∧ _
  unfold execFrameStart
  rw [due]
  dsimp only
  rw [whole, if_neg Bool.false_ne_true]
  split
  · exact ⟨_, _, rfl, State.tt_putTt (read.allDies ha) named, read.putTt.core, .inr ⟨rfl, rfl⟩⟩
  · exact ⟨_, _, rfl, State.tt_putTt (read.allDies ha) named, read.putTt.core, .inl rfl⟩

/-- The alternate timetable takes the place of the degraded one, or the queue has none. -/
theorem degradedSwitch_next (ha : AllDies s) (due : s.frameDue d q = some x) (degraded : x.degraded = true) :
    ∃ t, exec (.degradedSwitch d q) s = .next t ∧ t.core = s.core ∧ ∀ y, (t.die d).tt q = some y → y.degraded = false := by
  obtain ⟨lo, hi⟩ := qOff_bounds q
  have read := ((Steady.refl s).faultRec (d := d) (o := qOff q + 0) (e := d) (ctx := cfgCtx (s.qreg d q 0)) (kind := 0x15) (va := 0)
    (pa := 0) (detail := q) (master := s.luMaster d) (by omega)).readTt (e := d) (va := canonVa x.alt) (by decide) (by omega)
  have named := Die.tt_queue (State.tt_of_frameDue due)
  change ∃ t, execDegradedSwitch d q s = .next t ∧ _
  unfold execDegradedSwitch
  rw [due]
  dsimp only
  rw [degraded, if_neg (by decide)]
  split
  · next u eq =>
    rw [eq] at read
    have left : AllDies u := read.allDies ha
    refine ⟨_, rfl, read.core, fun y hy => ?_⟩
    rw [State.tt_setQreg (State.allDies_updDie left), State.tt_dropTt left] at hy
    cases hy
  · next u h eq =>
    rw [eq] at read
    have left : AllDies u := read.allDies ha
    refine ⟨_, rfl, read.core, fun y hy => ?_⟩
    cases Option.some.inj (hy.symm.trans (State.tt_putTt (State.allDies_updDie left) named))
    rfl

end

/-- Settles O49, event by event. -/
theorem queueEvents : Obligations.QueueEvents := by
  unfold Obligations.QueueEvents
  intro s d q ha fresh
  exact ⟨ringSlotRead_next ha, fun a r vd p l => launchPacketArrive_next ha fresh, fun x => waitingPacketAccept_next ha,
    fun x => timetableUnbind_next ha, fun x due => ⟨frameStart_next ha due, degradedSwitch_next ha due⟩⟩

end Sys2Proof.Machine

/-! # The events of the fabric, the shared cache and the banks (O44) -/

namespace Sys2Proof.Machine

open Sys2Proof.Terms

section
variable {s t u : State} {a : Access} {d src : DieId} {pa : Nat}

/-! ## What stopping strands leaves on its way (03 R75) -/

/-- From `s` to `t` no access has been sent, and no effect has begun but the replay of an entry of a log. -/
structure Ebbs (s t : State) : Prop where
  flight : ∀ x ∈ t.flight, ∃ y ∈ s.flight, y.id = x.id
  effects : ∀ e ∈ t.effects, e ∈ s.effects ∨ ∃ l, e.kind = .logged l

theorem Ebbs.refl (s : State) : Ebbs s s := ⟨fun x hx => ⟨x, hx, rfl⟩, fun _ he => .inl he⟩

theorem Ebbs.setCore {c : Core} (h : Ebbs s t) : Ebbs s (t.setCore c) := by
  unfold State.setCore
  split
  · exact ⟨h.flight, h.effects⟩
  · exact ⟨h.flight, h.effects⟩

theorem Ebbs.updTask {i : TaskId} {f : Task → Task} (h : Ebbs s t) : Ebbs s (t.updTask i f) := ⟨h.flight, h.effects⟩

theorem Ebbs.discard {c : CoreId} (h : Ebbs s t) : Ebbs s (t.discard c) :=
  Ebbs.setCore ⟨fun x hx => h.flight x (List.mem_of_mem_filter hx), fun e he => h.effects e (List.mem_of_mem_filter he)⟩

theorem Ebbs.stopStrand {c : CoreId} (h : Ebbs s t) : Ebbs s (t.stopStrand c) := h.discard.setCore

/-- The committed entries of the log of each stopped strand of a task become effects (09 R254). -/
theorem Ebbs.stopTask {i : TaskId} (h : Ebbs s t) : Ebbs s (t.stopTask i) := by
  unfold State.stopTask
  dsimp only
  refine List.foldlRecOn _ _ ⟨fun x hx => ?_, fun e he => ?_⟩ fun _ hu _ _ => hu.stopStrand
  · obtain ⟨y, hy, rfl⟩ := List.mem_map.1 hx
    obtain ⟨z, hz, same⟩ := h.flight y (List.mem_of_mem_filter hy)
    refine ⟨z, hz, same.trans ?_⟩
    split
    · rfl
    · rfl
  · obtain old | new := List.mem_append.1 he
    · exact h.effects e old
    · obtain ⟨⟨x, k⟩, hx, rfl⟩ := List.mem_map.1 new
      have logged := List.fst_mem_of_mem_zipIdx hx
      refine .inr ?_
      cases hf : (t.unbindWhere fun b => b.task = i).findTask i with
      | none =>
        rw [hf] at logged
        cases logged
      | some y =>
        rw [hf] at logged
        obtain ⟨g, -, inGang⟩ := List.mem_flatMap.1 logged
        obtain ⟨c, -, inCounts⟩ := List.mem_flatMap.1 inGang
        obtain ⟨e, -, rfl⟩ := List.mem_map.1 inCounts
        exact ⟨_, rfl⟩

theorem Ebbs.endTask {i : TaskId} {status detail g : Nat} (h : Ebbs s t) : Ebbs s (t.endTask i status detail g) :=
  h.updTask.stopTask

theorem Ebbs.asyncTrap {c : CoreId} {r : TrapReq} (h : Ebbs s t) : Ebbs s (t.asyncTrap c r) := by
  unfold State.asyncTrap
  dsimp only
  split
  · exact h
  · split
    · exact h.updTask
    · split
      · exact h.endTask
      · exact h.setCore

theorem Ebbs.strandTrap {i : TaskId} {g l : Nat} {r : TrapReq} (h : Ebbs s t) : Ebbs s (t.strandTrap i g l r) := by
  unfold State.strandTrap
  split
  · exact h.asyncTrap
  · split
    · exact h.updTask
    · split
      · exact h.endTask
      · exact h.updTask
  · exact h

/-- Stopping strands begins no put. -/
theorem Ebbs.not_mem_put (h : Ebbs s t) {f : Effect} {q : PeerPut} {r : Bool} {tok : Nat} (hk : f.kind = .put q r tok)
    (gone : f ∉ s.effects) : f ∉ t.effects := fun there => by
  obtain old | ⟨l, logged⟩ := h.effects f there
  · exact gone old
  · cases hk.symm.trans logged

/-! ## Flits (12 R349, R350, R352) -/

/-- A discarded flit has left the machine. -/
theorem State.discardFlit_gone (s : State) (d : DieId) (a : Access) : ∀ x ∈ (s.discardFlit d a).flight, x.id ≠ a.id := by
  have dropped (r : State) : ∀ x ∈ (r.dropAccess a.id).flight, x.id ≠ a.id := fun x hx => bne_iff_ne.1 (List.mem_filter.1 hx).2
  unfold State.discardFlit
  dsimp only
  split
  · intro x hx
    obtain ⟨y, hy, same⟩ := (Ebbs.refl _).endTask.flight x hx
    exact same ▸ dropped _ y hy
  · exact dropped _

section
variable (hf : (s.flight.find? fun x => x.id == a.id && x.stage == .link) = some a) (up : s.down a.home = false)
  (first : ∀ x ∈ s.flight, x.stage = .link → x.core.die = a.core.die → x.home = a.home → a.sent ≤ x.sent)
include hf up first

/-- The first flit of its channel at a die that is up is received, or discarded as one of an old epoch. -/
theorem flitReceive_eq : exec (.flitReceive a.id) s =
    if a.epoch ≠ (s.die a.home).epoch then .next (s.discardFlit a.home a)
    else if s.robRoom a.home a.core.die then .next (s.setAccess { a with stage := .rob })
    else .fault (.notEnabled "FLIT_RECEIVE") := by
  change execFlitReceive a.id s = _
  unfold execFlitReceive
  rw [hf]
  dsimp only
  rw [if_neg, up, if_neg Bool.false_ne_true]
  simp only [Bool.not_eq_true, List.any_eq_false, Bool.and_eq_true, beq_iff_eq, decide_eq_true_eq]
  rintro x hx ⟨⟨⟨link, source⟩, target⟩, earlier⟩
  exact Nat.not_lt.2 (first x hx link source target) earlier

theorem flitReceive_enters (present : a.epoch = (s.die a.home).epoch)
    (room : s.robFrom a.home a.core.die < 128 ∨ (DieId.all.map fun e => s.robFrom a.home e - 128).sum < 128) :
    exec (.flitReceive a.id) s =
      .next { s with flight := s.flight.map fun x => if x.id = a.id then { a with stage := .rob } else x } := by
  have free : s.robRoom a.home a.core.die = true := by
    unfold State.robRoom
    simpa only [Bool.or_eq_true, decide_eq_true_eq] using room
  rw [flitReceive_eq hf up first, if_neg (not_not.2 present), if_pos free]
  rfl

theorem flitReceive_discards (old : a.epoch ≠ (s.die a.home).epoch) :
    ∃ t, exec (.flitReceive a.id) s = .next t ∧ ∀ x ∈ t.flight, x.id ≠ a.id :=
  ⟨_, (flitReceive_eq hf up first).trans (if_pos old), s.discardFlit_gone a.home a⟩

end

theorem flitDeliver_next (hf : (s.flight.find? fun x => x.id == a.id && x.stage == .rob) = some a) (causal : s.deliverable a = true)
    (still : a.parts.any (fun p => s.switching p.pa) = false) : ∃ t, exec (.flitDeliver a.id) s = .next t := by
  change ∃ t, execFlitDeliver a.id s = .next t
  unfold execFlitDeliver
  rw [hf]
  dsimp only
  rw [causal, still, if_neg (by decide)]
  exact ⟨_, rfl⟩

/-! ## Credits (12 R351) -/

theorem creditSend_eq (due : s.creditDue d = true) : exec (.creditSend d) s = .next { s with
    credits := s.credits ++ (s.dies.filter fun e => e.id != d && e.uncoreUp).map fun e => (d, e.id, (s.die d).dlv) } := if_pos due

theorem knowAt_setKnow_ne (x : Die) {i j k l : Nat} (v : Nat) (hk : k ≠ i) (hj : j < 4) (hl : l < 4) :
    knowAt (setKnow x i l v) k j = knowAt x k j := by
  unfold knowAt setKnow
  rw [List.getD_eq_getElem?_getD, List.getD_eq_getElem?_getD, List.getElem?_set_ne (by omega)]

theorem DieId.code_lt (d : DieId) : d.code < 4 := by cases d <;> decide

/-- Die `y` counts as die `x` does, but for row `i`, what die `i` has sent. -/
structure SameRows (i : Nat) (x y : Die) : Prop where
  id : y.id = x.id
  seen : y.seen = x.seen
  know : ∀ k j, k ≠ i → j < 4 → knowAt y k j = knowAt x k j

section
variable {i : Nat} {x y z : Die}

theorem SameRows.refl (x : Die) : SameRows i x x := ⟨rfl, rfl, fun _ _ _ _ => rfl⟩

theorem SameRows.trans (h : SameRows i x y) (k : SameRows i y z) : SameRows i x z :=
  ⟨k.id.trans h.id, k.seen.trans h.seen, fun m j hm hj => (k.know m j hm hj).trans (h.know m j hm hj)⟩

theorem SameRows.ite {p : Prop} [Decidable p] (h : SameRows i x y) (k : SameRows i x z) : SameRows i x (if p then y else z) := by
  split
  · exact h
  · exact k

theorem SameRows.tell (h : SameRows i x y) (j : Nat) : SameRows i x (y.tell j) := ⟨h.id, h.seen, h.know⟩

theorem SameRows.setKnow {j : Nat} (h : SameRows i x y) (hj : j < 4) (v : Nat) : SameRows i x (setKnow y i j v) :=
  ⟨h.id, h.seen, fun k l hk hl => (knowAt_setKnow_ne y v hk hl hj).trans (h.know k l hk hl)⟩

end

/-- From `s` to `t` die `d` counts as it did, but for what it has sent itself. -/
structure KeepsRows (d : DieId) (s t : State) : Prop where
  allDies : AllDies t
  rows : SameRows d.code (s.die d) (t.die d)

theorem KeepsRows.setDie {x : Die} {e : DieId} (h : KeepsRows d s t) (hx : SameRows e.code (t.die e) x) :
    KeepsRows d s (t.setDie x) := by
  have name : x.id = e := hx.id.trans (t.die_id e)
  refine ⟨(t.setDie_ids x).trans h.allDies, ?_⟩
  by_cases same : d = e
  · subst same
    rw [State.die_setDie h.allDies name]
    exact h.rows.trans hx
  · rw [State.die_setDie_ne t x (name ▸ same)]
    exact h.rows

/-- A die counts what it sends in its own row. -/
theorem KeepsRows.sendOne (h : KeepsRows d s t) : KeepsRows d s (t.sendOne a) := by
  have own : (t.die a.core.die).id.code = a.core.die.code := congrArg DieId.code (t.die_id _)
  have stamped (e : DieId) (v : Nat) : SameRows a.core.die.code (t.die a.core.die)
      (if carriesWrite a.act then setKnow (t.die a.core.die) (t.die a.core.die).id.code e.code v else t.die a.core.die) :=
    .ite (own ▸ (SameRows.refl _).setKnow (DieId.code_lt e) v) (.refl _)
  unfold State.sendOne
  dsimp only
  split
  · exact ⟨h.allDies, h.rows⟩
  · have counted := stamped a.homed.home (knowAt (t.die a.core.die) (t.die a.core.die).id.code a.homed.home.code + 1)
    have sent := h.setDie (.ite (p := (t.die a.core.die).id.code = a.homed.home.code) counted (counted.tell a.homed.home.code))
    exact ⟨sent.allDies, sent.rows⟩

theorem KeepsRows.sendAccess (h : KeepsRows d s t) : KeepsRows d s (t.sendAccess a) := by
  unfold State.sendAccess
  split
  · exact h.sendOne
  · exact List.foldlRecOn _ _ h.sendOne fun _ hu _ _ => KeepsRows.sendOne ⟨hu.allDies, hu.rows⟩

theorem KeepsRows.pumpList {l : List Nat} (h : KeepsRows d s t) : KeepsRows d s (t.pumpList l) := by
  induction l generalizing t with
  | nil => exact h
  | cons n r ih =>
    rw [State.pumpList]
    split
    · exact ih h
    · split
      · exact ih h
      · exact ih h.sendAccess

/-- The die that has heard, in a credit from die `j`, what that die has delivered. -/
def Die.credited (x : Die) (j : DieId) (dlv : List Nat) : Die :=
  { x with
    know := (List.range 16).map fun i =>
      if i % 4 = j.code then winMax (x.know.getD i 0) (dlv.getD (i / 4) 0) else x.know.getD i 0
    seen := x.seen.set j.code (dlv.getD x.id.code 0) }

theorem Die.knowAt_credited (x : Die) (l : List Nat) {k j : Nat} (hk : k < 4) (hj : j < 4) :
    knowAt (x.credited src l) k j = if j = src.code then winMax (knowAt x k j) (l.getD k 0) else knowAt x k j := by
  have column : (4 * k + j) % 4 = j := by omega
  have row : (4 * k + j) / 4 = k := by omega
  unfold knowAt Die.credited
  rw [List.getD_eq_getElem?_getD, List.getElem?_map, List.getElem?_range (by omega), Option.map_some, Option.getD_some, column, row]

/-- The state that receives credit `c`, before what it frees is sent. -/
def State.credited (s : State) (d src : DieId) (c : DieId × DieId × List Nat) : State :=
  { s with credits := s.credits.erase c }.updDie d (·.credited src c.2.2)

theorem State.die_credited (ha : AllDies s) (c : DieId × DieId × List Nat) :
    (s.credited d src c).die d = (s.die d).credited src c.2.2 :=
  State.die_updDie (s := { s with credits := s.credits.erase c }) ha fun _ => rfl

/-- The receiver has the sender's counts; what it then sends counts in its own row. -/
theorem creditReceive_next (ha : AllDies s) {c : DieId × DieId × List Nat}
    (hc : (s.credits.find? fun c => c.1 == src && c.2.1 == d) = some c) :
    ∃ t, exec (.creditReceive d src) s = .next t ∧ t.credits = s.credits.erase c ∧ SameMemory s t ∧
      (t.die d).seen = (s.die d).seen.set src.code (c.2.2.getD d.code 0) ∧
      ∀ k j, k < 4 → j < 4 → k ≠ d.code → knowAt (t.die d) k j =
        if j = src.code then winMax (knowAt (s.die d) k j) (c.2.2.getD k 0) else knowAt (s.die d) k j := by
  have ran : exec (.creditReceive d src) s = .next (s.credited d src c).pump := by
    change execCreditReceive d src s = _
    unfold execCreditReceive
    rw [hc]
    dsimp only
    rw [show d.code = (s.die d).id.code from congrArg DieId.code (s.die_id d).symm]
    rfl
  have stand : AllDies (s.credited d src c) := State.allDies_updDie (s := { s with credits := s.credits.erase c }) ha
  have rows : SameRows d.code ((s.credited d src c).die d) ((s.credited d src c).pump.die d) :=
    (KeepsRows.pumpList ⟨stand, .refl _⟩).rows
  have sent := (s.credited d src c).pump_frame
  refine ⟨_, ran, ?_, fun i => congrArg (memGet · i) sent.mem, ?_, fun k j hk hj own => ?_⟩
  · rw [sent.eq]
    rfl
  · rw [rows.seen, State.die_credited ha, ← congrArg DieId.code (s.die_id d)]
    rfl
  · rw [rows.know k j own hj, State.die_credited ha, Die.knowAt_credited _ _ hk hj]

/-! ## The shared cache and the DRAM (14 R410, R412, R413) -/

/-- The die with line `l` clean. -/
def Die.cleaned (x : Die) (l : Nat) : Die := { x with dirty := x.dirty.filter (·.1 != l) }

/-- A dirty line is written back: it is clean, and memory changes at most in the mirror. -/
theorem dramWriteback_eq (dirty : (s.die d).dirty.any (·.1 == pa / 64) = true) : ∃ m,
    exec (.dramWriteback d pa) s = .next { s.updDie d (·.cleaned (pa / 64)) with mem := m } ∧
      ((s.die d).mirror (64 * (pa / 64) % 2 ^ 49) = none → m = s.mem) := by
  change ∃ m, execDramWriteback d pa s = .next _ ∧ _
  unfold execDramWriteback
  dsimp only
  rw [dirty, if_neg (by decide)]
  split
  · next mirrored =>
    split
    · exact ⟨s.mem, rfl, fun _ => rfl⟩
    · exact ⟨_, rfl, fun none => by rw [mirrored] at none; cases none⟩
  · exact ⟨s.mem, rfl, fun _ => rfl⟩

theorem dramWriteback_cleans (ha : AllDies s) {y : Nat × Nat} (hy : y ∈ (s.die d).dirty) (line : y.1 = pa / 64) :
    (∃ t, exec (.dramWriteback d pa) s = .next t ∧ ∀ z ∈ (t.die d).dirty, z.1 ≠ pa / 64) ∧
      ((s.die d).mirror (64 * (pa / 64) % 2 ^ 49) = none → ∃ t, exec (.dramWriteback d pa) s = .next t ∧ t.mem = s.mem) := by
  obtain ⟨m, ran, same⟩ := dramWriteback_eq (List.any_eq_true.2 ⟨y, hy, beq_iff_eq.2 line⟩)
  refine ⟨⟨_, ran, fun z hz => ?_⟩, fun none => ⟨_, ran, same none⟩⟩
  change z ∈ ((s.updDie d (·.cleaned (pa / 64))).die d).dirty at hz
  rw [State.die_updDie (f := (·.cleaned (pa / 64))) ha fun _ => rfl] at hz
  exact bne_iff_ne.1 (List.mem_filter.1 hz).2

theorem State.flushSlice_rhoath (s : State) (slice line : Nat) : (s.flushSlice d slice line).rhoath = s.rhoath := by
  unfold State.flushSlice
  refine List.foldlRecOn (motive := fun t : State => t.rhoath = s.rhoath) _ _ rfl fun t ht l _ => ?_
  by_cases dirty : (t.die d).dirty.any (·.1 == 64 * l / 64) = true
  · obtain ⟨m, ran, -⟩ := dramWriteback_eq dirty
    rw [show execDramWriteback d (64 * l) t = _ from ran]
    exact ht
  · have idle : execDramWriteback d (64 * l) t = .fault (.notEnabled "DRAM_WRITEBACK") :=
      if_pos (by rw [Bool.eq_false_iff.2 dirty]; rfl)
    rw [idle]
    exact ht

theorem State.mem_retirePage (s : State) (p : Nat) : (d, p) ∈ (s.retirePage d p).rhoath.retPages :=
  List.mem_append_right _ (List.mem_singleton_self _)

theorem cacheUe_next {slice way : Nat} (home : slice = homeSlice d pa) (up : s.down d = false) (own : paDie pa = some d)
    (dram : placeOf pa = .dram) (used : (s.die d).quarantined slice way = false) :
    ∃ t, exec (.cacheUe d pa slice way) s = .next t ∧ ((s.die d).dirty.any (·.1 == pa / 64) = true →
      (d, pa / 64 / 512 * 0x8000 % 2 ^ 49 / 0x8000) ∈ t.rhoath.retPages) := by
  change ∃ t, execCacheUe d pa slice way s = .next t ∧ _
  unfold execCacheUe
  dsimp only
  rw [if_neg (by simp [home.symm, up, own, dram, used])]
  split
  · next clean =>
    refine ⟨_, rfl, fun dirty => ?_⟩
    obtain ⟨y, hy, line⟩ := List.any_eq_true.1 dirty
    exact absurd line (List.find?_eq_none.1 clean y hy)
  · next owner _ =>
    refine ⟨_, rfl, fun _ => ?_⟩
    have retired := (s.endContext owner).mem_retirePage (d := d) (pa / 64 / 512 * 0x8000 % 2 ^ 49 / 0x8000)
    split
    · rw [State.faultRec_rhoath, State.faultRec_rhoath, State.updDie_rhoath, State.flushSlice_rhoath, State.faultRec_rhoath]
      exact retired
    · rw [State.faultRec_rhoath, State.updDie_rhoath, State.flushSlice_rhoath, State.faultRec_rhoath]
      exact retired

/-! ## Bank modes (04 R93, R95) -/

/-- A field that is replaced stands between the bits above and below it, which stay. -/
theorem setBits_eq (w lo n v : Nat) : setBits w lo n v = 2 ^ lo * (2 ^ n * (w / 2 ^ lo / 2 ^ n) + v % 2 ^ n) + w % 2 ^ lo := by
  have fields : w = 2 ^ lo * (2 ^ n * (w / 2 ^ lo / 2 ^ n)) + 2 ^ lo * (w / 2 ^ lo % 2 ^ n) + w % 2 ^ lo := by
    rw [← Nat.mul_add, Nat.div_add_mod, Nat.div_add_mod]
  unfold setBits bitsAt
  rw [Nat.mul_comm _ (2 ^ lo), Nat.mul_comm _ (2 ^ lo), Nat.mul_add]
  omega

theorem bitsAt_setBits (w lo n v : Nat) : bitsAt (setBits w lo n v) lo n = v % 2 ^ n := by
  rw [setBits_eq, bitsAt, Nat.mul_add_div (Nat.two_pow_pos lo), Nat.div_eq_of_lt (Nat.mod_lt _ (Nat.two_pow_pos lo)), Nat.add_zero,
    Nat.mul_add_mod, Nat.mod_mod]

/-- A word holds the fields that lie in it. -/
theorem bitsAt_mod (x : Nat) {lo n m : Nat} (h : lo + n ≤ m) : bitsAt (x % 2 ^ m) lo n = bitsAt x lo n := by
  have word : 2 ^ m = 2 ^ lo * 2 ^ (m - lo) := by rw [← Nat.pow_add, Nat.add_sub_of_le (by omega)]
  unfold bitsAt
  rw [word, Nat.mod_mul_right_div_self, Nat.mod_mod_of_dvd _ (Nat.pow_dvd_pow 2 (by omega))]

theorem Die.bankMode_setMode (x : Die) (c b : Nat) {m : Nat} (hm : m < 4) : (x.setMode c b m).bankMode c b = m := by
  unfold Die.setMode Die.bankMode Die.nat
  dsimp only
  rw [Die.reg_setReg_self, BitVec.toNat_ofNat, bitsAt_mod _ (by omega), bitsAt_setBits]
  exact Nat.mod_eq_of_lt hm

/-- The registers of the FIFOs are none of those of the modes. -/
theorem Die.bankMode_setFifo (x : Die) {c b : Nat} (v : Word) (hc : c < 8) (hb : b < 64) :
    (x.setReg (fifoOff c b) v).bankMode c b = x.bankMode c b := by
  unfold Die.bankMode Die.nat
  rw [Die.reg_setReg_ne x v (by unfold fifoOff; omega)]

theorem State.die_updCore (s : State) (c : CoreId) (f : Core → Core) : (s.updCore c f).die d = s.die d := by
  unfold State.updCore State.setCore
  split
  · rfl
  · rfl

theorem State.mem_updCore (s : State) (c : CoreId) (f : Core → Core) : (s.updCore c f).mem = s.mem := by
  unfold State.updCore State.setCore
  split
  · rfl
  · rfl

/-- The die without switch `x`. -/
def Die.unswitched (e : Die) (x : Nat × Nat × Nat × CoreId × Nat) : Die := { e with switches := e.switches.erase x }

/-- A switch ends: the bank has its new mode, and one that enters SCRATCH holds zeros. -/
theorem bankSwitchComplete_next (ha : AllDies s) {c b : Nat} {x : Nat × Nat × Nat × CoreId × Nat}
    (hx : ((s.die d).switches.find? fun x => x.1 == c && x.2.1 == b) = some x) (mode : x.2.2.1 < 4) (hc : c < 8) (hb : b < 64) :
    ∃ t, exec (.bankSwitchComplete d c b) s = .next t ∧ (t.die d).bankMode c b = x.2.2.1 ∧
      (t.die d).switches = (s.die d).switches.erase x ∧
      ((s.die d).bankMode c b ≠ 1 → x.2.2.1 = 1 → ∀ i, i < 0x80000 → memGet t.mem (bankBase d c b + i) = 0) ∧
      ∀ i, i < bankBase d c b ∨ bankBase d c b + 0x80000 ≤ i → memGet t.mem i = memGet s.mem i := by
  have ended : (s.updDie d (·.unswitched x)).die d = (s.die d).unswitched x := State.die_updDie (f := (·.unswitched x)) ha fun _ => rfl
  have entered := State.die_updDie (d := d) (f := fun e => (e.setMode c b x.2.2.1).setReg (fifoOff c b) 0)
    (State.allDies_updDie (d := d) (f := (·.unswitched x)) ha) fun _ => rfl
  have changed := (congrArg (Die.bankMode · c b) entered).trans
    ((Die.bankMode_setFifo _ 0 hc hb).trans (Die.bankMode_setMode _ c b mode))
  have left := (congrArg Die.switches entered).trans
    (show _ = (s.die d).switches.erase x from congrArg Die.switches ended)
  change ∃ t, execBankSwitchComplete d c b s = .next t ∧ _
  unfold execBankSwitchComplete
  rw [hx]
  refine ⟨_, rfl, ?_⟩
  dsimp only
  rw [State.die_updCore, State.mem_updCore]
  split
  · next same =>
    exact ⟨(congrArg (Die.bankMode · c b) ended).trans same, congrArg Die.switches ended,
      fun other entry => absurd (same.trans entry) other, fun _ _ => rfl⟩
  · split
    · refine ⟨changed, left, fun _ _ i hi => ?_, fun i hi => ?_⟩
      · exact (memGet_memZero _ _ _ _).trans (if_pos ⟨Nat.le_add_right _ _, Nat.add_lt_add_left hi _⟩)
      · exact (memGet_memZero _ _ _ _).trans (if_neg (by omega))
    · next other => exact ⟨changed, left, fun _ entry => absurd entry other, fun _ _ => rfl⟩

/-! ## Peer puts (10 R284, 12 R344) -/

theorem find_and {α : Type} {p q : α → Bool} {l : List α} {x : α} (h : l.find? p = some x) (hq : q x = true) :
    (l.find? fun y => p y && q y) = some x := by
  obtain ⟨px, before, after, rfl, none⟩ := List.find?_eq_some_iff_append.1 h
  refine List.find?_eq_some_iff_append.2 ⟨by simp [px, hq], before, after, rfl, fun y hy => ?_⟩
  simp [show p y = false by simpa using none y hy]

theorem State.pump_effects (s : State) : s.pump.effects = s.effects := by rw [s.pump_frame.eq]

/-- A put that is refused is no longer on its way. -/
theorem State.putEnds_drops (s : State) {f : Effect} {q : PeerPut} {r : Bool} {tok : Nat} (hk : f.kind = .put q r tok) :
    f ∉ (s.putEnds f).effects := by
  unfold State.putEnds
  rw [hk]
  dsimp only
  rw [State.pump_effects]
  split
  · exact (Ebbs.refl _).strandTrap.not_mem_put hk (by simp [hk])
  · simp [hk]

/-- The other chip acknowledges a committed put or refuses it: either ends it here (10 R283). -/
theorem peerAck_next {f : Effect} {q : PeerPut} {tok : Nat} (hf : s.effects.find? (·.id == f.id) = some f)
    (committed : f.committed = true) (hk : f.kind = .put q true tok) :
    ∃ t, exec (.peerAck f.id) s = .next t ∧ f ∉ t.effects := by
  have found : (s.effects.find? fun e => e.id == f.id && e.committed && (match e.kind with | .put _ r _ => r | _ => false)) =
      some f := find_and (find_and hf committed) (by rw [hk])
  change ∃ t, execPeerAck f.id s = .next t ∧ _
  unfold execPeerAck
  split
  · next e he =>
    obtain rfl : f = e := Option.some.inj (found.symm.trans he)
    dsimp only
    split
    · exact ⟨_, rfl, State.putEnds_drops _ hk⟩
    · refine ⟨_, rfl, ?_⟩
      rw [State.pump_effects]
      exact fun there => bne_iff_ne.1 (List.mem_filter.1 there).2 rfl
  · next none => cases found.symm.trans none

end

/-- Settles O44, event by event. -/
theorem fabricEvents : Obligations.FabricEvents := by
  unfold Obligations.FabricEvents
  intro s a d src pa ha _
  exact ⟨fun hf up first => ⟨flitReceive_enters hf up first, flitReceive_discards hf up first⟩, flitDeliver_next,
    creditSend_eq, fun c => creditReceive_next ha, fun y => dramWriteback_cleans ha, fun c b x => bankSwitchComplete_next ha,
    fun slice way => cacheUe_next, fun f q tok => peerAck_next⟩

end Sys2Proof.Machine

/-! # The scalar operations (O1 to O9) -/

namespace Sys2Proof.Machine

open Sys2Proof.Terms

section
variable {s : State} {d : SReg} {lat h : Nat} {fl : Flags} {v w : Word} {o : Out}

/-! ## What completes (05 R116) -/

theorem next_eq {t u : State} (h : t = u) : (Host.Outcome.next t : Out) = .next u := congrArg _ h

/-- An operation that completes with one value completes with any equal one. -/
theorem completes_with (ho : o = .next (posted s lat (.s d v) fl h)) (hv : v = w) :
    o = .next (posted s lat (.s d w) fl h) := hv ▸ ho

/-! ## Integer results (06 Table 06-9, R154, R155) -/

theorem rotateLeft_shAmt (x y : Word) :
    x.rotateLeft (shAmt y) = x <<< (y.toNat % 64) ||| x >>> (64 - y.toNat % 64) := by
  rw [shAmt, BitVec.rotateLeft_def, Nat.mod_mod]

theorem boolW_decide (p : Prop) [Decidable p] : boolW (decide p) = if p then 1 else 0 := by simp [boolW]
theorem boolW_beq (x y : Word) : boolW (x == y) = if x = y then 1 else 0 := by simp [boolW]
theorem boolW_bne (x y : Word) : boolW (x != y) = if x = y then 0 else 1 := by simp [boolW, apply_ite]

theorem getLsbD_halfword (i : Nat) : (0xFFFF : Word).getLsbD i = decide (i < 16) := by
  rw [show (0xFFFF : Word) = (BitVec.allOnes 16).setWidth 64 from rfl, BitVec.getLsbD_setWidth, BitVec.getLsbD_allOnes]
  simp; omega

/-- MOVK replaces one halfword. -/
theorem getLsbD_movkVal (r : Word) (pos : BitVec 2) (k : BitVec 16) {j : Nat} (hj : j < 64) :
    (movkVal r pos k).getLsbD j =
      if 16 * pos.toNat ≤ j ∧ j < 16 * pos.toNat + 16 then k.getLsbD (j - 16 * pos.toNat) else r.getLsbD j := by
  simp only [movkVal, BitVec.getLsbD_or, BitVec.getLsbD_and, BitVec.getLsbD_not, BitVec.getLsbD_shiftLeft,
    BitVec.getLsbD_setWidth, getLsbD_halfword]
  by_cases lo : j < 16 * pos.toNat
  · simp [lo, hj]
  · by_cases hi : j < 16 * pos.toNat + 16
    · simp [lo, hi, hj, show j - 16 * pos.toNat < 16 by omega, show j - 16 * pos.toNat < 64 by omega]
    · simp [lo, hi, hj, show ¬ j - 16 * pos.toNat < 16 by omega, show 16 ≤ j - 16 * pos.toNat by omega]

end

/-- Settles O1, form by form; only the forms that the model words otherwise need a lemma. -/
theorem scalarArithmetic : Obligations.ScalarArithmetic := by
  unfold Obligations.ScalarArithmetic
  intro s d a b c sh n i w k pos
  refine ⟨rfl, rfl, rfl, rfl, rfl, rfl, rfl, rfl, rfl, ?rol, rfl, rfl, rfl, rfl, ?mul, rfl, rfl, rfl, ?sel, ?cmpeq, ?cmpne,
    ?cmplt, ?cmple, ?cmpltn, ?cmplen, rfl, rfl, rfl, rfl, rfl, rfl, rfl, ?cmpeqi, ?cmplti, rfl, _, rfl, ?movk⟩
  case rol => exact completes_with rfl (rotateLeft_shAmt _ _)
  case mul => exact completes_with rfl (BitVec.eq_of_toNat_eq (by simp))
  case sel => exact completes_with rfl (ite_not ..)
  case cmpeq | cmpeqi => exact completes_with rfl (boolW_beq _ _)
  case cmpne => exact completes_with rfl (boolW_bne _ _)
  case cmplt | cmple | cmpltn | cmplen | cmplti => exact completes_with rfl (boolW_decide _)
  case movk => exact fun j hj => getLsbD_movkVal _ pos k hj

/-! ## Division (06 R152) -/

section
variable {s : State} {d a b : SReg} {x y : Word}

/-- -2^63 and -1 are the one pair whose quotient is out of range. -/
theorem overflowing_iff (x y : Word) :
    (x = BitVec.intMin 64 ∧ y = BitVec.allOnes 64) ↔ (x.toInt = -2 ^ 63 ∧ y.toInt = -1) := by
  rw [← BitVec.toInt_inj, ← BitVec.toInt_inj]
  rfl

theorem divS_zero : divS x 0 = (BitVec.allOnes 64, 32) := rfl
theorem remS_zero : remS x 0 = (x, 32) := rfl
theorem divU_zero : divU x 0 = (BitVec.allOnes 64, 32) := rfl
theorem remU_zero : remU x 0 = (x, 32) := rfl

theorem divS_overflow (hx : x.toInt = -2 ^ 63) (hy : y.toInt = -1) : divS x y = (x, 64) ∧ remS x y = (0, 64) := by
  obtain ⟨rfl, rfl⟩ := (overflowing_iff x y).2 ⟨hx, hy⟩
  exact ⟨rfl, rfl⟩

/-- Every other pair has the quotient and the remainder of truncating division. -/
theorem divS_exact (hy : y ≠ 0) (h : ¬(x.toInt = -2 ^ 63 ∧ y.toInt = -1)) :
    divS x y = (x.sdiv y, 0) ∧ (x.sdiv y).toInt = x.toInt.tdiv y.toInt := by
  have pair := mt (overflowing_iff x y).1 h
  have quotient := BitVec.toInt_sdiv_of_ne_or_ne x y (not_and_or.1 pair)
  exact ⟨by rw [divS, if_neg hy, if_neg pair, ← quotient, BitVec.ofInt_toInt], quotient⟩
theorem remS_exact (hy : y ≠ 0) (h : ¬(x.toInt = -2 ^ 63 ∧ y.toInt = -1)) : remS x y = (x.srem y, 0) := by
  rw [remS, if_neg hy, if_neg (mt (overflowing_iff x y).1 h), ← BitVec.toInt_srem, BitVec.ofInt_toInt]

theorem divU_exact (hy : y ≠ 0) : divU x y = (x / y, 0) := by
  rw [divU, if_neg hy, ← BitVec.toNat_udiv, BitVec.ofNat_toNat, BitVec.setWidth_eq]
theorem remU_exact (hy : y ≠ 0) : remU x y = (x % y, 0) := by
  rw [remU, if_neg hy, ← BitVec.toNat_umod, BitVec.ofNat_toNat, BitVec.setWidth_eq]

/-- A remainder that is not zero has the sign of the dividend. -/
theorem tmod_sign (m n : Int) : m.tmod n = 0 ∨ (m.tmod n < 0 ↔ m < 0) := by
  have sign := Int.sign_tmod m n
  split at sign
  · exact .inl (Int.sign_eq_zero_iff_zero.1 sign)
  · exact .inr (by rw [← Int.sign_eq_neg_one_iff_neg, sign, Int.sign_eq_neg_one_iff_neg])

/-- A division form completes with what its function gives. -/
theorem divOp_eq {f : Word → Word → Word × Flags} {r : Word} {fl : Flags} (hr : f (s.core.s a) (s.core.s b) = (r, fl)) :
    divOp f d a b s = .next (posted s 18 (.s d r) fl 24) := by rw [divOp, hr]; rfl

end

/-- Settles O2, by the kind of the operands: a zero divisor, the overflowing pair, the exact pairs. -/
theorem scalarDivision : Obligations.ScalarDivision := by
  unfold Obligations.ScalarDivision
  intro s d a b x y put idz iov
  refine ⟨fun (zero : s.core.s b = 0) => ?_, fun low one => ?_, fun nonzero fits => ?_, fun nonzero => ?_⟩
  · exact ⟨divOp_eq (zero ▸ divS_zero), divOp_eq (zero ▸ divU_zero), divOp_eq (zero ▸ remS_zero),
      divOp_eq (zero ▸ remU_zero)⟩
  · obtain ⟨quotient, remainder⟩ := divS_overflow low one
    exact ⟨divOp_eq quotient, divOp_eq remainder⟩
  · obtain ⟨quotient, value⟩ := divS_exact nonzero fits
    refine ⟨x.sdiv y, x.srem y, divOp_eq quotient, divOp_eq (remS_exact nonzero fits), ?_⟩
    rw [value, BitVec.toInt_srem]
    refine ⟨(Int.tdiv_mul_add_tmod _ _).symm, ?_, tmod_sign _ _⟩
    rw [Int.natAbs_tmod]
    exact Nat.mod_lt _ (Int.natAbs_pos.2 fun zero => nonzero (BitVec.toInt_inj.1 zero))
  · refine ⟨x / y, x % y, divOp_eq (divU_exact nonzero), divOp_eq (remU_exact nonzero), ?_⟩
    rw [BitVec.toNat_udiv, BitVec.toNat_umod]
    exact ⟨(Nat.div_add_mod' _ _).symm, Nat.mod_lt _ (Nat.pos_of_ne_zero fun zero => nonzero (BitVec.eq_of_toNat_eq zero))⟩

/-! ## Bits of a number -/

theorem bitAt_eq_testBit (x i : Nat) : bitAt x i = x.testBit i := by
  rw [bitAt, Nat.testBit_eq_decide_div_mod_eq]
  rfl

theorem testBit_bitsAt (x lo n i : Nat) : (bitsAt x lo n).testBit i = (decide (i < n) && x.testBit (i + lo)) := by
  rw [bitsAt, Nat.testBit_mod_two_pow, Nat.testBit_div_two_pow]

/-- CLZ counts the zeros above the highest one of the low `k` bits. -/
theorem leadingZeros_spec (x k : Nat) : leadingZeros x k ≤ k ∧
    (∀ i, k - leadingZeros x k ≤ i → i < k → x.testBit i = false) ∧
    (leadingZeros x k < k → x.testBit (k - 1 - leadingZeros x k) = true) := by
  induction k with
  | zero => simp [leadingZeros]
  | succ k ih =>
    obtain ⟨le, zeros, one⟩ := ih
    rw [leadingZeros, bitAt_eq_testBit]
    cases top : x.testBit k with
    | true => exact ⟨Nat.zero_le _, fun i lo hi => absurd hi (Nat.not_lt.2 lo), fun _ => top⟩
    | false =>
      refine ⟨by simp; omega, fun i lo hi => ?_, fun lt => ?_⟩
      · by_cases last : i = k
        · exact last ▸ top
        · exact zeros i (by simp at lo; omega) (by omega)
      · have := one (by simp at lt; omega)
        rwa [if_neg Bool.false_ne_true, show k + 1 - 1 - (1 + leadingZeros x k) = k - 1 - leadingZeros x k by omega]

/-- CTZ counts the zeros below the lowest one of the low `k` bits. -/
theorem trailingZeros_spec (x k : Nat) : trailingZeros x k ≤ k ∧
    (∀ i, i < trailingZeros x k → x.testBit i = false) ∧
    (trailingZeros x k < k → x.testBit (trailingZeros x k) = true) := by
  induction k generalizing x with
  | zero => simp [trailingZeros]
  | succ k ih =>
    obtain ⟨le, zeros, one⟩ := ih (x / 2)
    rw [trailingZeros, bitAt_eq_testBit]
    cases low : x.testBit 0 with
    | true => exact ⟨Nat.zero_le _, fun i hi => absurd hi (Nat.not_lt_zero i), fun _ => low⟩
    | false =>
      rw [if_neg Bool.false_ne_true, Nat.add_comm 1]
      refine ⟨Nat.succ_le_succ le, fun i hi => ?_, fun lt => ?_⟩
      · cases i with
        | zero => exact low
        | succ i => exact (Nat.testBit_succ ..).trans (zeros i (Nat.lt_of_succ_lt_succ hi))
      · exact (Nat.testBit_succ ..).trans (one (Nat.lt_of_succ_lt_succ lt))

/-- POPC counts the ones. -/
theorem onesBelow_eq (k x : Nat) : onesBelow k x = ((List.range k).filter fun i => x.testBit i).length := by
  induction k generalizing x with
  | zero => rfl
  | succ k ih =>
    have shifted : ((List.range k).filter fun i => x.testBit (i + 1)) = (List.range k).filter fun i => (x / 2).testBit i :=
      List.filter_congr fun i _ => Nat.testBit_succ x i
    rw [onesBelow, ih, List.range_succ_eq_map, List.filter_cons, List.filter_map, Nat.testBit_zero]
    rcases Nat.mod_two_eq_zero_or_one x with even | odd
    · simp [even, Function.comp_def, shifted]
    · simp [odd, Function.comp_def, shifted, Nat.add_comm]

theorem reverseBits_lt (x n : Nat) : reverseBits x n < 2 ^ n := by
  induction n generalizing x with
  | zero => exact Nat.one_pos
  | succ n ih =>
    have := ih (x / 2)
    rw [reverseBits, Nat.two_pow_succ]
    rcases Nat.mod_two_eq_zero_or_one x with even | odd
    · rw [even]; omega
    · rw [odd]; omega

/-- BREV moves bit `n - 1 - i` to bit `i`. -/
theorem testBit_reverseBits (x : Nat) {n i : Nat} (hi : i < n) : (reverseBits x n).testBit i = x.testBit (n - 1 - i) := by
  induction n generalizing x i with
  | zero => exact absurd hi (Nat.not_lt_zero i)
  | succ n ih =>
    rw [reverseBits, Nat.mul_comm, Nat.testBit_two_pow_mul_add _ (reverseBits_lt _ _)]
    split
    · next lt => rw [ih _ lt, ← Nat.testBit_succ, show Nat.succ (n - 1 - i) = n + 1 - 1 - i by omega]
    · next ge =>
      obtain rfl : i = n := by omega
      simp [Nat.testBit_zero]

/-- Byte `i` of a list of bytes joined with the lowest first. -/
theorem bitsAt_bytesNat (l : List Byte) {i : Nat} (hi : i < l.length) : bitsAt (bytesNat l) (8 * i) 8 = l[i].toNat := by
  induction l generalizing i with
  | nil => exact absurd hi (Nat.not_lt_zero i)
  | cons x r ih =>
    have lt := x.isLt
    rw [bytesNat, Nat.add_comm, Nat.mul_comm]
    cases i with
    | zero => exact (bitsAt_join_lo (k := 8) (n := 8) _ _ (Nat.le_refl 8)).trans (bitsAt_toNat x)
    | succ i => exact (bitsAt_join_hi (k := 8) _ lt (by omega)).trans (ih (Nat.lt_of_succ_lt_succ hi))

theorem getElem_natBytes (x : Nat) {n i : Nat} (hi : i < (natBytes x n).length) :
    (natBytes x n)[i] = .ofNat 8 (x / 2 ^ (8 * i)) := by
  induction n generalizing x i with
  | zero => exact absurd hi (Nat.not_lt_zero i)
  | succ n ih =>
    cases i with
    | zero => simp [natBytes]
    | succ i =>
      simp only [natBytes, List.getElem_cons_succ]
      rw [ih _, show 256 = 2 ^ 8 from rfl, Nat.div_div_eq_div_mul, ← Nat.pow_add, show 8 + 8 * i = 8 * (i + 1) by omega]

/-- BSWAP moves byte `7 - i` to byte `i`. -/
theorem bitsAt_reversed (x : Nat) {i : Nat} (hi : i < 8) :
    bitsAt (bytesNat (natBytes x 8).reverse) (8 * i) 8 = bitsAt x (8 * (7 - i)) 8 := by
  rw [bitsAt_bytesNat _ (by simpa using hi), List.getElem_reverse, getElem_natBytes]
  simp [bitsAt]

theorem bytesNat_lt (l : List Byte) : bytesNat l < 2 ^ (8 * l.length) := by
  induction l with
  | nil => exact Nat.one_pos
  | cons x r ih =>
    have := x.isLt
    rw [bytesNat, List.length_cons, Nat.mul_succ, Nat.pow_add]
    omega

/-! ## Bit fields (06 R153) -/

/-- The bits of a negative number of `w` bits: its own, and ones above. -/
theorem getLsbD_negative {f w i : Nat} (hf : f < 2 ^ w) (hw : w ≤ 64) (hi : i < 64) :
    (BitVec.ofInt 64 ((f : Int) - (2 ^ w : Nat))).getLsbD i = if i < w then f.testBit i else true := by
  have whole : 2 ^ w * (2 ^ (64 - w) - 1) + 2 ^ w = 2 ^ 64 := by
    rw [← Nat.mul_succ, Nat.succ_eq_add_one, Nat.sub_add_cancel Nat.one_le_two_pow, ← Nat.pow_add, Nat.add_sub_cancel' hw]
  have same : BitVec.ofInt 64 ((f : Int) - (2 ^ w : Nat)) = .ofNat 64 (2 ^ w * (2 ^ (64 - w) - 1) + f) := by
    apply BitVec.eq_of_toNat_eq
    rw [BitVec.toNat_ofInt, BitVec.toNat_ofNat]
    omega
  rw [same, BitVec.getLsbD_ofNat, Nat.testBit_two_pow_mul_add _ hf, Nat.testBit_two_pow_sub_one]
  split
  · simp [hi]
  · simp [hi]; omega

/-- A field of `w` bits, its top bit repeated above where `sx` says so. -/
theorem getLsbD_extbVal (sx : Bool) (a b : Word) {i : Nat} (hi : i < 64) : (extbVal sx a b).getLsbD i =
    if i < bfWidth b then a.getLsbD (bfLo b + i)
    else sx && decide (0 < bfWidth b) && a.getLsbD (bfLo b + bfWidth b - 1) := by
  have fits : bfWidth b ≤ 64 := Nat.min_le_right _ _
  have low (j : Nat) (hj : j < bfWidth b) : (bitsAt a.toNat (bfLo b) (bfWidth b)).testBit j = a.getLsbD (bfLo b + j) := by
    rw [testBit_bitsAt, Nat.add_comm]
    simp [hj, BitVec.getLsbD]
  have top : bitAt (bitsAt a.toNat (bfLo b) (bfWidth b)) (bfWidth b - 1) =
      (decide (0 < bfWidth b) && a.getLsbD (bfLo b + bfWidth b - 1)) := by
    rw [bitAt_eq_testBit]
    by_cases pos : 0 < bfWidth b
    · rw [low _ (by omega), Nat.add_sub_assoc pos]
      simp [pos]
    · simp [Nat.eq_zero_of_not_pos pos, bitsAt, Nat.mod_one]
  rw [extbVal, top]
  split
  · next sign =>
    rw [getLsbD_negative (bitsAt_lt _ _ _) fits hi]
    split
    · next lt => exact low i lt
    · simp only [Bool.and_eq_true] at sign
      simp [sign]
  · next sign =>
    rw [BitVec.getLsbD_ofNat]
    split
    · next lt => rw [low i lt]; simp [hi]
    · next ge =>
      rw [testBit_bitsAt, decide_eq_false ge, Bool.false_and, Bool.and_false, ← Bool.eq_false_iff.2 sign]
      simp only [Bool.and_assoc, Bool.and_self_left]

/-- INSB replaces the bits of its field. -/
theorem getLsbD_insbVal (r a b : Word) {i : Nat} (hi : i < 64) : (insbVal r a b).getLsbD i =
    if bfLo b ≤ i ∧ i < bfLo b + bfWidth b then a.getLsbD (i - bfLo b) else r.getLsbD i := by
  simp only [insbVal, BitVec.getLsbD_or, BitVec.getLsbD_and, BitVec.getLsbD_not, BitVec.getLsbD_shiftLeft,
    BitVec.getLsbD_ofNat, Nat.testBit_mul_two_pow, Nat.testBit_two_pow_sub_one]
  by_cases lo : bfLo b ≤ i
  · by_cases inside : i < bfLo b + bfWidth b
    · simp [lo, inside, hi, show i - bfLo b < bfWidth b by omega, Nat.not_lt.2 lo]
    · simp [lo, inside, hi, show ¬ i - bfLo b < bfWidth b by omega]
  · simp [lo, hi]

theorem bfLo_eq (b : Word) : bfLo b = b.toNat % 64 := by simp [bfLo, bitsAt]

/-- Settles O3, operation by operation. -/
theorem scalarBitOperations : Obligations.ScalarBitOperations := by
  unfold Obligations.ScalarBitOperations
  intro s d a b sx x y lo w put
  refine ⟨⟨leadingZeros x.toNat 64, (leadingZeros_spec _ _).1, rfl, fun i above => ?_, (leadingZeros_spec x.toNat 64).2.2⟩,
    ⟨trailingZeros x.toNat 64, (trailingZeros_spec _ _).1, rfl, (trailingZeros_spec x.toNat 64).2⟩,
    completes_with rfl (congrArg _ (onesBelow_eq 64 x.toNat)), ⟨_, rfl, fun i hi => ?_⟩, ⟨_, rfl, fun i hi => ?_⟩,
    ⟨_, rfl, fun i hi => ?_⟩, ⟨_, rfl, fun i hi => ?_⟩⟩
  · by_cases hi : i < 64
    · exact (leadingZeros_spec x.toNat 64).2.1 i above hi
    · exact BitVec.getLsbD_of_ge x i (Nat.not_lt.1 hi)
  · rw [BitVec.getLsbD_ofNat, testBit_reverseBits _ hi, decide_eq_true hi]
    rfl
  · apply BitVec.eq_of_toNat_eq
    rw [BitVec.extractLsb'_toNat, BitVec.extractLsb'_toNat, BitVec.toNat_ofNat,
      Nat.mod_eq_of_lt (bytesNat_lt (natBytes x.toNat 8).reverse |>.trans_eq (by simp)), Nat.shiftRight_eq_div_pow,
      Nat.shiftRight_eq_div_pow]
    exact bitsAt_reversed x.toNat hi
  · rw [getLsbD_extbVal sx _ _ hi, bfLo_eq]
    rfl
  · rw [getLsbD_insbVal _ _ _ hi, bfLo_eq]
    rfl

/-! ## Floating-point numbers by their fields (06 R157, R159, 07 R186) -/

/-- The fields of the bits `x` in format `f`: exponent, fraction, sign; the magnitude below the sign, and the order that it
gives, both zeros equal. -/
def Fmt.expOf (f : Fmt) (x : Nat) : Nat := bitsAt x f.fbits f.ebits
def Fmt.fracOf (f : Fmt) (x : Nat) : Nat := bitsAt x 0 f.fbits
def Fmt.signOf (f : Fmt) (x : Nat) : Bool := bitAt x (f.ebits + f.fbits)
def Fmt.magOf (f : Fmt) (x : Nat) : Nat := x % 2 ^ (f.ebits + f.fbits)
def signed (s : Bool) (m : Nat) : Int := if s then -m else m
def Fmt.keyOf (f : Fmt) (x : Nat) : Int := signed (f.signOf x) (f.magOf x)
def Fmt.nanAt (f : Fmt) (x : Nat) : Bool := f.expOf x == f.expOnes && f.fracOf x != 0
def Fmt.snanAt (f : Fmt) (x : Nat) : Bool := f.nanAt x && !bitAt x (f.fbits - 1)

/-- The significand with its hidden bit, and the exponent that counts the subnormal numbers with the smallest normal ones. -/
def Fmt.sigOf (f : Fmt) (x : Nat) : Nat := f.fracOf x + if f.expOf x = 0 then 0 else 2 ^ f.fbits
def Fmt.placeOf (f : Fmt) (x : Nat) : Nat := max 1 (f.expOf x)

section
variable {f : Fmt} {x y : Nat} {cc : Rel}

theorem Fmt.fracOf_lt (f : Fmt) (x : Nat) : f.fracOf x < 2 ^ f.fbits := bitsAt_lt _ _ _

theorem Fmt.magOf_eq (f : Fmt) (x : Nat) : f.magOf x = 2 ^ f.fbits * f.expOf x + f.fracOf x := by
  rw [magOf, expOf, fracOf, bitsAt, bitsAt, Nat.pow_zero, Nat.div_one, Nat.add_comm f.ebits, Nat.pow_add, Nat.mod_mul,
    Nat.add_comm]

/-! ### What the bits decode to -/

theorem Fmt.expOf_eq (f : Fmt) (x : Nat) : x / 2 ^ f.fbits % 2 ^ f.ebits = f.expOf x := rfl
theorem Fmt.fracOf_eq (f : Fmt) (x : Nat) : x % 2 ^ f.fbits = f.fracOf x := by simp [fracOf, bitsAt]
theorem Fmt.signOf_eq (f : Fmt) (x : Nat) : (x / 2 ^ (f.ebits + f.fbits) % 2 == 1) = f.signOf x := rfl

/-- A format with infinities decodes by its exponent field. -/
theorem decodeVal_eq (hi : f.inf = true) : decodeVal f x =
    if f.expOf x = f.expOnes then
      if f.fracOf x = 0 then .inf (f.signOf x) else .nan (f.signOf x) (2 ^ (f.fbits - 1) ≤ f.fracOf x) (f.fracOf x) f.fbits
    else .fin (f.signOf x) (f.sigOf x) 1 ((f.placeOf x : Int) - f.bias - f.fbits) := by
  unfold decodeVal
  simp only [f.fracOf_eq, f.expOf_eq, f.signOf_eq, hi, Bool.not_true, Bool.false_and, Bool.true_and, beq_iff_eq,
    Bool.false_eq_true, if_false]
  split
  · rfl
  · by_cases zero : f.expOf x = 0
    · simp [Fmt.sigOf, Fmt.placeOf, Fmt.emin, zero]
    · rw [if_neg zero, Fmt.sigOf, Fmt.placeOf, if_neg zero, Nat.add_comm, Nat.max_eq_right (Nat.pos_of_ne_zero zero)]

/-- A quiet NaN has the top bit of its fraction set (07 R199). -/
theorem Fmt.quiet_iff (hf : 0 < f.fbits) : decide (2 ^ (f.fbits - 1) ≤ f.fracOf x) = bitAt x (f.fbits - 1) := by
  obtain ⟨n, hn⟩ := Nat.exists_eq_succ_of_ne_zero hf.ne'
  have top : bitAt x n = (f.fracOf x).testBit n := by
    rw [bitAt_eq_testBit, fracOf, testBit_bitsAt, hn]
    simp
  have lt : f.fracOf x / 2 ^ n < 2 := Nat.div_lt_of_lt_mul (by rw [← Nat.pow_succ, ← hn]; exact f.fracOf_lt x)
  rw [hn, Nat.succ_sub_one, top, Nat.testBit_eq_decide_div_mod_eq, Nat.mod_eq_of_lt lt, decide_eq_decide,
    ← Nat.one_le_div_iff (Nat.two_pow_pos n)]
  omega

theorem decodeVal_isNan (hi : f.inf = true) : (decodeVal f x).isNan = f.nanAt x := by
  rw [decodeVal_eq hi, Fmt.nanAt]
  split
  · split <;> simp [*, Val.isNan]
  · next other => simp [other, Val.isNan]

theorem decodeVal_isSnan (hi : f.inf = true) (hf : 0 < f.fbits) : (decodeVal f x).isSnan = f.snanAt x := by
  rw [decodeVal_eq hi, Fmt.snanAt, Fmt.nanAt, ← Fmt.quiet_iff hf]
  split
  · split <;> simp [*, Val.isSnan]
  · next other => simp [other, Val.isSnan]

/-! ### The order of their values -/

/-- Numbers scaled by their places are in the order of place and fraction joined: a number with a greater exponent field is
the greater. -/
theorem scaled_lt_of_exp_lt {n e₁ m₁ e₂ m₂ : Nat} (h : e₁ < e₂) (h₁ : m₁ < 2 ^ n) :
    (m₁ + if e₁ = 0 then 0 else 2 ^ n) * 2 ^ max 1 e₁ < (m₂ + if e₂ = 0 then 0 else 2 ^ n) * 2 ^ max 1 e₂ := by
  have place : 2 ^ max 1 e₁ ≤ 2 ^ max 1 e₂ := Nat.pow_le_pow_right Nat.two_pos (by omega)
  rw [if_neg (Nat.ne_zero_of_lt h)]
  split
  · calc _ < 2 ^ n * 2 ^ max 1 e₁ := Nat.mul_lt_mul_of_pos_right (by omega) (Nat.two_pow_pos _)
      _ ≤ _ := Nat.mul_le_mul (Nat.le_add_left ..) place
  · have place : 2 * 2 ^ max 1 e₁ ≤ 2 ^ max 1 e₂ := by
      rw [← Nat.pow_succ']
      exact Nat.pow_le_pow_right Nat.two_pos (by omega)
    calc _ < (2 ^ n * 2) * 2 ^ max 1 e₁ := Nat.mul_lt_mul_of_pos_right (by omega) (Nat.two_pow_pos _)
      _ = 2 ^ n * (2 * 2 ^ max 1 e₁) := Nat.mul_assoc ..
      _ ≤ _ := Nat.mul_le_mul (Nat.le_add_left ..) place

theorem joined_lt_of_exp_lt {n e₁ m₁ e₂ m₂ : Nat} (h : e₁ < e₂) (h₁ : m₁ < 2 ^ n) :
    2 ^ n * e₁ + m₁ < 2 ^ n * e₂ + m₂ := by
  calc _ < 2 ^ n * (e₁ + 1) := by rw [Nat.mul_succ]; omega
    _ ≤ 2 ^ n * e₂ := Nat.mul_le_mul_left _ h
    _ ≤ _ := Nat.le_add_right ..

theorem Fmt.scaled_le_iff (f : Fmt) (x y : Nat) :
    f.sigOf x * 2 ^ f.placeOf x ≤ f.sigOf y * 2 ^ f.placeOf y ↔ f.magOf x ≤ f.magOf y := by
  rw [magOf_eq, magOf_eq]
  rcases Nat.lt_trichotomy (f.expOf x) (f.expOf y) with less | same | more
  · exact iff_of_true (scaled_lt_of_exp_lt less (f.fracOf_lt x)).le (joined_lt_of_exp_lt less (f.fracOf_lt x)).le
  · rw [sigOf, sigOf, placeOf, placeOf, same, Nat.mul_le_mul_right_iff (Nat.two_pow_pos _)]
    omega
  · exact iff_of_false (scaled_lt_of_exp_lt more (f.fracOf_lt y)).not_ge (joined_lt_of_exp_lt more (f.fracOf_lt y)).not_ge

/-- The comparison of two scaled magnitudes takes both to the smaller exponent. -/
theorem magLe_places (m n p q : Nat) (b c : Int) :
    magLe m 1 (p - b - c) n 1 (q - b - c) = decide (m * 2 ^ p ≤ n * 2 ^ q) := by
  rw [magLe, show (p : Int) - b - c - (q - b - c) = p - q by omega, scaleNum, scaleDen, decide_eq_decide,
    Nat.mul_one, Nat.one_mul]
  split
  · next le =>
    obtain ⟨k, rfl⟩ := Nat.exists_eq_add_of_le (show q ≤ p by omega)
    rw [show ((q + k : Nat) - (q : Int)).toNat = k by omega, Nat.mul_one, Nat.pow_add, Nat.mul_comm (2 ^ q), ← Nat.mul_assoc,
      Nat.mul_le_mul_right_iff (Nat.two_pow_pos q)]
  · next gt =>
    obtain ⟨k, rfl⟩ := Nat.exists_eq_add_of_le (show p ≤ q by omega)
    rw [show (-((p : Int) - (p + k : Nat))).toNat = k by omega, Nat.pow_add, Nat.mul_comm (2 ^ p), ← Nat.mul_assoc,
      Nat.mul_le_mul_right_iff (Nat.two_pow_pos p)]

theorem Fmt.sigOf_eq_zero_iff : f.sigOf x = 0 ↔ f.magOf x = 0 := by
  have := Nat.two_pow_pos f.fbits
  rw [sigOf, magOf_eq]
  split
  · next zero => simp [zero]
  · next other =>
    have : 0 < 2 ^ f.fbits * f.expOf x := Nat.mul_pos this (Nat.pos_of_ne_zero other)
    omega

/-- Under one sign the order is that of the magnitudes, or its reverse. -/
theorem compare_signed (s : Bool) (k l : Nat) : compare (signed s k) (signed s l) =
    if k ≤ l ∧ l ≤ k then .eq else if (decide (k ≤ l) != s) = true then .lt else .gt := by
  split
  · next same => exact compare_eq_iff_eq.2 (congrArg _ (Nat.le_antisymm same.1 same.2))
  · next other =>
    split
    · next less => exact compare_lt_iff_lt.2 (by cases s <;> simp [signed] at less ⊢ <;> omega)
    · next more => exact compare_gt_iff_gt.2 (by cases s <;> simp [signed] at more ⊢ <;> omega)

/-- Two finite numbers whose magnitudes are in the order of `k` and `l` are in the order of these under their signs. -/
theorem cmpVal_fin {s r : Bool} {m n k l : Nat} {e g : Int} (hm : m = 0 ↔ k = 0) (hn : n = 0 ↔ l = 0)
    (le : magLe m 1 e n 1 g = decide (k ≤ l)) (ge : magLe n 1 g m 1 e = decide (l ≤ k)) :
    cmpVal (.fin s m 1 e) (.fin r n 1 g) = compare (signed s k) (signed r l) := by
  have lt {i j : Int} (h : i < j) : Ordering.lt = compare i j := (compare_lt_iff_lt.2 h).symm
  have gt {i j : Int} (h : j < i) : Ordering.gt = compare i j := (compare_gt_iff_gt.2 h).symm
  have eq {i j : Int} (h : i = j) : Ordering.eq = compare i j := (compare_eq_iff_eq.2 h).symm
  rw [cmpVal, le, ge]
  simp only [hm, hn, decide_eq_true_eq, Bool.and_eq_true]
  by_cases zero : k = 0
  · subst zero
    by_cases zero' : l = 0
    · subst zero'
      simpa using eq (by cases s <;> cases r <;> rfl)
    · simp only [zero', and_false, if_true, if_false]
      cases r
      · exact lt (by simp [signed]; omega)
      · exact gt (by simp [signed]; omega)
  · simp only [zero, false_and, if_false]
    by_cases zero' : l = 0
    · subst zero'
      cases s
      · exact gt (by simp [signed]; omega)
      · exact lt (by simp [signed]; omega)
    · simp only [zero', if_false]
      cases s <;> cases r
      · exact (compare_signed false k l).symm
      · exact gt (by simp [signed]; omega)
      · exact lt (by simp [signed]; omega)
      · exact (compare_signed true k l).symm

/-- The magnitude of an infinity is above every finite one. -/
theorem Fmt.magOf_lt_inf (hx : f.expOf x ≠ f.expOnes) (hy : f.expOf y = f.expOnes) : f.magOf x < f.magOf y := by
  rw [magOf_eq, magOf_eq, hy]
  have lt : f.expOf x < 2 ^ f.ebits := bitsAt_lt _ _ _
  exact joined_lt_of_exp_lt (Nat.lt_of_le_of_ne (Nat.le_sub_one_of_lt lt) hx) (f.fracOf_lt x)

/-- Values that are no NaN are in the order of their signed magnitudes. -/
theorem cmpVal_decodeVal (hi : f.inf = true) (he : 0 < f.ebits) (hx : f.nanAt x = false) (hy : f.nanAt y = false) :
    cmpVal (decodeVal f x) (decodeVal f y) = compare (f.keyOf x) (f.keyOf y) := by
  have frac {z : Nat} (hz : f.nanAt z = false) (ones : f.expOf z = f.expOnes) : f.fracOf z = 0 := by
    simpa [Fmt.nanAt, ones] using hz
  have lt {i j : Int} (h : i < j) : Ordering.lt = compare i j := (compare_lt_iff_lt.2 h).symm
  have gt {i j : Int} (h : j < i) : Ordering.gt = compare i j := (compare_gt_iff_gt.2 h).symm
  rw [decodeVal_eq hi, decodeVal_eq hi, Fmt.keyOf, Fmt.keyOf]
  by_cases infx : f.expOf x = f.expOnes
  · rw [if_pos infx, if_pos (frac hx infx)]
    by_cases infy : f.expOf y = f.expOnes
    · have same : f.magOf x = f.magOf y := by rw [Fmt.magOf_eq, Fmt.magOf_eq, infx, infy, frac hx infx, frac hy infy]
      have pos : 0 < f.magOf y := by
        have top : 0 < f.expOnes := Nat.sub_pos_of_lt (Nat.one_lt_two_pow he.ne')
        rw [Fmt.magOf_eq, infy]
        exact Nat.add_pos_left (Nat.mul_pos (Nat.two_pow_pos _) top) _
      rw [if_pos infy, if_pos (frac hy infy), same]
      cases f.signOf x <;> cases f.signOf y
      · exact (compare_eq_iff_eq.2 rfl).symm
      · exact gt (by simp [signed]; omega)
      · exact lt (by simp [signed]; omega)
      · exact (compare_eq_iff_eq.2 rfl).symm
    · have less := Fmt.magOf_lt_inf infy infx
      rw [if_neg infy]
      cases f.signOf x
      · exact gt (by cases f.signOf y <;> simp [signed] <;> omega)
      · exact lt (by cases f.signOf y <;> simp [signed] <;> omega)
  · by_cases infy : f.expOf y = f.expOnes
    · have less := Fmt.magOf_lt_inf infx infy
      rw [if_neg infx, if_pos infy, if_pos (frac hy infy)]
      cases f.signOf y
      · exact lt (by cases f.signOf x <;> simp [signed] <;> omega)
      · exact gt (by cases f.signOf x <;> simp [signed] <;> omega)
    · rw [if_neg infx, if_neg infy]
      exact cmpVal_fin Fmt.sigOf_eq_zero_iff Fmt.sigOf_eq_zero_iff
        ((magLe_places ..).trans (decide_eq_decide.2 (f.scaled_le_iff x y)))
        ((magLe_places ..).trans (decide_eq_decide.2 (f.scaled_le_iff y x)))

/-- The relation of two numbers, neither a NaN (06 R157). -/
theorem relVal_decodeVal (hi : f.inf = true) (he : 0 < f.ebits) (hx : f.nanAt x = false) (hy : f.nanAt y = false) :
    relVal cc (decodeVal f x) (decodeVal f y) = (relHolds cc (f.keyOf x) (f.keyOf y), 0) := by
  unfold relVal
  rw [decodeVal_isNan hi, decodeVal_isNan hi, hx, hy, cmpVal_decodeVal hi he hx hy]
  generalize f.keyOf x = k
  generalize f.keyOf y = l
  rcases lt_trichotomy k l with less | rfl | more
  · rw [compare_lt_iff_lt.2 less]
    cases cc <;> simp [relHolds, bne, less, less.le, less.ne]
  · rw [compare_eq_iff_eq.2 rfl]
    cases cc <;> simp [relHolds]
  · rw [compare_gt_iff_gt.2 more]
    cases cc <;> simp [relHolds, bne, more, more.le, more.ne']

/-- The relation where an operand is a NaN, with its flags (06 R157). -/
theorem relVal_of_nan (hi : f.inf = true) (hf : 0 < f.fbits) (h : (f.nanAt x || f.nanAt y) = true) :
    relVal cc (decodeVal f x) (decodeVal f y) = (cc == .ne || cc == .un,
      if cc == .lt || cc == .le || cc == .gt || cc == .ge || f.snanAt x || f.snanAt y then 16 else 0) := by
  unfold relVal
  rw [decodeVal_isNan hi, decodeVal_isNan hi, if_pos h, decodeVal_isSnan hi hf, decodeVal_isSnan hi hf]
  cases cc <;> rfl

end

/-! ### The scalar formats (06 R156) -/

theorem fpArg_eq (w : Width) (x : Word) : fpArg w x = fpOperand w x := by cases w <;> rfl
theorem nanAt_widthFmt (w : Width) (x : Nat) : (widthFmt w).nanAt x = fpIsNan w x := by cases w <;> rfl
theorem snanAt_widthFmt (w : Width) (x : Nat) : (widthFmt w).snanAt x = fpIsSnan w x := by cases w <;> rfl
theorem keyOf_widthFmt (w : Width) (x : Nat) : (widthFmt w).keyOf x = fpKey w x := by cases w <;> rfl
theorem inf_widthFmt (w : Width) : (widthFmt w).inf = true := by cases w <;> rfl
theorem ebits_widthFmt (w : Width) : 0 < (widthFmt w).ebits := by cases w <;> decide
theorem fbits_widthFmt (w : Width) : 0 < (widthFmt w).fbits := by cases w <;> decide

/-- The one-hot class, by exponent and fraction (06 R159). -/
theorem classBits_eq (w : Width) (x : Nat) : classBits (widthFmt w) x = 2 ^ fpClass w x := by
  have fields : fpExp w x = (widthFmt w).expOf x ∧ fpFrac w x = (widthFmt w).fracOf x ∧ fpSign w x = (widthFmt w).signOf x ∧
      2 ^ expBits w - 1 = (widthFmt w).expOnes ∧ bitAt x (fracBits w - 1) = bitAt x ((widthFmt w).fbits - 1) := by
    cases w <;> exact ⟨rfl, rfl, rfl, rfl, rfl⟩
  obtain ⟨exp, frac, sign, ones, quiet⟩ := fields
  rw [fpClass, exp, frac, sign, ones, quiet, ← Fmt.quiet_iff (fbits_widthFmt w), classBits, decodeVal_eq (inf_widthFmt w),
    Fmt.expOf_eq]
  by_cases top : (widthFmt w).expOf x = (widthFmt w).expOnes
  · by_cases whole : (widthFmt w).fracOf x = 0
    · simp [top, whole, apply_ite (2 ^ ·)]
    · simp [top, whole, apply_ite (2 ^ ·)]
  · by_cases low : (widthFmt w).expOf x = 0
    · have apart : 0 ≠ (widthFmt w).expOnes := fun h => top (low.trans h)
      simp [low, apart, Fmt.sigOf, apply_ite (2 ^ ·)]
    · have nonzero : (widthFmt w).sigOf x ≠ 0 := by simp [Fmt.sigOf, low]
      simp [top, low, nonzero, apply_ite (2 ^ ·)]

theorem execFcmp_eq {s : State} {w : Width} {cc : Rel} {d a b : SReg} {r : Bool} {fl : Flags}
    (h : relVal cc (decodeVal (widthFmt w) (fpOperand w (s.core.s a)))
      (decodeVal (widthFmt w) (fpOperand w (s.core.s b))) = (r, fl)) :
    exec (.fcmp w cc d a b) s = .next (posted s 4 (.s d (if r then 1 else 0)) fl 24) := by
  change execFcmp w cc d a b s = _
  rw [execFcmp, fpArg_eq, fpArg_eq, h]
  rfl

/-- Settles O5: the relation is that of the signed magnitudes, which the format's fields order as its values. -/
theorem scalarFloatComparison : Obligations.ScalarFloatComparison := by
  unfold Obligations.ScalarFloatComparison
  intro s w cc d a b x y put nv
  refine ⟨fun nan => execFcmp_eq ?_, fun hx hy => execFcmp_eq ?_, ?_⟩
  · rw [← nanAt_widthFmt, ← nanAt_widthFmt] at nan
    rw [← snanAt_widthFmt, ← snanAt_widthFmt]
    exact relVal_of_nan (inf_widthFmt w) (fbits_widthFmt w) nan
  · rw [← keyOf_widthFmt, ← keyOf_widthFmt]
    exact relVal_decodeVal (inf_widthFmt w) (ebits_widthFmt w) ((nanAt_widthFmt w x).trans hx) ((nanAt_widthFmt w y).trans hy)
  · exact completes_with (v := .ofNat 64 (classBits (widthFmt w) (fpArg w (s.core.s a)))) rfl
      (by rw [classBits_eq, fpArg_eq])

/-! ## CSRs (06 R144 to R146, 13 R372, R389) -/

section
variable {c : Core} {x : Word}

theorem getLsbD_flagsMask (i : Nat) : flagsMask.getLsbD i = decide (i < 15 ∧ i ≠ 7) := by
  by_cases hi : i < 64
  · exact (by decide : ∀ j : Fin 64, flagsMask.getLsbD j = decide ((j : Nat) < 15 ∧ (j : Nat) ≠ 7)) ⟨i, hi⟩
  · rw [BitVec.getLsbD_of_ge _ _ (Nat.not_lt.1 hi)]
    simp; omega

theorem toNat_and_three (x : Word) : (x &&& 3).toNat = x.toNat % 4 :=
  (BitVec.toNat_and ..).trans (Nat.and_two_pow_sub_one_eq_mod x.toNat 2)

theorem and_three_eq_iff (x : Word) : x &&& 3 = 3 ↔ x.toNat % 4 = 3 := by
  rw [← BitVec.toNat_inj, toNat_and_three]
  rfl

/-- MODE with the low two bits of `x`. -/
theorem contract_replaced (m x : Word) : ((m &&& ~~~3) ||| (x &&& 3)) &&& 3 = x &&& 3 := by
  ext i hi
  simp only [BitVec.getElem_and, BitVec.getElem_or, BitVec.getElem_not]
  cases (3 : Word)[i] <;> simp

theorem getLsbD_three (i : Nat) : (3 : Word).getLsbD i = decide (i < 2) := by
  rw [show (3 : Word) = (BitVec.allOnes 2).setWidth 64 from rfl, BitVec.getLsbD_setWidth, BitVec.getLsbD_allOnes]
  simp; omega

/-- TVEC takes an even address of 32 bits. -/
theorem toNat_tvec (x : Word) : (x &&& 0xFFFFFFFE).toNat = x.toNat % 2 ^ 32 - x.toNat % 2 := by
  have field : x.toNat &&& 0xFFFFFFFE = 2 * (x.toNat / 2 % 2 ^ 31) := by
    refine Nat.eq_of_testBit_eq fun i => ?_
    rw [← Nat.and_two_pow_sub_one_eq_mod (x.toNat / 2) 31, Nat.testBit_and]
    cases i with
    | zero => simp [Nat.testBit_zero]
    | succ i => simp [Nat.testBit_succ]
  rw [BitVec.toNat_and]
  refine field.trans ?_
  omega

/-- What a write of MODE leaves. -/
theorem setCsr_mode : ∃ m, c.apply (.csr 1 x) = { c with mode := m } ∧ (∀ i, 2 ≤ i → m.getLsbD i = c.mode.getLsbD i) ∧
    m.toNat % 4 = if x.toNat % 4 = 3 then c.mode.toNat % 4 else x.toNat % 4 := by
  by_cases reserved : x.toNat % 4 = 3
  · refine ⟨c.mode, if_pos ((and_three_eq_iff x).2 reserved), fun _ _ => rfl, (if_pos reserved).symm⟩
  · refine ⟨_, if_neg (mt (and_three_eq_iff x).1 reserved), fun i hi => ?_, ?_⟩
    · rw [BitVec.getLsbD_or, BitVec.getLsbD_and, BitVec.getLsbD_and, BitVec.getLsbD_not, getLsbD_three,
        decide_eq_false (Nat.not_lt.2 hi)]
      by_cases inside : i < 64
      · simp [inside]
      · simp [inside, BitVec.getLsbD_of_ge c.mode i (Nat.not_lt.1 inside)]
    · rw [if_neg reserved, ← toNat_and_three, contract_replaced, toNat_and_three]

theorem errInjOk_of_bad_target (armed : x.getLsbD 63 = true) (h : x.toNat / 2 ^ 56 % 16 = 0 ∨ 6 < x.toNat / 2 ^ 56 % 16) :
    errInjOk x = false := by
  change bitsAt x.toNat 56 4 = 0 ∨ 6 < bitsAt x.toNat 56 4 at h
  simp only [errInjOk, armed, Bool.not_true, Bool.false_or]
  rcases h with zero | high
  · simp [zero]
  · simp [Nat.not_le.2 high]

end

/-- Settles O9, register by register. -/
theorem csrWriteEffects : Obligations.CsrWriteEffects := by
  unfold Obligations.CsrWriteEffects
  intro c x
  refine ⟨⟨_, rfl, fun i => ?_⟩, setCsr_mode, ⟨_, rfl, fun i hi => ?_⟩, ⟨_, rfl, toNat_tvec x⟩, rfl,
    fun armed bad => ?_⟩
  · rw [BitVec.getLsbD_and, getLsbD_flagsMask]
  · simp [hi]
  · exact if_neg (by rw [errInjOk_of_bad_target armed bad]; decide)

/-! ## Floating-point arithmetic (06 R156, R158) -/

theorem fpOp_eq {op : Rnd → Val → Val → Val × Flags} {s : State} {w : Width} {d a b : SReg} {r : Val × Flags}
    (hr : op s.core.ictx.rnd (decodeVal (widthFmt w) (fpOperand w (s.core.s a)))
      (decodeVal (widthFmt w) (fpOperand w (s.core.s b))) = r) :
    fpOp op w d a b s = .next (posted s 4
      (.s d (.ofNat 64 (convert (widthFmt w) s.core.ictx.rnd s.core.ictx.sm r.1).1))
      (r.2 ||| (convert (widthFmt w) s.core.ictx.rnd s.core.ictx.sm r.1).2) 24) := by
  rw [fpOp, fpArg_eq, fpArg_eq, fpBin, hr]
  rfl

/-- Settles O4, operation by operation. -/
theorem scalarFloatArithmetic : Obligations.ScalarFloatArithmetic := by
  unfold Obligations.ScalarFloatArithmetic
  intro s w dst src d a b f x y z m sm put rounded
  refine ⟨fpOp_eq (op := addV) rfl, fpOp_eq (op := subV) rfl, fpOp_eq (op := mulV) rfl, ?_, ?_, ?_,
    fun other => ?_, fun r hr => ?_⟩
  · change execFfma w d a b s = _
    rw [execFfma, fpArg_eq, fpArg_eq, fpArg_eq]
    rfl
  · change fpMinMax false w d a b s = _
    rw [fpMinMax, fpArg_eq, fpArg_eq]
    rfl
  · change fpMinMax true w d a b s = _
    rw [fpMinMax, fpArg_eq, fpArg_eq]
    rfl
  · cases dst with
    | i32 => exact absurd rfl other
    | _ => rfl
  · rw [hr]
    rfl

/-! ## Moves (06 R160 to R165) -/

/-- A part of a predicate, p0 all ones (06 R160). -/
theorem ptos_part (c : Core) (p : PReg) (i : BitVec 2) : (c.p p).extractLsb' (64 * i.toNat) 64 =
    if p = 0 then BitVec.allOnes 64 else (c.preg.get p.toFin).extractLsb' (64 * i.toNat) 64 := by
  by_cases zero : p = 0
  · subst zero
    have := i.isLt
    rw [if_pos rfl, Core.p_zero]
    ext j hj
    rw [BitVec.getElem_extractLsb', BitVec.getLsbD_allOnes, BitVec.getElem_allOnes]
    exact decide_eq_true (by omega)
  · rw [if_neg zero, Core.p, if_neg zero]

theorem lix_live {s : State} {d : SReg} {n : BitVec 13} {e : LoopEnt} (h : s.core.loops[n.toNat]? = some e) :
    exec (.lix d n) s = .next (posted s 1 (.s d (e.index.setWidth 64)) 0 16) := by
  change execLix d n s = _
  rw [execLix, h]
  rfl

theorem lix_beyond {s : State} {d : SReg} {n : BitVec 13} (h : s.core.loops.length ≤ n.toNat) :
    exec (.lix d n) s = .next (posted s 1 (.s d 0) 0 16) := by
  change execLix d n s = _
  rw [execLix, List.getElem?_eq_none h]
  rfl

/-- Settles O6, move by move, with what mp and k hold once the write has fallen due. -/
theorem scalarMoves : Obligations.ScalarMoves := by
  unfold Obligations.ScalarMoves
  intro s d a p c m k n
  refine ⟨completes_with rfl (ptos_part s.core p c), rfl, rfl, rfl, rfl, rfl, fun e => lix_live, lix_beyond, rfl,
    fun x y => ⟨?_, ?_, ?_⟩⟩
  · exact ⟨_, rfl, s.core.mp_setMp_self m y, fun q other => s.core.mp_setMp_ne y other⟩
  · exact ⟨_, _, rfl, s.core.k_setK_self k x, fun q other => s.core.k_setK_ne x other⟩
  · refine ⟨_, _, rfl, ?_, fun q other => s.core.k_setK_ne _ other⟩
    exact (congrArg BitVec.toNat (s.core.k_setK_self k _)).trans (BitVec.toNat_add ..)

/-! ## The distance of two virtual dies (06 R164) -/

theorem vdieOf_of_ge {s : State} {ctx v : Nat} (h : 4 ≤ v) : vdieOf s ctx v = none := by
  simp [vdieOf, Nat.not_lt.2 h]

section
variable {s : State} {st : Strand} {d a b : SReg} {i j : DieId}

theorem vdqry_invalid (hst : s.core.strand = some st)
    (h : vdieOf s st.ctx (s.core.s a).toNat = none ∨ vdieOf s st.ctx (s.core.s b).toNat = none) :
    exec (.vdqry d a b) s = .next (posted s 2 (.s d 255) 0 16) := by
  refine completes_with rfl (congrArg (BitVec.ofNat 64) (?_ : vdqryVal s (s.core.s a) (s.core.s b) = 255))
  rw [vdqryVal, hst]
  rcases h with h | h <;> simp [h]

theorem vdqry_valid (hst : s.core.strand = some st) (hi : vdieOf s st.ctx (s.core.s a).toNat = some i)
    (hj : vdieOf s st.ctx (s.core.s b).toNat = some j) :
    exec (.vdqry d a b) s = .next (posted s 2 (.s d (.ofNat 64 (routeLen i j))) 0 16) := by
  refine completes_with rfl (congrArg (BitVec.ofNat 64) (?_ : vdqryVal s (s.core.s a) (s.core.s b) = routeLen i j))
  rw [vdqryVal, hst]
  simp [hi, hj]

end

/-- The diagonal pairs are two links apart, all others one (01 R29). -/
theorem routeLen_eq (i j : DieId) : BitVec.ofNat 64 (routeLen i j) = if i = j then 0
    else if (i = .cd0 ∧ j = .md1) ∨ (i = .md1 ∧ j = .cd0) ∨ (i = .cd1 ∧ j = .md0) ∨ (i = .md0 ∧ j = .cd1) then 2
    else 1 := by
  cases i <;> cases j <;> rfl

/-- Settles O7. -/
theorem virtualDieDistance : Obligations.VirtualDieDistance := by
  unfold Obligations.VirtualDieDistance
  intro s st d a b hst x y put
  exact ⟨vdqry_invalid hst, fun high => vdqry_invalid hst (high.imp vdieOf_of_ge vdieOf_of_ge),
    fun i j hi hj => (vdqry_valid hst hi hj).trans (completes_with rfl (routeLen_eq i j))⟩

/-! ## CSR numbers (06 R144, R145) -/

/-- The numbers that CSRRD reads, and those that CSRWR writes. -/
def readableCsrs : List Nat := [0x000, 0x001, 0x002, 0x003, 0x010, 0x011, 0x012, 0x020, 0x021, 0x030, 0x040, 0x050, 0x051,
  0x052, 0x053, 0x054, 0x056, 0x058, 0x059, 0x05A, 0x05B]
def writableCsrs : List Nat := [0x000, 0x001, 0x030, 0x040, 0x050, 0x058, 0x059, 0x05A, 0x05B]

theorem csr_isSome_iff {n : Nat} (c : Core) : (c.csr n).isSome = true ↔ n ∈ readableCsrs := by
  unfold Core.csr
  split
  case h_22 => simp_all [readableCsrs]
  all_goals exact iff_of_true rfl (by decide)

theorem csrWritable_iff {n : Nat} : csrWritable n = true ↔ n ∈ writableCsrs := by
  simp [csrWritable, writableCsrs]
  omega

/-- Settles O8. -/
theorem csrAccess : Obligations.CsrAccess := by
  unfold Obligations.CsrAccess
  intro s d a n readable writable
  refine ⟨fun assigned => ?_, fun unassigned => ?_, fun assigned => ?_, fun unassigned => ?_⟩
  · obtain ⟨x, hx⟩ := Option.isSome_iff_exists.1 ((csr_isSome_iff s.core).2 assigned)
    refine ⟨x, hx, ?_⟩
    change execCsrrd d n s = _
    rw [execCsrrd, hx]
    rfl
  · change execCsrrd d n s = _
    rw [execCsrrd, Option.not_isSome_iff_eq_none.1 (mt (csr_isSome_iff s.core).1 unassigned)]
  · exact if_pos (csrWritable_iff.2 assigned)
  · exact if_neg (mt csrWritable_iff.1 unassigned)

end Sys2Proof.Machine

/-! # The operations of the control slot (O11 to O14, O17) -/

namespace Sys2Proof.Machine

open Sys2Proof.Terms

/-! ## Transfers (06 R142, R167) -/

section
variable {s : State} {n : Nat}

theorem State.transfer_even (h : n % 2 = 0) : s.transfer n = gone s n := if_neg (by omega)
theorem State.transfer_odd (h : n % 2 = 1) : s.transfer n = s.issueTrap .fetchRange 0x1F0 0 := if_pos h
theorem State.transferLink_even (h : n % 2 = 0) :
    s.transferLink n = gone (posted s 1 (.link (.ofNat 64 s.core.ictx.npc)) 0 16) n := if_neg (by omega)
theorem State.transferLink_odd (h : n % 2 = 1) : s.transferLink n = s.issueTrap .fetchRange 0x1F0 0 := if_pos h

end

/-- Settles O11, by the parity of the target and the condition. -/
theorem controlTransfers : Obligations.ControlTransfers := by
  unfold Obligations.ControlTransfers
  intro s a off imm dest far back linked odd
  refine ⟨rfl, fun even => ⟨next_eq (State.transfer_even even), next_eq (State.transferLink_even even), fun zero => ?_,
      fun nonzero => ?_⟩,
    fun odd => ⟨next_eq (State.transfer_odd odd), next_eq (State.transferLink_odd odd), fun zero => ?_,
      fun nonzero => ?_⟩,
    fun nonzero => next_eq (if_neg nonzero), fun zero => next_eq (if_neg (not_not.2 zero)),
    fun even => ⟨next_eq (State.transfer_even even), next_eq (State.transferLink_even even)⟩,
    fun odd => ⟨next_eq (State.transfer_odd odd), next_eq (State.transferLink_odd odd)⟩,
    fun even => next_eq (State.transfer_even even), fun odd => next_eq (State.transfer_odd odd)⟩
  · exact next_eq ((if_pos zero).trans (State.transfer_even even))
  · exact next_eq ((if_pos nonzero).trans (State.transfer_even even))
  · exact next_eq ((if_pos zero).trans (State.transfer_odd odd))
  · exact next_eq ((if_pos nonzero).trans (State.transfer_odd odd))

/-! ## Loops (06 R169, R171) -/

section
variable {s : State} {n last : Nat} {a : SReg} {z : Bool} {l : LoopEnt} {r : List LoopEnt}

/-- A count in range pushes an entry of index 0 where there is room. -/
theorem loopOp_pushes (hn : 0 < n) (hm : n < 2 ^ 32) (room : s.core.loops.length < 6) :
    loopOp n last s = { s with core := { s.core with
      loops := { index := 0, limit := .ofNat 32 n, start := s.core.ictx.npc, last := s.core.pc + 2 * last } ::
        s.core.loops } } := by
  rw [loopOp, if_neg (Nat.not_le.2 hm), if_neg hn.ne', if_neg (Nat.not_le.2 room)]
  rfl

theorem loopOp_zero : loopOp 0 last s = gone (s.endRec (s.core.pc + 2 * last)) (s.afterBundle (s.core.pc + 2 * last)) := rfl

theorem loopOp_count (hm : 2 ^ 32 ≤ n) : loopOp n last s = s.issueTrap .loopCount 0 0 := if_pos hm

theorem loopOp_overflow (hn : 0 < n) (hm : n < 2 ^ 32) (full : 6 ≤ s.core.loops.length) :
    loopOp n last s = s.issueTrap .loopOverflow 0 0 := by
  rw [loopOp, if_neg (Nat.not_le.2 hm), if_neg hn.ne', if_pos full]

theorem lbreak_leaves (hl : s.core.loops = l :: r) (h : (s.core.s a == 0) = z) : exec (.lbreak a z) s =
    .next { gone (s.endRec l.last) (s.afterBundle l.last) with
      core := { (gone (s.endRec l.last) (s.afterBundle l.last)).core with loops := r } } := by
  change execLbreak a z s = _
  rw [execLbreak, hl]
  exact if_pos (beq_iff_eq.2 h)

theorem lbreak_stays (hl : s.core.loops = l :: r) (h : (s.core.s a == 0) = !z) : exec (.lbreak a z) s = .next s := by
  change execLbreak a z s = _
  rw [execLbreak, hl]
  exact if_neg (by rw [h]; cases z <;> decide)

theorem lbreak_empty (hl : s.core.loops = []) : exec (.lbreak a z) s = .next (s.issueTrap .loopEmpty 0 0) := by
  change execLbreak a z s = _
  rw [execLbreak, hl]

end

/-- Settles O12, by the count and the depth of the loop stack. -/
theorem loops : Obligations.Loops := by
  unfold Obligations.Loops
  intro s a last cnt end14 z mask n e e' pushed
  have small : cnt.toNat < 2 ^ 32 := lt_trans cnt.isLt (by decide)
  refine ⟨fun pos fits room => next_eq (loopOp_pushes pos fits room), fun pos room => next_eq (loopOp_pushes pos small room),
    fun zero => ?_, fun zero => ?_, fun high => next_eq (loopOp_count high),
    fun pos fits full => next_eq (loopOp_overflow pos fits full), fun pos full => next_eq (loopOp_overflow pos small full),
    lbreak_empty, fun l r => lbreak_leaves, fun l r => lbreak_stays, rfl⟩
  · exact next_eq ((congrArg (loopOp · last.toNat s) zero).trans loopOp_zero)
  · exact next_eq ((congrArg (loopOp ·.toNat end14.toNat s) zero).trans loopOp_zero)

/-! ## Waits and commits (06 R173 to R180, 13 R384, R390) -/

section
variable {s t : State}

theorem waitTokens_eq (tk : BitVec 6) (mask : BitVec 8) : waitTokens tk mask =
    tk :: ((List.range 8).filter fun i => mask.getLsbD i).map fun i => tk + 1 + .ofNat 6 i := by
  rw [waitTokens, ← List.filterMap_eq_filter, List.map_filterMap]
  congr 2
  funext i
  by_cases named : mask.getLsbD i = true <;> simp [named]

theorem State.commitThen_eq (h : s.core.snap = none) (after : AfterCommit) : s.commitThen after = committing s after :=
  if_neg (by simp [h])

/-- Slots are taken on the die; the core is not touched. -/
theorem State.reserveSlots_core (h : s.reserveSlots = some t) : t.core = s.core := by
  unfold State.reserveSlots State.takeSlots at h
  dsimp only at h
  split at h
  · cases h
  · split at h
    · cases h
    · cases h
      rfl

/-- YIELD continues where no stop is asked, none may be made, or the pool has no slots. -/
theorem yield_continues (h : s.core.snap = none)
    (stay : s.core.stop = false ∨ s.core.atCommit = false ∨ s.reserveSlots = none) :
    exec .yield s = .next s := by
  change execYield s = _
  rw [execYield, if_neg (by simp [h])]
  rcases stay with stop | region | pool
  · exact if_neg (by simp [stop])
  · exact if_neg (by simp [region])
  · rw [pool]
    exact ite_self _

/-- YIELD stops the strand once its pending writes have fallen due. -/
theorem yield_stops (h : s.core.snap = none) (stop : s.core.stop = true) (region : s.core.atCommit = true)
    (pool : s.reserveSlots = some t) : exec .yield s = .next (t.onCore fun c =>
      if c.pend.isEmpty then { c with stopping := some 1 } else { c with dead := c.dead + c.pendEnd, wait := some .yield }) := by
  change execYield s = _
  rw [execYield, if_neg (by simp [h]), if_pos (by simp [stop, region]), pool]

/-- In a handler no operation of a commit begins (13 R376). -/
theorem commit_in_handler (h : s.core.snap.isSome = true) : ∀ i ∈ [Instr.commit, .bar, .sstep, .exit, .drain, .yield],
    exec i s = .next (s.issueTrap .handlerFault 0 0) := by
  have trap (after : AfterCommit) : s.commitThen after = s.issueTrap .handlerFault 0 0 := if_pos h
  simp only [List.forall_mem_cons]
  refine ⟨next_eq (trap _), next_eq (trap _), next_eq (trap _), next_eq (trap _), next_eq (trap _), if_pos h, ?_⟩
  exact List.forall_mem_nil _

end

/-- Settles O13, operation by operation. -/
theorem waitsAndCommits : Obligations.WaitsAndCommits := by
  unfold Obligations.WaitsAndCommits
  intro s k b imm tk mask
  refine ⟨rfl, next_eq (congrArg (fun l => waiting s (.tokens l)) (waitTokens_eq tk mask)), rfl, rfl, fun h => ?_,
    fun h => commit_in_handler h⟩
  have commit (after : AfterCommit) : (Host.Outcome.next (s.commitThen after) : Out) = .next (committing s after) :=
    next_eq (State.commitThen_eq h after)
  refine ⟨commit _, commit _, fun st hst => ?_, commit _, commit _, yield_continues h,
    fun t stop region pool => ⟨fun settled => ?_, fun unsettled => ?_⟩⟩
  · change execSstep s = _
    rw [execSstep, hst]
    exact commit _
  · have empty : t.core.pend.isEmpty = true := by rw [State.reserveSlots_core pool, settled]; rfl
    exact (yield_stops h stop region pool).trans (next_eq (congrArg (fun c => { t with core := c }) (if_pos empty)))
  · have pending : ¬ t.core.pend.isEmpty = true := by rw [State.reserveSlots_core pool]; simpa using unsettled
    exact (yield_stops h stop region pool).trans (next_eq (congrArg (fun c => { t with core := c }) (if_neg pending)))

/-! ## Traps (06 R183, R184, 13 R371 to R377) -/

section
variable {s : State} {r : TrapReq} {pc issue n : Nat}

theorem Core.apply_ct_tvec (c : Core) {p : Pend} (hp : p.isCt = true) : (c.apply p.wr).tvec = c.tvec := by
  unfold Pend.isCt at hp
  split at hp
  · next e => rw [e]; rfl
  · next e => rw [e]; rfl
  · cases hp

/-- What the CT slot writes leaves TVEC alone. -/
theorem Core.applyCt_tvec (c : Core) : c.applyCt.tvec = c.tvec :=
  List.foldlRecOn (motive := fun e : Core => e.tvec = c.tvec) _ _ rfl fun e he _ hp =>
    (e.apply_ct_tvec (List.mem_filter.1 hp).2).trans he

/-- A synchronous trap that resumes enters a handler that is set and not running (13 R375). -/
theorem State.takeTrap_enters (h : s.core.snap = none) (hr : trapResumes r.name = true) (ht : s.core.tvec ≠ 0) :
    s.takeTrap r false pc issue n = s.onCore fun c => c.applyCt.enter r false pc issue n := by
  rw [State.takeTrap, if_neg (by simp [h]), if_pos (by rw [hr, decide_eq_true ht]; rfl)]

end

/-- Settles O14. -/
theorem trapOperations : Obligations.TrapOperations := by
  unfold Obligations.TrapOperations
  intro s a code
  refine ⟨rfl, rfl, fun set outside => ⟨_, _, next_eq (State.takeTrap_enters outside rfl set),
    next_eq (State.takeTrap_enters outside rfl set), rfl, rfl, rfl, ?_, rfl, ?_⟩, fun inside => if_pos inside,
    fun outside => if_neg (by simp [outside]), rfl⟩
  · exact congrArg BitVec.toNat s.core.applyCt_tvec
  · exact congrArg BitVec.toNat s.core.applyCt_tvec

end Sys2Proof.Machine

/-! # Posted operations (O17)

What `State.postOp` does with the effect of an operation other than a store: nothing, a walk, an entry of the Trellis log, or a
held access (09 R247, R254, R261, 13 R382). -/

namespace Sys2Proof.Machine

open Sys2Proof.Terms

section
variable {s t u : State}

/-! ## Records of absent pages -/

/-- From `s` to `t` only records have been written: memory, the counts of the dies, the frame counter and the free values
differ. -/
def Recorded (s t : State) : Prop := ∃ m ds fr n, t = { s with mem := m, dies := ds, frame := fr, free := n }

theorem Recorded.refl (s : State) : Recorded s s := ⟨_, _, _, _, rfl⟩

theorem Recorded.faultRec {d : DieId} {ctx kind va pa detail master : Nat} (h : Recorded s t) :
    Recorded s (t.faultRec d ctx kind va pa detail master) := by
  obtain ⟨m, ds, fr, n, rfl⟩ := h
  obtain ⟨v, m', fr', n', e⟩ := State.faultRec_eq (d := d) (ctx := ctx) (kind := kind) (va := va) (pa := pa)
    (detail := detail) (master := master) { s with mem := m, dies := ds, frame := fr, free := n }
  exact ⟨m', _, fr', n', e.trans rfl⟩

theorem Recorded.absentRecs (h : Recorded s t) (l ents : List Trel) : Recorded s (t.absentRecs l ents) := by
  unfold State.absentRecs
  refine List.foldlRecOn (motive := fun x : State × List Trel => Recorded s x.1) _ _ h fun x hx e _ => ?_
  refine List.foldlRecOn (motive := fun y : State × List Nat => Recorded s y.1) _ _ hx fun y hy p _ => ?_
  split
  · exact hy
  · exact hy.faultRec

/-! ## Entries of the log -/

theorem trellisEntries_length (c : Core) (hw : HWord) (act : Act) (at' : Attr) (each : Bool) (es : List Elem) :
    (trellisEntries c hw act at' each es).length = if each then es.length else 1 := by
  cases each
  · rfl
  · exact List.length_map _

theorem trellisEntries_new {c : Core} {hw : HWord} {act : Act} {at' : Attr} {each : Bool} {es : List Elem} :
    ∀ x ∈ trellisEntries c hw act at' each es, x.act = act ∧ x.committed = false := by
  intro x hx
  cases each with
  | false =>
    obtain rfl := List.mem_singleton.1 hx
    exact ⟨rfl, rfl⟩
  | true =>
    obtain ⟨e, _, rfl⟩ := List.mem_map.1 hx
    exact ⟨rfl, rfl⟩

/-! ## The branches of a posted operation -/

section
variable {h : Reg16} {right : Right} {act : Act} {at' : Attr} {es : List Elem} {each detail : Bool} {units : Nat}

theorem not_far (near : ∀ e ∈ es, e.off < 2 ^ 27) : ¬ (es.any fun e => 2 ^ 27 ≤ e.off) = true := by
  simpa using near

/-- Through a handle that is not valid the strand waits for the walk of its page. -/
theorem State.postOp_walks (init : hInit (s.core.h h) = true) (near : ∀ e ∈ es, e.off < 2 ^ 27)
    (stale : hValid (s.core.h h) = false) :
    s.postOp h right act at' es true each units detail = (s.startWalk h .handle).2.onCore fun c =>
      { c with ictx := { c.ictx with stall := some (.walk s.nextId) }, wait := some (.walk s.nextId) } := by
  unfold State.postOp
  extract_lets c hw off va det isRed isLaunch
  rw [if_neg (by simp [hw, c, init]), if_neg (not_far near), if_neg (by decide), if_pos (by simp [hw, c, stale])]
  rfl

/-- With no active element nothing happens. -/
theorem State.postOp_empty (init : hInit (s.core.h h) = true) (valid : hValid (s.core.h h) = true) :
    s.postOp h right act at' [] true each units detail = s := by
  unfold State.postOp
  extract_lets c hw off va det isRed isLaunch
  rw [if_neg (by simp [hw, c, init]), if_neg (by simp), if_neg (by decide), if_neg (by simp [hw, c, valid]),
    if_pos List.isEmpty_nil]

/-- Does an element go to the log: its page is absent, or has an entry there? -/
def State.logged (s : State) (h : Reg16) (es : List Elem) : Bool :=
  !hPresent (s.core.h h) || es.any fun e => inLog s.core.trellis (s.core.h h) (hVa (s.core.h h) e.off)

/-- A checked effect becomes an access held until COMMIT, or entries of the log. -/
theorem State.postOp_takes (effect : act ≠ .store) (init : hInit (s.core.h h) = true) (near : ∀ e ∈ es, e.off < 2 ^ 27)
    (active : es ≠ []) (valid : hValid (s.core.h h) = true)
    (inside : hPresent (s.core.h h) = true →
      hRight (s.core.h h) right = true ∧ ∀ e ∈ es, e.off + e.len ≤ pageBytes (hSize (s.core.h h))) :
    let ents := trellisEntries s.core (s.core.h h) act at' each es
    let n := max units (ents.map trelLines).sum
    (s.logged h es = false → s.core.inst.used + units ≤ s.core.inst.budget →
      ∃ a, s.postOp h right act at' es true each units detail = { s with
          nextId := s.nextId + 1, core := { s.core.charge units with seq := s.core.seq + 1 }, flight := s.flight ++ [a] } ∧
        a.id = s.nextId ∧ a.act = act ∧ a.held = true) ∧
    (s.logged h es = true → s.core.inst.used + n ≤ s.core.inst.budget → s.core.trellis.length + ents.length ≤ 256 →
      ∃ t, Recorded s t ∧ s.postOp h right act at' es true each units detail = t.onCore fun c =>
        { c.charge n with trellis := c.trellis ++ ents, seq := c.seq + 1 }) := by
  have whole : ¬ (hPresent (s.core.h h) && es.any fun e => pageBytes (hSize (s.core.h h)) < e.off + e.len) = true := by
    simpa using fun p => (inside p).2
  have rights : ¬ (hPresent (s.core.h h) && !hRight (s.core.h h) right) = true := by
    simpa using fun p => (inside p).1
  intro ents n
  unfold State.postOp
  extract_lets c hw off va det isRed isLaunch walk ents' n' records parts held src a src' sent
  have red : isRed = true := by simp only [isRed]
  rw [if_neg (by simp [hw, c, init]), if_neg (not_far near), if_neg (by decide), if_neg (by simp [hw, c, valid]),
    if_neg (by simpa using active), if_neg whole, if_neg rights]
  refine ⟨fun clear fits => ?_, fun log fits room => ?_⟩
  · have kept : held = true := by simp [held, red]
    rw [if_neg (by exact Bool.eq_false_iff.1 clear), kept, if_neg (by simpa [Core.overBudget] using fits), if_pos rfl]
    have charged : src' = s.core.charge units := if_pos kept
    refine ⟨if held && !isLaunch then s.routed a else a, congrArg (fun k : Core => ({ s with
      nextId := s.nextId + 1, core := { k with seq := s.core.seq + 1 }, flight := _ } : State)) charged, ?_⟩
    split
    · exact ⟨rfl, rfl, kept⟩
    · exact ⟨rfl, rfl, kept⟩
  · have count : n' = n := by simp only [n']; rfl
    rw [if_pos (by exact log), count, if_neg (by simpa [Core.overBudget] using fits), if_neg (Nat.not_lt.2 room)]
    refine ⟨records, ?_, rfl⟩
    simp only [records]
    split
    · exact Recorded.refl s
    · exact (Recorded.refl s).absentRecs _ _

/-- What the statements ask of a posted operation, for every effect that is no store; `lines` relates the lines of the entries
of the log to those of the elements. -/
theorem postsAt_of_postOp {i : Instr} {al : Bool} (effect : act ≠ .store)
    (runs : exec i s = .next (s.postOp h right act at' es al each units detail))
    (lines : al = true → ((trellisEntries s.core (s.core.h h) act at' each es).map trelLines).sum = logLines each es) :
    PostsAt s i h right act es al each units := by
  intro _ init near aligned c hw red held n new logged
  have red_true : red = true := by simp only [red]
  have held_true : held = true := by simp [held, red_true]
  have count : n = max units ((trellisEntries s.core (s.core.h h) act at' each es).map trelLines).sum := by
    rw [lines aligned]
    simp only [n]
  subst aligned
  rw [runs]
  refine ⟨fun idle valid => ?_, fun stale => ?_,
    fun active valid inside => ⟨fun clear fits => ⟨fun _ => ?_, fun low => ?_⟩, fun log fits room => ?_⟩⟩
  · subst idle
    rw [State.postOp_empty init valid]
  · rw [State.postOp_walks init near stale]
    exact ⟨_, rfl, rfl, rfl, rfl, rfl, _, rfl, rfl, rfl⟩
  · obtain ⟨a, e, id, kind, kept⟩ := (State.postOp_takes effect init near active valid inside).1 clear (fits held_true)
    refine ⟨_, congrArg _ e, ?_, a, List.mem_append_right _ (List.mem_singleton_self a), id, kind, kept.trans held_true.symm⟩
    rw [SameButFabric, if_pos held_true]
    rfl
  · exact absurd (held_true.symm.trans low) (by decide)
  · have size := trellisEntries_length s.core (s.core.h h) act at' each es
    obtain ⟨u, ⟨m, ds, fr, k, rfl⟩, e⟩ :=
      (State.postOp_takes effect init near active valid inside).2 log (count ▸ fits) (size ▸ room)
    refine ⟨_, congrArg _ e, ?_, rfl, ?_, List.take_left, fun x hx => ?_⟩
    · rw [← count]
      rfl
    · exact List.length_append.trans (congrArg _ size)
    · rw [State.onCore_core, List.drop_left] at hx
      exact trellisEntries_new x hx

end
end

/-! ## Elements within one line (13 R382) -/

theorem canonVa_mod_line (va : Nat) : canonVa va % 64 = va % 64 := by
  unfold canonVa
  split <;> omega

/-- Pages begin at lines. -/
theorem hVa_mod_line (hw : HWord) (off : Nat) : hVa hw off % 64 = off % 64 := by
  have page : 64 ∣ 2 ^ 15 := by decide
  have size : 64 ∣ pageBytes (hSize hw) := page.trans (Nat.pow_dvd_pow 2 (Nat.le_add_right ..))
  have base : 64 ∣ if hPresent hw && hValid hw then hVpage hw * 2 ^ 15 - hVpage hw * 2 ^ 15 % pageBytes (hSize hw)
      else hVpage hw * 2 ^ 15 := by
    split
    · exact size.trans (Nat.dvd_sub_mod _)
    · exact page.mul_left _
  obtain ⟨k, hk⟩ := base
  rw [hVa, canonVa_mod_line, hk, Nat.mul_add_mod]

theorem line_count {a n : Nat} (pos : 0 < n) (h : a % 64 + n ≤ 64) : (a + n - 1) / 64 - a / 64 + 1 = 1 := by omega

/-- An element within a line is one line of the log. -/
theorem lines_within (c : Core) (hw : HWord) (act : Act) (at' : Attr) {e : Elem} (pos : 0 < e.len)
    (h : e.off % 64 + e.len ≤ 64) :
    ((trellisEntries c hw act at' false [e]).map trelLines).sum = logLines false [e] := by
  have own := line_count pos h
  have entry : (hVa hw e.off + e.len - 1) / 64 - hVa hw e.off / 64 + 1 = 1 := line_count pos (by rw [hVa_mod_line]; exact h)
  simp [trellisEntries, trelLines, Trel.parts, partOf, logLines, linesOf, own, entry, List.eraseDups_cons]

theorem pageBytes_ge (n : Nat) : 2 ^ 15 ≤ pageBytes n := Nat.pow_le_pow_right Nat.two_pos (Nat.le_add_right ..)

/-- The first 2^15 bytes lie within every page. -/
theorem inPage_of_le (hw : HWord) {off n : Nat} (h : off + n ≤ 2 ^ 15) : inPage hw off n = true := by
  have page := h.trans (pageBytes_ge (hSize hw))
  rw [inPage, decide_eq_true page, decide_eq_true (h.trans (by decide)), Bool.or_true]
  rfl

/-- Settles O17: SIGNAL and LAUNCH are posted operations of one element within a line. -/
theorem signalsAndLaunches : Obligations.SignalsAndLaunches := by
  unfold Obligations.SignalsAndLaunches
  intro h b dec q vd off
  refine ⟨fun s => ?_, fun s there => ?_, fun s st hst gone init aligned inside => ?_⟩
  · exact postsAt_of_postOp (by simp) rfl fun aligned => lines_within _ _ _ _ (Nat.succ_pos _) (by simp at aligned ⊢; omega)
  · obtain ⟨st, hst, valid⟩ := there
    refine postsAt_of_postOp (by simp) (if_neg ?_) fun aligned =>
      lines_within _ _ _ _ (Nat.succ_pos _) (by simp at aligned ⊢; omega)
    simp [hst, Option.isSome_iff_ne_none.1 valid]
  · refine if_pos ?_
    rw [init, inPage_of_le _ inside, hst, Bool.and_true, Bool.true_and, Bool.and_eq_true]
    exact ⟨beq_iff_eq.2 aligned, Option.isNone_iff_eq_none.2 gone⟩

end Sys2Proof.Machine
